-- ==== Sys2Proof/Syntax.lean ====
section
/-! DEFINITION. The syntax of the machine: the seventeen instruction formats of R234 as records of named fields, and one
constructor of `Instr` per row of spec/opcode_table.json: an instruction carries its fixed fields (`Head`, R232) and the
fields of its format; an event of the part carries the names of what it acts on. -/

namespace Sys2Proof

/-- The fixed fields of R232 that the mnemonic does not fix: the guard (R233) and the switch marker (R82). -/
structure Head where
  /-- The guard is negated (GN). -/
  gn : Bool
  /-- The guard predicate (GP). -/
  gp : BitVec 3
  /-- The switch marker (S). -/
  s : Bool
  deriving DecidableEq, Repr

/-- Format A: three registers, R234. 64 bits. -/
structure FmtA where
  d : BitVec 4
  dw : BitVec 2
  a : BitVec 4
  aw : BitVec 2
  b : BitVec 4
  bw : BitVec 2
  c : BitVec 4
  cw : BitVec 2
  p : BitVec 3
  fn : BitVec 8
  deriving DecidableEq, Repr

/-- Format I: 30-bit immediate, R234. 64 bits. -/
structure FmtI where
  d : BitVec 4
  dw : BitVec 2
  a : BitVec 4
  aw : BitVec 2
  fn : BitVec 4
  p : BitVec 3
  imm : BitVec 30
  deriving DecidableEq, Repr

/-- Format L: 64-bit immediate, R234. 96 bits. -/
structure FmtL where
  d : BitVec 4
  dw : BitVec 2
  imm : BitVec 64
  deriving DecidableEq, Repr

/-- Format P: predicates, R234. 64 bits. -/
structure FmtP where
  pd : BitVec 3
  pa : BitVec 3
  pb : BitVec 3
  tt : BitVec 4
  deriving DecidableEq, Repr

/-- Format B: branch offset, R234. 64 bits. -/
structure FmtB where
  d : BitVec 4
  dw : BitVec 2
  fn : BitVec 2
  off : BitVec 41
  deriving DecidableEq, Repr

/-- Format S: state register, R234. 64 bits. -/
structure FmtS where
  d : BitVec 4
  dw : BitVec 2
  sr : BitVec 8
  deriving DecidableEq, Repr

/-- Format N: 16-bit immediate, R234. 64 bits. -/
structure FmtN where
  imm : BitVec 16
  deriving DecidableEq, Repr

/-- Format M: memory reference, R234. 64 bits. -/
structure FmtM where
  d : BitVec 4
  dw : BitVec 2
  a : BitVec 4
  b : BitVec 4
  x : BitVec 1
  sz : BitVec 2
  sc : BitVec 4
  fn : BitVec 4
  off : BitVec 24
  deriving DecidableEq, Repr

/-- Format ML: memory reference with a tracker list, R234. 128 bits. -/
structure FmtML where
  d : BitVec 4
  dw : BitVec 2
  a : BitVec 4
  b : BitVec 4
  x : BitVec 1
  sz : BitVec 2
  sc : BitVec 4
  fn : BitVec 4
  off : BitVec 24
  list : BitVec 39
  deriving DecidableEq, Repr

/-- Format F: fence, R234. 96 bits. -/
structure FmtF where
  sc : BitVec 4
  pm : BitVec 8
  sm : BitVec 8
  list : BitVec 39
  deriving DecidableEq, Repr

/-- Format T: role and class, R234. 64 bits. -/
structure FmtT where
  d : BitVec 4
  dw : BitVec 2
  a : BitVec 4
  aw : BitVec 2
  rk : BitVec 8
  rx : BitVec 1
  b : BitVec 4
  ri : BitVec 15
  cls : BitVec 4
  fn : BitVec 5
  deriving DecidableEq, Repr

/-- Format W: role and class with a 32-bit immediate, R234. 96 bits. -/
structure FmtW where
  d : BitVec 4
  dw : BitVec 2
  a : BitVec 4
  aw : BitVec 2
  rk : BitVec 8
  rx : BitVec 1
  b : BitVec 4
  ri : BitVec 15
  cls : BitVec 4
  fn : BitVec 5
  imm : BitVec 32
  deriving DecidableEq, Repr

/-- Format V: vector, R234. 64 bits. -/
structure FmtV where
  vd : BitVec 7
  vdw : BitVec 2
  va : BitVec 7
  vaw : BitVec 2
  vb : BitVec 7
  vbw : BitVec 2
  lm : BitVec 3
  t : BitVec 4
  rm : BitVec 3
  sat : BitVec 1
  fn : BitVec 8
  deriving DecidableEq, Repr

/-- Format VX: vector with a general register and immediates, R234. 96 bits. -/
structure FmtVX where
  vd : BitVec 7
  vdw : BitVec 2
  va : BitVec 7
  vaw : BitVec 2
  vb : BitVec 7
  vbw : BitVec 2
  lm : BitVec 3
  t : BitVec 4
  rm : BitVec 3
  sat : BitVec 1
  fn : BitVec 8
  g : BitVec 4
  gw : BitVec 2
  t2 : BitVec 4
  cls : BitVec 4
  rk : BitVec 8
  imm : BitVec 10
  deriving DecidableEq, Repr

/-- Format VM: vector memory reference, R234. 96 bits. -/
structure FmtVM where
  vd : BitVec 7
  vdw : BitVec 2
  a : BitVec 4
  b : BitVec 4
  x : BitVec 1
  lm : BitVec 3
  t : BitVec 4
  vi : BitVec 7
  fn : BitVec 8
  off : BitVec 32
  deriving DecidableEq, Repr

/-- Format X: matrix and tensor, R234. 96 bits. -/
structure FmtX where
  ad : BitVec 4
  ma : BitVec 5
  mb : BitVec 5
  ta : BitVec 4
  tb : BitVec 4
  vsa : BitVec 7
  vsb : BitVec 7
  g : BitVec 4
  gw : BitVec 2
  tn : BitVec 8
  tn2 : BitVec 8
  tn3 : BitVec 8
  rm : BitVec 3
  sat : BitVec 1
  fn : BitVec 8
  deriving DecidableEq, Repr

/-- Format C: copy, R234. 128 bits. -/
structure FmtC where
  d : BitVec 4
  q : BitVec 2
  td : BitVec 8
  ts : BitVec 8
  gd : BitVec 4
  gdw : BitVec 2
  gs : BitVec 4
  gsw : BitVec 2
  gx : BitVec 4
  gxw : BitVec 2
  rm : BitVec 3
  sat : BitVec 1
  fn : BitVec 8
  ti : BitVec 8
  ge : BitVec 4
  deriving DecidableEq, Repr

/-- One constructor per row of spec/opcode_table.json, in the table's order. -/
inductive Instr where
  /-- R231. The 64-bit no-operation; it acts only as a switch point when its marker is set. -/
  | nop64 (h : Head) (f : FmtN)
  /-- R231. The 96-bit no-operation used as fill. -/
  | nop96 (h : Head) (f : FmtN)
  /-- R231. The 128-bit no-operation used as fill. -/
  | nop128 (h : Head) (f : FmtN)
  /-- R264. Ends the executing task and frees its slot; outstanding results are discarded while its accesses still complete. -/
  | exit (h : Head) (f : FmtN)
  /-- R262. Branches to the pc-relative target. -/
  | bra (h : Head) (f : FmtB)
  /-- R262. Branches to the target held in a general register. -/
  | brx (h : Head) (f : FmtA)
  /-- R262. Writes the link pc + 8 with a clear guard bit, then branches pc-relative. -/
  | call (h : Head) (f : FmtB)
  /-- R262. Branches to the target in the link register and pops the predictor's return stack. -/
  | ret (h : Head) (f : FmtA)
  /-- R263. Decrements the counter and branches while the counter is nonzero. -/
  | loop (h : Head) (f : FmtB)
  /-- R267. Waits for the task's outstanding results, then raises a precise program trap that carries the code. -/
  | trap (h : Head) (f : FmtN)
  /-- R267. Waits for the task's outstanding results, then raises a breakpoint that holds the task. -/
  | bkpt (h : Head) (f : FmtN)
  /-- R265. Reads a state register, or a 128-bit register into a pair, into a general register. -/
  | mfs (h : Head) (f : FmtS)
  /-- R266. Writes the writable fields of a state register from a general register. -/
  | mts (h : Head) (f : FmtS)
  /-- R254. Loads a sign-extended 30-bit immediate. -/
  | li (h : Head) (f : FmtI)
  /-- R254. Loads a 64-bit immediate. -/
  | liw (h : Head) (f : FmtL)
  /-- R255. Computes an address from base and offset, or from base and scaled index, without accessing memory. -/
  | lea (h : Head) (f : FmtM)
  /-- R256. Copies a register or an aligned register group, together with the guard bits. -/
  | mov (h : Head) (f : FmtA)
  /-- R250. Integer add. -/
  | add (h : Head) (f : FmtA)
  /-- R250. Integer add of an immediate. -/
  | addi (h : Head) (f : FmtI)
  /-- R250. Integer subtract. -/
  | sub (h : Head) (f : FmtA)
  /-- R250. Integer negate. -/
  | neg (h : Head) (f : FmtA)
  /-- R250. Low 64 bits of the product. -/
  | mul (h : Head) (f : FmtA)
  /-- R250. Low 64 bits of the product with an immediate. -/
  | muli (h : Head) (f : FmtI)
  /-- R250. High 64 bits of the signed or unsigned product. -/
  | mulh (h : Head) (f : FmtA)
  /-- R251. Signed or unsigned quotient with variable latency; division by zero is defined and never traps. -/
  | div (h : Head) (f : FmtA)
  /-- R251. Signed or unsigned remainder with variable latency. -/
  | rem (h : Head) (f : FmtA)
  /-- R250. Bitwise and. -/
  | and (h : Head) (f : FmtA)
  /-- R250. Bitwise and with a sign-extended immediate. -/
  | andi (h : Head) (f : FmtI)
  /-- R250. Bitwise or. -/
  | or (h : Head) (f : FmtA)
  /-- R250. Bitwise or with an immediate. -/
  | ori (h : Head) (f : FmtI)
  /-- R250. Bitwise exclusive or. -/
  | xor (h : Head) (f : FmtA)
  /-- R250. Bitwise exclusive or with an immediate. -/
  | xori (h : Head) (f : FmtI)
  /-- R250. ga AND NOT gb. -/
  | andn (h : Head) (f : FmtA)
  /-- R250. Bitwise not. -/
  | not (h : Head) (f : FmtA)
  /-- R252. Shift left by a register amount. -/
  | shl (h : Head) (f : FmtA)
  /-- R252. Shift left by an immediate amount. -/
  | shli (h : Head) (f : FmtI)
  /-- R252. Logical shift right by a register amount. -/
  | shr (h : Head) (f : FmtA)
  /-- R252. Logical shift right by an immediate amount. -/
  | shri (h : Head) (f : FmtI)
  /-- R252. Arithmetic shift right by a register amount. -/
  | sar (h : Head) (f : FmtA)
  /-- R252. Arithmetic shift right by an immediate amount. -/
  | sari (h : Head) (f : FmtI)
  /-- R252. Rotate left by a register amount. -/
  | rol (h : Head) (f : FmtA)
  /-- R252. Rotate left by an immediate amount. -/
  | roli (h : Head) (f : FmtI)
  /-- R250. Signed or unsigned minimum. -/
  | min (h : Head) (f : FmtA)
  /-- R250. Signed or unsigned maximum. -/
  | max (h : Head) (f : FmtA)
  /-- R250. Absolute value, with wrap on the most negative value. -/
  | abs (h : Head) (f : FmtA)
  /-- R250. Counts the leading zero bits. -/
  | clz (h : Head) (f : FmtA)
  /-- R250. Counts the trailing zero bits. -/
  | ctz (h : Head) (f : FmtA)
  /-- R250. Counts the one bits. -/
  | popc (h : Head) (f : FmtA)
  /-- R250. Reverses the bit order. -/
  | brev (h : Head) (f : FmtA)
  /-- R250. Reverses the byte order. -/
  | bswp (h : Head) (f : FmtA)
  /-- R253. Extracts a bit field, zero-extended. -/
  | bfx (h : Head) (f : FmtI)
  /-- R253. Extracts a bit field, sign-extended. -/
  | bfxs (h : Head) (f : FmtI)
  /-- R253. Inserts a bit field into gd. -/
  | bfi (h : Head) (f : FmtI)
  /-- R253. Sign-extends from width w. -/
  | sext (h : Head) (f : FmtI)
  /-- R260. Selects ga or gb by a predicate. -/
  | sel (h : Head) (f : FmtA)
  /-- R258. Compares two registers into a predicate. -/
  | cmp (h : Head) (f : FmtA)
  /-- R258. Compares a register with an immediate into a predicate. -/
  | cmpi (h : Head) (f : FmtI)
  /-- R259. Sets a predicate from two predicates through a truth table. -/
  | pset (h : Head) (f : FmtP)
  /-- R257. Writes a lane mask from a general register. -/
  | lmw (h : Head) (f : FmtA)
  /-- R257. Reads a lane mask into a general register. -/
  | lmr (h : Head) (f : FmtA)
  /-- R272. Loads a value or an aligned register group from memory. -/
  | ld (h : Head) (f : FmtM)
  /-- R272. Stores a register or an aligned register group to memory. -/
  | st (h : Head) (f : FmtM)
  /-- R178. Acquire load that holds the task's later accesses in its list until the acquire action of its scope. -/
  | lda (h : Head) (f : FmtML)
  /-- R179. Release store held until the earlier accesses in its list are complete at its scope. -/
  | stl (h : Head) (f : FmtML)
  /-- R276. Waits at the home until the word is full, then reads it. -/
  | ldf (h : Head) (f : FmtM)
  /-- R276. Waits until the word is full, reads it and leaves it empty. -/
  | ldfe (h : Head) (f : FmtM)
  /-- R276. Waits until the word is empty, writes it and sets it full. -/
  | ste (h : Head) (f : FmtM)
  /-- R276. Writes the word and sets it full. -/
  | stf (h : Head) (f : FmtM)
  /-- R276. Sets the word's full/empty bit to full. -/
  | feset (h : Head) (f : FmtM)
  /-- R276. Sets the word's full/empty bit to empty. -/
  | feclr (h : Head) (f : FmtM)
  /-- R276. Returns the word's full/empty bit. -/
  | fetst (h : Head) (f : FmtM)
  /-- R278. Prefetches one line into the first-level cache, the home slice or the crossing cache; it never faults. -/
  | pref (h : Head) (f : FmtM)
  /-- R279. Stores data into the scratchpad of the core bound to a role, over a route class. -/
  | put (h : Head) (f : FmtT)
  /-- R280. Performs an atomic read-modify-write at the home and returns the old value. -/
  | amo (h : Head) (f : FmtM)
  /-- R281. Compare and swap at the home; returns the old value. -/
  | cas (h : Head) (f : FmtM)
  /-- R280. Non-returning integer reduction at the home. -/
  | red (h : Head) (f : FmtM)
  /-- R282. Floating add at the home; returns the old value. -/
  | amof (h : Head) (f : FmtM)
  /-- R282. Non-returning floating add at the home. -/
  | redf (h : Head) (f : FmtM)
  /-- R175. Holds the issuing task's later accesses of the successor kinds until the selected earlier accesses are complete at the scope. -/
  | fence (h : Head) (f : FmtF)
  /-- R285. Binds a tracker to an address range. -/
  | track (h : Head) (f : FmtA)
  /-- R285. Binds a tracker to a tensor's footprint. -/
  | trackt (h : Head) (f : FmtA)
  /-- R285. Unbinds a tracker. -/
  | untrack (h : Head) (f : FmtA)
  /-- R174. Inserts a joining entry into the named engine queues. -/
  | qfence (h : Head) (f : FmtN)
  /-- R292. Loads whole vector registers. -/
  | vld (h : Head) (f : FmtVM)
  /-- R292. Stores the active lanes of vector registers. -/
  | vst (h : Head) (f : FmtVM)
  /-- R293. Strided element load. -/
  | vlds (h : Head) (f : FmtVM)
  /-- R293. Strided element store. -/
  | vsts (h : Head) (f : FmtVM)
  /-- R293. Indexed gather of 32-bit elements. -/
  | vgath (h : Head) (f : FmtVM)
  /-- R293. Indexed scatter of 32-bit elements. -/
  | vscat (h : Head) (f : FmtVM)
  /-- R296. Copies vector elements, bits unchanged. -/
  | vmov (h : Head) (f : FmtV)
  /-- R296. Broadcasts a general register to every element. -/
  | vbcast (h : Head) (f : FmtVX)
  /-- R296. Extracts element k into a general register. -/
  | vext (h : Head) (f : FmtVX)
  /-- R296. Inserts a general register at element k. -/
  | vins (h : Head) (f : FmtVX)
  /-- R296. Writes each element's own index. -/
  | viota (h : Head) (f : FmtV)
  /-- R297. Element-wise add. -/
  | vadd (h : Head) (f : FmtV)
  /-- R297. Element-wise subtract. -/
  | vsub (h : Head) (f : FmtV)
  /-- R297. Element-wise multiply. -/
  | vmul (h : Head) (f : FmtV)
  /-- R297. Fused a × b + d. -/
  | vfma (h : Head) (f : FmtV)
  /-- R297. Fused a × b − d. -/
  | vfms (h : Head) (f : FmtV)
  /-- R297. Fused d − a × b. -/
  | vfnma (h : Head) (f : FmtV)
  /-- R297. Element-wise minimum. -/
  | vmin (h : Head) (f : FmtV)
  /-- R297. Element-wise maximum. -/
  | vmax (h : Head) (f : FmtV)
  /-- R297. Element-wise absolute value. -/
  | vabs (h : Head) (f : FmtV)
  /-- R297. Element-wise negate. -/
  | vneg (h : Head) (f : FmtV)
  /-- R298. Bitwise and of containers. -/
  | vand (h : Head) (f : FmtV)
  /-- R298. Bitwise or of containers. -/
  | vor (h : Head) (f : FmtV)
  /-- R298. Bitwise exclusive or of containers. -/
  | vxor (h : Head) (f : FmtV)
  /-- R298. Element-wise shift left. -/
  | vshl (h : Head) (f : FmtV)
  /-- R298. Element-wise logical shift right. -/
  | vshr (h : Head) (f : FmtV)
  /-- R298. Element-wise arithmetic shift right. -/
  | vsar (h : Head) (f : FmtV)
  /-- R299. Compares elements into a lane mask. -/
  | vcmp (h : Head) (f : FmtV)
  /-- R300. Selects lanes of va or vb by a mask. -/
  | vsel (h : Head) (f : FmtV)
  /-- R301. Correctly rounded reciprocal. -/
  | vrcp (h : Head) (f : FmtV)
  /-- R301. Correctly rounded reciprocal square root. -/
  | vrsq (h : Head) (f : FmtV)
  /-- R301. Correctly rounded 2^a. -/
  | vexp2 (h : Head) (f : FmtV)
  /-- R301. Correctly rounded log2 a. -/
  | vlog2 (h : Head) (f : FmtV)
  /-- R303. Converts elements between formats, with block scales on a .x side. -/
  | vcvt (h : Head) (f : FmtVX)
  /-- R304. Quantises blocks to a narrow format and returns their S16 scales. -/
  | vqnt (h : Head) (f : FmtVX)
  /-- R305. Dequantises narrow blocks with their scales and a factor. -/
  | vdeq (h : Head) (f : FmtVX)
  /-- R306. Reduces a vector into a general register by a fixed tree. -/
  | vred (h : Head) (f : FmtVX)
  /-- R307. Inclusive scan in fixed steps. -/
  | vscan (h : Head) (f : FmtV)
  /-- R308. Permutes elements by indexes. -/
  | vperm (h : Head) (f : FmtV)
  /-- R309. Applies a fixed shuffle pattern. -/
  | vshuf (h : Head) (f : FmtVX)
  /-- R310. Accumulates per-lane dot products. -/
  | vdot (h : Head) (f : FmtV)
  /-- R311. Adds one scaled row of a register table into vd. -/
  | vmaci (h : Head) (f : FmtVX)
  /-- R320. Zeroes an accumulator tile through the matrix queue. -/
  | mzero (h : Head) (f : FmtX)
  /-- R321. Loads a tile from a tensor through the matrix queue. -/
  | mld (h : Head) (f : FmtX)
  /-- R321. Loads the block scales of a tile into a vector register. -/
  | mldSc (h : Head) (f : FmtX)
  /-- R322. Stores an accumulator tile to a tensor, converting or raw. -/
  | mst (h : Head) (f : FmtX)
  /-- R323. Multiply-accumulates two operand tiles into an accumulator. -/
  | mma (h : Head) (f : FmtX)
  /-- R323. Block-scaled tile multiply-accumulate. -/
  | mmas (h : Head) (f : FmtX)
  /-- R325. Fetches the B operand from a remote scratchpad once it is full, then multiply-accumulates. -/
  | mmar (h : Head) (f : FmtX)
  /-- R327. Tiled macro matrix multiply over tensors in ordered steps. -/
  | mmat (h : Head) (f : FmtX)
  /-- R330. Adds one accumulator into another. -/
  | macc (h : Head) (f : FmtX)
  /-- R331. Transposes a tile of 16-bit containers. -/
  | mtrn (h : Head) (f : FmtX)
  /-- R332. Rewrites a code table in matrix-queue order. -/
  | mcode (h : Head) (f : FmtX)
  /-- R333. Replaces a tensor-table entry of the core at issue. -/
  | tdef (h : Head) (f : FmtX)
  /-- R334. Reads a tensor-table entry into two vector registers. -/
  | tqry (h : Head) (f : FmtX)
  /-- R335. Sends one message for each active nonzero element. -/
  | spsend (h : Head) (f : FmtVX)
  /-- R339. Creates a child task on the issuing core. -/
  | spawn (h : Head) (f : FmtW)
  /-- R340. Creates a child task on a role of a group chosen by TID. -/
  | spawnp (h : Head) (f : FmtW)
  /-- R341. Sends a message packet that starts a handler task at a role. -/
  | send (h : Head) (f : FmtT)
  /-- R403. SEND on class 3 from the supervisor role's core sends a resume packet that creates no task. -/
  | sendResume (h : Head) (f : FmtT)
  /-- R342. Takes the children's join words as LDFE does, in ascending address. -/
  | join (h : Head) (f : FmtT)
  /-- R342. Stores a result to the join word at g15 with STF and ends the task. -/
  | joinRet (h : Head) (f : FmtT)
  /-- R343. Migrates the task to the core that homes an address. -/
  | go (h : Head) (f : FmtT)
  /-- R344. Writes a word into the neighbour's channel once the channel has room. -/
  | chsend (h : Head) (f : FmtA)
  /-- R344. Takes the oldest word of a channel once one is present. -/
  | chrecv (h : Head) (f : FmtA)
  /-- R345. Sets or clears the mask bit of a route class. -/
  | chmask (h : Head) (f : FmtN)
  /-- R346. Arrives at the group's barrier, then waits for the phase and writes its status. -/
  | bar (h : Head) (f : FmtT)
  /-- R346. Arrives at the group's barrier without waiting. -/
  | bara (h : Head) (f : FmtT)
  /-- R346. Waits for a phase of the group's barrier and writes its status. -/
  | barw (h : Head) (f : FmtT)
  /-- R351. Queues a box copy between tensors, converting elements. -/
  | copy (h : Head) (f : FmtC)
  /-- R352. Queues a copy that gathers pages by an index tensor. -/
  | cgath (h : Head) (f : FmtC)
  /-- R352. Queues a copy that scatters pages by an index tensor. -/
  | cscat (h : Head) (f : FmtC)
  /-- R353. Queues a reduce-copy that combines elements at the destination's home. -/
  | credc (h : Head) (f : FmtC)
  /-- R354. Queues an authenticated encryption of source bytes into open memory. -/
  | cseal (h : Head) (f : FmtC)
  /-- R355. Issues once the selected chunk-map bits are set. -/
  | cwait (h : Head) (f : FmtA)
  /-- R355. Issues once every bit of the chunk map is set. -/
  | cwaitAll (h : Head) (f : FmtA)
  /-- R355. Reads one chunk-map bit. -/
  | ctest (h : Head) (f : FmtA)
  /-- R356. Posts a child capsule template to the Plaza, with release semantics. -/
  | cpost (h : Head) (f : FmtT)
  /-- R357. Moves the writer capability of an extent to the core of a role. -/
  | handover (h : Head) (f : FmtT)
  /-- R357. Moves the writer capability to a posted child at completion. -/
  | handoverC (h : Head) (f : FmtT)
  /-- R358. Ends the task and completes the capsule. -/
  | done (h : Head) (f : FmtN)
  /-- R82. A variable-latency result is written, its pending bit clears and a parked or blocked task may become ready. -/
  | pendingResultWrite (id : Nat)
  /-- R78. A packet of class 2, or a message packet, arrives at a core and enters its arrival queue. -/
  | arrivalQueueEnter (pkt : Nat)
  /-- R79. A free slot takes the chosen arrival-queue entry, one flit per local cycle, and starts its task. -/
  | slotLoad (core slot : Nat)
  /-- R97. On receipt of a grant, the holder resends its refused packet into the reserved entry. -/
  | grantResend (pkt : Nat)
  /-- R458. A packet refused without a ticket is resent after 64 local cycles. -/
  | ticketlessResend (pkt : Nat)
  /-- R95. A departure or GO, once its results are in and its accesses drained, packs the task and sends it on class 2. -/
  | departureSend (core slot : Nat)
  /-- R93. A combining message of a message-combined barrier is counted at the core's logic. -/
  | barrierLineArrival (pkt : Nat)
  /-- R92. The phase completes at every member, rows + cols + 6 cycles after the last arrival, or through the tree. -/
  | barrierPhaseComplete (inst group : Nat)
  /-- R455. A wait that reaches BARTO.LIMIT ends with status 3 and writes a class 12 record. -/
  | barrierTimeout (core slot : Nat)
  /-- R149. A home performs an access in arrival order and replies or acknowledges. -/
  | homeAccessPerform (acc : Nat)
  /-- R165. A reply or acknowledgement reaches the LSU and completes the access. -/
  | accessReplyArrive (acc : Nat)
  /-- R172. A freed LSU place is granted to the oldest ticket, or to the next element access. -/
  | lsuPlaceGrant (core : Nat)
  /-- R143. An extent lookaside miss fills its entry from the capsule image. -/
  | lookasideFill (core member ext page : Nat)
  /-- R175. The fenced accesses complete; the acquire action is performed and the held accesses are released. -/
  | fenceComplete (core fence : Nat)
  /-- R178. The acquire load completes; the acquire action is performed and the held accesses are released. -/
  | ldaComplete (core fence : Nat)
  /-- R179. The covered earlier accesses complete, and the release store is sent. -/
  | stlRelease (acc : Nat)
  /-- R128. A weight store bank enters its refresh window in its fixed rotation. -/
  | wsRefreshStart (layer : Nat)
  /-- R155. A bank's refresh window ends, and the reads and writes waiting there are performed in arrival order. -/
  | wsRefreshEnd (layer : Nat)
  /-- R174. An engine queue entry begins once the earlier entries and the scoreboard allow. -/
  | engineEntryBegin (core queue : Nat)
  /-- R349. A chunk is written at its homes (and acknowledged for qn), and its map bit is set. -/
  | copyChunkWrite (core queue chunk : Nat)
  /-- R240. The matrix queue performs its next entry, reading operands and writing destinations. -/
  | qmEntryPerform (core : Nat)
  /-- R328. A tile step of MMAT ends, its C writes are performed and STEPq advances. -/
  | mmatStepComplete (core : Nat)
  /-- R325. At the source, once the range is full, the fetch is read, and multicast if several are waiting. -/
  | mmarFetchServe (core : Nat)
  /-- R325. The fetched operand arrives, is written to the tiles and is multiplied. -/
  | mmarDataArrive (core : Nat)
  /-- R457. A fetch not returned after BARTO.LIMIT is abandoned with a class 13 record. -/
  | mmarPairLost (core : Nat)
  /-- R431. A page-vector store that clears PRESENT invalidates lookasides, drains, bumps VERSION, tags the page and writes the entry. -/
  | pageEviction (acc : Nat)
  /-- R432. A page-vector store that sets PRESENT checks the page tag, then writes the entry and retries waiting entries. -/
  | pageReturn (acc : Nat)
  /-- R401. The supervisor core writes the fault record, advances FREC and enters the fault message. -/
  | faultPacketHandle (pkt : Nat)
  /-- R404. A resume packet releases the held task by RETRY, SKIP, JUMP, END or ENDCAP. -/
  | resumePacketApply (pkt : Nat)
  /-- R203. The hardware walker serves one capsule from the highest priority that has work. -/
  | walkerServe
  /-- R206. The Plaza copies the capsule, checks it and its seal, and assigns an instance and an owner lane. -/
  | capsuleTake
  /-- R206. The read code image is hashed, compared with CODEID and cached. -/
  | codeImageVerify (inst : Nat)
  /-- R211. A dispatcher reserves the cores of its share and reports ready. -/
  | gangReserve (inst chiplet : Nat) (cores : List Nat)
  /-- R211. When all dispatchers are ready, all reservations commit and the tables, registers and acquire are set. -/
  | gangCommit (inst : Nat)
  /-- R227. The requested operating point is reached and the held commit proceeds. -/
  | operatingPointReached (inst : Nat)
  /-- R215. After the posting core drains, the Plaza checks the template, seals it and queues the child. -/
  | childQueue (post : Nat)
  /-- R357. After the old holder's writes complete, the writer capability reaches the new core, which acquires. -/
  | capabilityArrive (move : Nat)
  /-- R218. The first DONE to reach the Plaza stops tasks, counts discards, restores parked cores and drains. -/
  | capsuleComplete (inst : Nat)
  /-- R218. After the drain, capabilities move, one record per member is written and the resources are freed. -/
  | completionRecordWrite (inst : Nat)
  /-- R368. After the records are written, an MSI-X message is sent on the queue's vector. -/
  | msixSend (queue : Nat)
  /-- R224. The Plaza evicts a core: it stops issue, cancels waits and stops engines. -/
  | coreEvict (inst : Nat) (roles : List Nat)
  /-- R473. Once the results and own-scratchpad accesses are in, the encrypted image is written and the bay updated. -/
  | imageWrite (core : Nat)
  /-- R223. A packet for a parked core is written to its spill area, or held at the sender when the area is full. -/
  | parkedPacketDivert (pkt : Nat)
  /-- R225. Lysgeza checks the digest and tag, and the image is loaded onto a free core with its packets delivered. -/
  | imageRestore (inst role core : Nat)
  /-- R447. A capability fault in the Plaza firmware is handled by what it was doing. -/
  | capabilityFault (what subject : Nat)
  /-- R448. The Plaza firmware reloads and restarts, keeping its persistent state. -/
  | firmwareRestart
  /-- R448. The Lysgeza watchdog restarts the firmware when work waits 10 ms untaken. -/
  | watchdogExpire
  /-- R202. A post word written to a queue's submission register is latched if its number is higher, and may wake the package. -/
  | submit (rid queue size word : Nat)
  /-- R363. Setting EN resets the latch and CONSUMED and inserts the queue's QSB. -/
  | qcfgEnable (queue value : Nat)
  /-- R363. Clearing EN removes the queue's QSB. -/
  | qcfgDisable (queue : Nat)
  /-- R365. Setting WCTL.EN checks the window's range, token and lanes, then enables it or sets REFUSED. -/
  | windowEnable (window : Nat)
  /-- R366. Clearing WCTL.EN disables the window and may free its owner lane. -/
  | windowDisable (window : Nat)
  /-- R381. Writing 1 to a LOCK bit takes the domain's digest and freezes the domain. -/
  | lockSet (bits : Nat)
  /-- R464. The background walker hashes a locked domain and, on mismatch, puts it into ERROR. -/
  | lockWalkerCheck (domain : Nat)
  /-- R371. Setting ONZCTL.EN with a valid ONZID trains the enabled ports. -/
  | onazalEnable (value : Nat)
  /-- R371. Setting a PORTS bit while EN is 1 trains that port. -/
  | onazalPortEnable (value : Nat)
  /-- R374. Commands the RUN power state. -/
  | pwrctlRun
  /-- R374. Commands IDLE, entered once no capsule runs. -/
  | pwrctlIdle
  /-- R374. Commands GATED, entered once no capsule runs or is parked. -/
  | pwrctlGated
  /-- R374. A commanded IDLE or GATED is entered once its condition holds; GATED clears the weight store. -/
  | powerStateEnter
  /-- R377. Mailbox request code 1 returns signed evidence for a nonce. -/
  | mailboxEvidence
  /-- R378. Mailbox request code 2 verifies the owner and returns its wrapped key. -/
  | mailboxOwnerKey
  /-- R442. Kills the capsule of the given instance and writes records with STATUS 0x0006. -/
  | killctlGo (inst : Nat)
  /-- R6. A host write to a device register without behaviour of its own stores the writable fields. -/
  | registerWrite (offset value : Nat)
  /-- R375. From reset, Lysgeza checks the blob, derives the keys, loads the maps and firmware, trains the links and sets READY. -/
  | bringUp
  /-- R364. The I/O die gives an inbound posted write its sequence number and splits it into line pieces. -/
  | inboundWrite (rid space addr : Nat) (data : List (BitVec 8))
  /-- R364. A piece is sent to its home once the earlier pieces to other homes are acknowledged. -/
  | inboundPieceSend (seq piece : Nat)
  /-- R364. An inbound read is sent once the requester's earlier writes are acknowledged. -/
  | inboundRead (rid space addr len : Nat)
  /-- R369. A request from another package arrives over Onazal and takes an owner lane for its owner. -/
  | remoteRequestArrive (header addr size : Nat) (store : List (BitVec 8))
  /-- R410. A flit that fails its CRC is replayed with every later flit. -/
  | linkCrcReplay (link flit : Nat)
  /-- R410. After 8 failed replays the link retrains; a failure to retrain faults the capsules on it. -/
  | linkRetrain (link lanes : Nat) (insts : List Nat)
  /-- R409. The scrubber reads and rewrites a line and logs or handles any error. -/
  | scrubPass (level addr error : Nat)
  /-- R438. A failed self-check drops a crossing cache or makes a home fault every access. -/
  | selfCheckFail (unit index : Nat)
  /-- R99. An instruction store miss is filled from the code image in the cluster slice. A line or segment with a parity error is refetched or reloaded. -/
  | instructionStoreFill (core block : Nat)
  /-- R413. A word with an unassigned opcode, LEN 0b11, a wrong length or a block crossing reaches issue and raises a class 3 fault whatever its guard. -/
  | encodingFault (detail aux : Nat)
  /-- R417. Sequential flow that reaches CODELEN raises class 5 with DETAIL 3 and holds the task. -/
  | sequentialFlowPastCodelen
  /-- R228. The wake sequence started by a post word to a gated package ends once the Plaza state is restored, and the walker starts serving from the latch. -/
  | wakeSequenceComplete
  /-- R371. An Onazal port finishes training and reads as trained and up in ONZSTAT, which makes it eligible for port choice. -/
  | onazalPortTrained (port lanes : Nat)
  deriving DecidableEq, Repr

end Sys2Proof
end

