-- ==== Sys2Proof/WellFormed.lean ====
section
/-! DEFINITION. Well-formedness of an instruction: what the decoder checks beyond the opcode and the length. `Instr.unused`
lists the fields an instruction leaves unused (R235, R244) and `Instr.reserved` the values R235 to R237 mark reserved, each
with the number of the field's lowest bit, in ascending order, which AUX of a class 3 fault carries (R413). -/

namespace Sys2Proof

/-- Item `i` of a tracker list, nine bits (R237). -/
def listItem (l : BitVec 39) (i : Nat) : Nat := (l.toNat >>> (3 + 9 * i)) % 512

/-- The number of items of a tracker list, NL (R237). -/
def listCount (l : BitVec 39) : Nat := l.toNat % 8

/-- The items of a list at or beyond NL, which hold zero (R237), with `base` the list's lowest bit. -/
def listUnused (base : Nat) (l : BitVec 39) : List (Nat × Nat) :=
  (List.range 4).map fun i => (base + 3 + 9 * i, if listCount l ≤ i then listItem l i else 0)

/-- The reserved values of a list: NL 5 to 7, and a tracker item with bits [7:4] nonzero (R237). -/
def listReserved (base : Nat) (l : BitVec 39) : List (Nat × Bool) :=
  (base, decide (4 < listCount l)) ::
    (List.range 4).map fun i =>
      (base + 3 + 9 * i, decide (i < listCount l ∧ listItem l i < 256 ∧ listItem l i / 16 % 16 ≠ 0))

/-- A type code 13 to 15 is reserved (R236). -/
def typeReserved (t : BitVec 4) : Bool := decide (12 < t.toNat)

/-- A scope code 9 to 15 is reserved (R10). -/
def scopeReserved (sc : BitVec 4) : Bool := decide (8 < sc.toNat)

/-- The unused fields of an instruction: the field's lowest bit and the value it holds (R235, R244, R413 DETAIL 5). A field that a page
writes as "= 0" and that nothing uses counts as unused, not as a field with a reserved value: PREF SZ (R278), VPERM FN (R308), VSEL
FN[7:3] (R300) (DESIGN CHOICE, log 113). VSA and VSB of an MMAT with neither tensor scaled are not among them: they are ignored (R317,
R327; DESIGN CHOICE, log 114). -/
def Instr.unused : Instr → List (Nat × Nat)
  | .nop64 _ f => [(15, f.imm.toNat)]
  | .nop96 _ f => [(15, f.imm.toNat)]
  | .nop128 _ f => [(15, f.imm.toNat)]
  | .exit _ f => [(15, f.imm.toNat)]
  | .bra _ f => [(15, f.d.toNat), (19, f.dw.toNat), (21, f.fn.toNat)]
  | .brx _ f => [(15, f.d.toNat), (19, f.dw.toNat), (25, f.aw.toNat), (27, f.b.toNat), (31, f.bw.toNat), (33, f.c.toNat), (37, f.cw.toNat), (39, f.p.toNat), (42, f.fn.toNat)]
  | .call _ f => [(19, f.dw.toNat), (21, f.fn.toNat)]
  | .ret _ f => [(15, f.d.toNat), (19, f.dw.toNat), (25, f.aw.toNat), (27, f.b.toNat), (31, f.bw.toNat), (33, f.c.toNat), (37, f.cw.toNat), (39, f.p.toNat), (42, f.fn.toNat)]
  | .loop _ f => [(19, f.dw.toNat), (21, f.fn.toNat)]
  | .trap _ _ => []
  | .bkpt _ _ => []
  | .mfs _ _ => []
  | .mts _ f => [(19, f.dw.toNat)]
  | .li _ f => [(19, f.dw.toNat), (21, f.a.toNat), (25, f.aw.toNat), (27, f.fn.toNat), (31, f.p.toNat)]
  | .liw _ f => [(19, f.dw.toNat)]
  | .lea _ f => [(19, f.dw.toNat), (25, if f.x = 0 then f.b.toNat else 0), (32, f.sc.toNat), (36, f.fn.toNat), (40, if f.x = 1 then f.off.toNat else 0)]
  | .mov _ f => [(27, f.b.toNat), (31, f.bw.toNat), (33, f.c.toNat), (37, f.cw.toNat), (39, f.p.toNat), (42, f.fn.toNat)]
  | .add _ f => [(19, f.dw.toNat), (25, f.aw.toNat), (31, f.bw.toNat), (33, f.c.toNat), (37, f.cw.toNat), (39, f.p.toNat), (42, f.fn.toNat)]
  | .addi _ f => [(19, f.dw.toNat), (25, f.aw.toNat), (27, f.fn.toNat), (31, f.p.toNat)]
  | .sub _ f => [(19, f.dw.toNat), (25, f.aw.toNat), (31, f.bw.toNat), (33, f.c.toNat), (37, f.cw.toNat), (39, f.p.toNat), (42, f.fn.toNat)]
  | .neg _ f => [(19, f.dw.toNat), (25, f.aw.toNat), (27, f.b.toNat), (31, f.bw.toNat), (33, f.c.toNat), (37, f.cw.toNat), (39, f.p.toNat), (42, f.fn.toNat)]
  | .mul _ f => [(19, f.dw.toNat), (25, f.aw.toNat), (31, f.bw.toNat), (33, f.c.toNat), (37, f.cw.toNat), (39, f.p.toNat), (42, f.fn.toNat)]
  | .muli _ f => [(19, f.dw.toNat), (25, f.aw.toNat), (27, f.fn.toNat), (31, f.p.toNat)]
  | .mulh _ f => [(19, f.dw.toNat), (25, f.aw.toNat), (31, f.bw.toNat), (33, f.c.toNat), (37, f.cw.toNat), (39, f.p.toNat), (42, f.fn.toNat / 2)]
  | .div _ f => [(19, f.dw.toNat), (25, f.aw.toNat), (31, f.bw.toNat), (33, f.c.toNat), (37, f.cw.toNat), (39, f.p.toNat), (42, f.fn.toNat / 2)]
  | .rem _ f => [(19, f.dw.toNat), (25, f.aw.toNat), (31, f.bw.toNat), (33, f.c.toNat), (37, f.cw.toNat), (39, f.p.toNat), (42, f.fn.toNat / 2)]
  | .and _ f => [(19, f.dw.toNat), (25, f.aw.toNat), (31, f.bw.toNat), (33, f.c.toNat), (37, f.cw.toNat), (39, f.p.toNat), (42, f.fn.toNat)]
  | .andi _ f => [(19, f.dw.toNat), (25, f.aw.toNat), (27, f.fn.toNat), (31, f.p.toNat)]
  | .or _ f => [(19, f.dw.toNat), (25, f.aw.toNat), (31, f.bw.toNat), (33, f.c.toNat), (37, f.cw.toNat), (39, f.p.toNat), (42, f.fn.toNat)]
  | .ori _ f => [(19, f.dw.toNat), (25, f.aw.toNat), (27, f.fn.toNat), (31, f.p.toNat)]
  | .xor _ f => [(19, f.dw.toNat), (25, f.aw.toNat), (31, f.bw.toNat), (33, f.c.toNat), (37, f.cw.toNat), (39, f.p.toNat), (42, f.fn.toNat)]
  | .xori _ f => [(19, f.dw.toNat), (25, f.aw.toNat), (27, f.fn.toNat), (31, f.p.toNat)]
  | .andn _ f => [(19, f.dw.toNat), (25, f.aw.toNat), (31, f.bw.toNat), (33, f.c.toNat), (37, f.cw.toNat), (39, f.p.toNat), (42, f.fn.toNat)]
  | .not _ f => [(19, f.dw.toNat), (25, f.aw.toNat), (27, f.b.toNat), (31, f.bw.toNat), (33, f.c.toNat), (37, f.cw.toNat), (39, f.p.toNat), (42, f.fn.toNat)]
  | .shl _ f => [(19, f.dw.toNat), (25, f.aw.toNat), (31, f.bw.toNat), (33, f.c.toNat), (37, f.cw.toNat), (39, f.p.toNat), (42, f.fn.toNat)]
  | .shli _ f => [(19, f.dw.toNat), (25, f.aw.toNat), (27, f.fn.toNat), (31, f.p.toNat), (34, f.imm.toNat / 64)]
  | .shr _ f => [(19, f.dw.toNat), (25, f.aw.toNat), (31, f.bw.toNat), (33, f.c.toNat), (37, f.cw.toNat), (39, f.p.toNat), (42, f.fn.toNat)]
  | .shri _ f => [(19, f.dw.toNat), (25, f.aw.toNat), (27, f.fn.toNat), (31, f.p.toNat), (34, f.imm.toNat / 64)]
  | .sar _ f => [(19, f.dw.toNat), (25, f.aw.toNat), (31, f.bw.toNat), (33, f.c.toNat), (37, f.cw.toNat), (39, f.p.toNat), (42, f.fn.toNat)]
  | .sari _ f => [(19, f.dw.toNat), (25, f.aw.toNat), (27, f.fn.toNat), (31, f.p.toNat), (34, f.imm.toNat / 64)]
  | .rol _ f => [(19, f.dw.toNat), (25, f.aw.toNat), (31, f.bw.toNat), (33, f.c.toNat), (37, f.cw.toNat), (39, f.p.toNat), (42, f.fn.toNat)]
  | .roli _ f => [(19, f.dw.toNat), (25, f.aw.toNat), (27, f.fn.toNat), (31, f.p.toNat), (34, f.imm.toNat / 64)]
  | .min _ f => [(19, f.dw.toNat), (25, f.aw.toNat), (31, f.bw.toNat), (33, f.c.toNat), (37, f.cw.toNat), (39, f.p.toNat), (42, f.fn.toNat / 2)]
  | .max _ f => [(19, f.dw.toNat), (25, f.aw.toNat), (31, f.bw.toNat), (33, f.c.toNat), (37, f.cw.toNat), (39, f.p.toNat), (42, f.fn.toNat / 2)]
  | .abs _ f => [(19, f.dw.toNat), (25, f.aw.toNat), (27, f.b.toNat), (31, f.bw.toNat), (33, f.c.toNat), (37, f.cw.toNat), (39, f.p.toNat), (42, f.fn.toNat)]
  | .clz _ f => [(19, f.dw.toNat), (25, f.aw.toNat), (27, f.b.toNat), (31, f.bw.toNat), (33, f.c.toNat), (37, f.cw.toNat), (39, f.p.toNat), (42, f.fn.toNat)]
  | .ctz _ f => [(19, f.dw.toNat), (25, f.aw.toNat), (27, f.b.toNat), (31, f.bw.toNat), (33, f.c.toNat), (37, f.cw.toNat), (39, f.p.toNat), (42, f.fn.toNat)]
  | .popc _ f => [(19, f.dw.toNat), (25, f.aw.toNat), (27, f.b.toNat), (31, f.bw.toNat), (33, f.c.toNat), (37, f.cw.toNat), (39, f.p.toNat), (42, f.fn.toNat)]
  | .brev _ f => [(19, f.dw.toNat), (25, f.aw.toNat), (27, f.b.toNat), (31, f.bw.toNat), (33, f.c.toNat), (37, f.cw.toNat), (39, f.p.toNat), (42, f.fn.toNat)]
  | .bswp _ f => [(19, f.dw.toNat), (25, f.aw.toNat), (27, f.b.toNat), (31, f.bw.toNat), (33, f.c.toNat), (37, f.cw.toNat), (39, f.p.toNat), (42, f.fn.toNat)]
  | .bfx _ f => [(19, f.dw.toNat), (25, f.aw.toNat), (27, f.fn.toNat), (31, f.p.toNat), (34, f.imm.toNat / 8192)]
  | .bfxs _ f => [(19, f.dw.toNat), (25, f.aw.toNat), (27, f.fn.toNat), (31, f.p.toNat), (34, f.imm.toNat / 8192)]
  | .bfi _ f => [(19, f.dw.toNat), (25, f.aw.toNat), (27, f.fn.toNat), (31, f.p.toNat), (34, f.imm.toNat / 8192)]
  | .sext _ f => [(19, f.dw.toNat), (25, f.aw.toNat), (27, f.fn.toNat), (31, f.p.toNat), (34, f.imm.toNat / 64)]
  | .sel _ f => [(19, f.dw.toNat), (25, f.aw.toNat), (31, f.bw.toNat), (33, f.c.toNat), (37, f.cw.toNat), (42, f.fn.toNat)]
  | .cmp _ f => [(15, f.d.toNat), (19, f.dw.toNat), (25, f.aw.toNat), (31, f.bw.toNat), (33, f.c.toNat), (37, f.cw.toNat), (42, f.fn.toNat / 16)]
  | .cmpi _ f => [(15, f.d.toNat), (19, f.dw.toNat), (25, f.aw.toNat)]
  | .pset _ _ => []
  | .lmw _ f => [(19, f.dw.toNat), (25, f.aw.toNat), (27, f.b.toNat), (31, f.bw.toNat), (33, f.c.toNat), (37, f.cw.toNat), (39, f.p.toNat), (42, f.fn.toNat)]
  | .lmr _ f => [(19, f.dw.toNat), (25, f.aw.toNat), (27, f.b.toNat), (31, f.bw.toNat), (33, f.c.toNat), (37, f.cw.toNat), (39, f.p.toNat), (42, f.fn.toNat)]
  | .ld _ f => [(25, if f.x = 0 then f.b.toNat else 0), (32, f.sc.toNat), (36, f.fn.toNat / 2), (40, if f.x = 1 then f.off.toNat else 0)]
  | .st _ f => [(25, if f.x = 0 then f.b.toNat else 0), (32, f.sc.toNat), (36, f.fn.toNat), (40, if f.x = 1 then f.off.toNat else 0)]
  | .lda _ f => [(25, if f.x = 0 then f.b.toNat else 0), (36, f.fn.toNat), (40, if f.x = 1 then f.off.toNat else 0)] ++ listUnused 64 f.list
  | .stl _ f => [(25, if f.x = 0 then f.b.toNat else 0), (36, f.fn.toNat), (40, if f.x = 1 then f.off.toNat else 0)] ++ listUnused 64 f.list
  | .ldf _ f => [(25, if f.x = 0 then f.b.toNat else 0), (32, f.sc.toNat), (36, f.fn.toNat), (40, if f.x = 1 then f.off.toNat else 0)]
  | .ldfe _ f => [(25, if f.x = 0 then f.b.toNat else 0), (32, f.sc.toNat), (36, f.fn.toNat), (40, if f.x = 1 then f.off.toNat else 0)]
  | .ste _ f => [(25, if f.x = 0 then f.b.toNat else 0), (32, f.sc.toNat), (36, f.fn.toNat), (40, if f.x = 1 then f.off.toNat else 0)]
  | .stf _ f => [(25, if f.x = 0 then f.b.toNat else 0), (32, f.sc.toNat), (36, f.fn.toNat), (40, if f.x = 1 then f.off.toNat else 0)]
  | .feset _ f => [(15, f.d.toNat), (25, if f.x = 0 then f.b.toNat else 0), (32, f.sc.toNat), (36, f.fn.toNat), (40, if f.x = 1 then f.off.toNat else 0)]
  | .feclr _ f => [(15, f.d.toNat), (25, if f.x = 0 then f.b.toNat else 0), (32, f.sc.toNat), (36, f.fn.toNat), (40, if f.x = 1 then f.off.toNat else 0)]
  | .fetst _ f => [(25, if f.x = 0 then f.b.toNat else 0), (32, f.sc.toNat), (36, f.fn.toNat), (40, if f.x = 1 then f.off.toNat else 0)]
  | .pref _ f => [(15, f.d.toNat), (19, f.dw.toNat), (25, if f.x = 0 then f.b.toNat else 0), (30, f.sz.toNat), (32, f.sc.toNat), (40, if f.x = 1 then f.off.toNat else 0)]
  | .put _ f => [(25, f.aw.toNat), (36, if f.rx = 0 then f.b.toNat else 0), (40, if f.rx = 1 then f.ri.toNat else 0), (59, f.fn.toNat)]
  | .amo _ f => [(32, f.sc.toNat)]
  | .cas _ f => [(32, f.sc.toNat), (36, f.fn.toNat)]
  | .red _ f => [(25, f.b.toNat), (32, f.sc.toNat)]
  | .amof _ f => [(32, f.sc.toNat)]
  | .redf _ f => [(25, f.b.toNat), (32, f.sc.toNat)]
  | .fence _ f => [] ++ listUnused 35 f.list
  | .track _ f => [(19, f.dw.toNat), (25, f.aw.toNat), (31, f.bw.toNat), (33, f.c.toNat), (37, f.cw.toNat), (39, f.p.toNat), (42, f.fn.toNat)]
  | .trackt _ f => [(19, f.dw.toNat), (21, f.a.toNat), (25, f.aw.toNat), (27, f.b.toNat), (31, f.bw.toNat), (33, f.c.toNat), (37, f.cw.toNat), (39, f.p.toNat)]
  | .untrack _ f => [(19, f.dw.toNat), (21, f.a.toNat), (25, f.aw.toNat), (27, f.b.toNat), (31, f.bw.toNat), (33, f.c.toNat), (37, f.cw.toNat), (39, f.p.toNat), (42, f.fn.toNat)]
  | .qfence _ f => [(15, f.imm.toNat / 16)]
  | .vld _ f => [(28, if f.x = 0 then f.b.toNat else 0), (36, f.t.toNat), (40, f.vi.toNat), (47, f.fn.toNat), (64, if f.x = 1 then f.off.toNat else 0)]
  | .vst _ f => [(28, if f.x = 0 then f.b.toNat else 0), (36, f.t.toNat), (40, f.vi.toNat), (47, f.fn.toNat), (64, if f.x = 1 then f.off.toNat else 0)]
  | .vlds _ f => [(40, f.vi.toNat), (47, f.fn.toNat)]
  | .vsts _ f => [(40, f.vi.toNat), (47, f.fn.toNat)]
  | .vgath _ f => [(28, f.b.toNat), (47, f.fn.toNat / 4)]
  | .vscat _ f => [(28, f.b.toNat), (47, f.fn.toNat / 4)]
  | .vmov _ f => [(33, f.vb.toNat), (40, f.vbw.toNat), (45, f.t.toNat), (49, f.rm.toNat), (52, f.sat.toNat), (53, f.fn.toNat)]
  | .vbcast _ f => [(24, f.va.toNat), (31, f.vaw.toNat), (33, f.vb.toNat), (40, f.vbw.toNat), (49, f.rm.toNat), (52, f.sat.toNat), (53, f.fn.toNat), (70, f.t2.toNat), (74, f.cls.toNat), (78, f.rk.toNat), (86, f.imm.toNat)]
  | .vext _ f => [(15, f.vd.toNat), (22, f.vdw.toNat), (33, f.vb.toNat), (40, f.vbw.toNat), (49, f.rm.toNat), (52, f.sat.toNat), (53, f.fn.toNat), (70, f.t2.toNat), (74, f.cls.toNat), (78, f.rk.toNat)]
  | .vins _ f => [(24, f.va.toNat), (31, f.vaw.toNat), (33, f.vb.toNat), (40, f.vbw.toNat), (49, f.rm.toNat), (52, f.sat.toNat), (53, f.fn.toNat), (70, f.t2.toNat), (74, f.cls.toNat), (78, f.rk.toNat)]
  | .viota _ f => [(24, f.va.toNat), (31, f.vaw.toNat), (33, f.vb.toNat), (40, f.vbw.toNat), (49, f.rm.toNat), (52, f.sat.toNat), (53, f.fn.toNat)]
  | .vadd _ f => [(53, f.fn.toNat)]
  | .vsub _ f => [(53, f.fn.toNat)]
  | .vmul _ f => [(53, f.fn.toNat)]
  | .vfma _ f => [(53, f.fn.toNat)]
  | .vfms _ f => [(53, f.fn.toNat)]
  | .vfnma _ f => [(53, f.fn.toNat)]
  | .vmin _ f => [(53, f.fn.toNat)]
  | .vmax _ f => [(53, f.fn.toNat)]
  | .vabs _ f => [(33, f.vb.toNat), (40, f.vbw.toNat), (53, f.fn.toNat)]
  | .vneg _ f => [(33, f.vb.toNat), (40, f.vbw.toNat), (53, f.fn.toNat)]
  | .vand _ f => [(53, f.fn.toNat)]
  | .vor _ f => [(53, f.fn.toNat)]
  | .vxor _ f => [(53, f.fn.toNat)]
  | .vshl _ f => [(53, f.fn.toNat)]
  | .vshr _ f => [(53, f.fn.toNat)]
  | .vsar _ f => [(53, f.fn.toNat)]
  | .vcmp _ f => [(53, f.fn.toNat / 8)]
  | .vsel _ f => [(45, f.t.toNat), (53, f.fn.toNat / 8)]
  | .vrcp _ f => [(33, f.vb.toNat), (40, f.vbw.toNat), (53, f.fn.toNat)]
  | .vrsq _ f => [(33, f.vb.toNat), (40, f.vbw.toNat), (53, f.fn.toNat)]
  | .vexp2 _ f => [(33, f.vb.toNat), (40, f.vbw.toNat), (53, f.fn.toNat)]
  | .vlog2 _ f => [(33, f.vb.toNat), (40, f.vbw.toNat), (53, f.fn.toNat)]
  | .vcvt _ f => [(33, f.vb.toNat), (40, f.vbw.toNat), (53, f.fn.toNat), (64, if (f.t.toNat < 9 ∧ f.t2.toNat < 9) then f.g.toNat else 0), (68, if (f.t.toNat < 9 ∧ f.t2.toNat < 9) then f.gw.toNat else 0), (74, f.cls.toNat), (78, f.rk.toNat), (86, f.imm.toNat)]
  | .vqnt _ f => [(33, f.vb.toNat), (40, f.vbw.toNat), (53, f.fn.toNat / 2), (74, f.cls.toNat), (78, f.rk.toNat), (86, f.imm.toNat)]
  | .vdeq _ f => [(33, f.vb.toNat), (40, f.vbw.toNat), (53, f.fn.toNat), (74, f.cls.toNat), (78, f.rk.toNat), (86, f.imm.toNat)]
  | .vred _ f => [(15, f.vd.toNat), (22, f.vdw.toNat), (33, f.vb.toNat), (40, f.vbw.toNat), (53, f.fn.toNat / 8), (70, f.t2.toNat), (74, f.cls.toNat), (78, f.rk.toNat), (86, f.imm.toNat)]
  | .vscan _ f => [(33, f.vb.toNat), (40, f.vbw.toNat), (53, f.fn.toNat / 8)]
  | .vperm _ f => [(53, f.fn.toNat)]
  | .vshuf _ f => [(33, if f.fn.toNat % 8 < 2 then f.vb.toNat else 0), (40, if f.fn.toNat % 8 < 2 then f.vbw.toNat else 0), (53, f.fn.toNat / 8), (64, f.g.toNat), (68, f.gw.toNat), (70, f.t2.toNat), (74, f.cls.toNat), (78, f.rk.toNat)]
  | .vdot _ f => [(53, f.fn.toNat)]
  | .vmaci _ f => [(33, f.vb.toNat), (40, f.vbw.toNat), (53, f.fn.toNat), (74, f.cls.toNat), (78, f.rk.toNat), (86, f.imm.toNat)]
  | .mzero _ f => [(19, f.ma.toNat), (24, f.mb.toNat), (29, f.ta.toNat), (33, f.tb.toNat), (37, f.vsa.toNat), (44, f.vsb.toNat), (51, f.g.toNat), (55, f.gw.toNat), (57, f.tn.toNat), (65, f.tn2.toNat), (73, f.tn3.toNat), (81, f.rm.toNat), (84, f.sat.toNat), (85, f.fn.toNat)]
  | .mld _ f => [(15, f.ad.toNat), (24, f.mb.toNat), (29, f.ta.toNat), (33, f.tb.toNat), (37, f.vsa.toNat), (44, f.vsb.toNat), (65, f.tn2.toNat), (73, f.tn3.toNat), (81, f.rm.toNat), (84, f.sat.toNat), (85, f.fn.toNat / 2)]
  | .mldSc _ f => [(15, f.ad.toNat), (19, f.ma.toNat), (24, f.mb.toNat), (29, f.ta.toNat), (33, f.tb.toNat), (44, f.vsb.toNat), (65, f.tn2.toNat), (73, f.tn3.toNat), (81, f.rm.toNat), (84, f.sat.toNat), (85, f.fn.toNat / 2)]
  | .mst _ f => [(19, f.ma.toNat), (24, f.mb.toNat), (29, f.ta.toNat), (33, f.tb.toNat), (37, f.vsa.toNat), (44, f.vsb.toNat), (65, f.tn2.toNat), (73, f.tn3.toNat), (85, f.fn.toNat / 4)]
  | .mma _ f => [(37, f.vsa.toNat), (44, f.vsb.toNat), (51, f.g.toNat), (55, f.gw.toNat), (57, f.tn.toNat), (65, f.tn2.toNat), (73, f.tn3.toNat), (81, f.rm.toNat), (84, f.sat.toNat), (85, f.fn.toNat)]
  | .mmas _ f => [(51, f.g.toNat), (55, f.gw.toNat), (57, f.tn.toNat), (65, f.tn2.toNat), (73, f.tn3.toNat), (81, f.rm.toNat), (84, f.sat.toNat), (85, f.fn.toNat)]
  | .mmar _ f => [(37, if f.fn.getLsbD 0 = false then f.vsa.toNat else 0), (44, if f.fn.getLsbD 0 = false then f.vsb.toNat else 0), (57, f.tn.toNat), (65, f.tn2.toNat), (73, f.tn3.toNat), (81, f.rm.toNat), (84, f.sat.toNat), (85, f.fn.toNat / 2)]
  | .mmat _ f => [(29, f.ta.toNat), (33, f.tb.toNat), (85, f.fn.toNat / 2)]
  | .macc _ f => [(19, f.ma.toNat / 16), (24, f.mb.toNat), (33, f.tb.toNat), (37, f.vsa.toNat), (44, f.vsb.toNat), (51, f.g.toNat), (55, f.gw.toNat), (57, f.tn.toNat), (65, f.tn2.toNat), (73, f.tn3.toNat), (85, f.fn.toNat)]
  | .mtrn _ f => [(15, f.ad.toNat), (33, f.tb.toNat), (37, f.vsa.toNat), (44, f.vsb.toNat), (51, f.g.toNat), (55, f.gw.toNat), (57, f.tn.toNat), (65, f.tn2.toNat), (73, f.tn3.toNat), (81, f.rm.toNat), (84, f.sat.toNat), (85, f.fn.toNat)]
  | .mcode _ f => [(15, f.ad.toNat), (19, f.ma.toNat), (24, f.mb.toNat), (29, f.ta.toNat), (33, f.tb.toNat), (44, f.vsb.toNat), (51, f.g.toNat), (55, f.gw.toNat), (57, f.tn.toNat), (65, f.tn2.toNat), (73, f.tn3.toNat), (81, f.rm.toNat), (84, f.sat.toNat), (85, f.fn.toNat / 4)]
  | .tdef _ f => [(15, f.ad.toNat), (19, f.ma.toNat), (24, f.mb.toNat), (29, f.ta.toNat), (33, f.tb.toNat), (44, f.vsb.toNat), (51, f.g.toNat), (55, f.gw.toNat), (65, f.tn2.toNat), (73, f.tn3.toNat), (81, f.rm.toNat), (84, f.sat.toNat), (85, f.fn.toNat)]
  | .tqry _ f => [(15, f.ad.toNat), (19, f.ma.toNat), (24, f.mb.toNat), (29, f.ta.toNat), (33, f.tb.toNat), (44, f.vsb.toNat), (51, f.g.toNat), (55, f.gw.toNat), (65, f.tn2.toNat), (73, f.tn3.toNat), (81, f.rm.toNat), (84, f.sat.toNat), (85, f.fn.toNat)]
  | .spsend _ f => [(15, f.vd.toNat), (22, f.vdw.toNat), (33, f.vb.toNat), (40, f.vbw.toNat), (49, f.rm.toNat), (52, f.sat.toNat), (53, f.fn.toNat), (70, f.t2.toNat), (86, f.imm.toNat)]
  | .spawn _ f => [(21, if f.fn.getLsbD 0 = false then f.a.toNat else 0), (25, f.aw.toNat), (27, f.rk.toNat), (35, f.rx.toNat), (36, f.b.toNat), (40, f.ri.toNat), (55, f.cls.toNat), (59, f.fn.toNat / 2)]
  | .spawnp _ f => [(21, if f.fn.getLsbD 0 = false then f.a.toNat else 0), (25, f.aw.toNat), (35, f.rx.toNat), (36, f.b.toNat), (40, f.ri.toNat), (55, f.cls.toNat), (59, f.fn.toNat / 2)]
  | .send _ f => [(21, f.a.toNat), (25, f.aw.toNat), (36, if f.rx = 0 then f.b.toNat else 0), (40, if f.rx = 1 then f.ri.toNat else 0), (59, f.fn.toNat)]
  | .sendResume _ f => [(21, f.a.toNat), (25, f.aw.toNat), (36, if f.rx = 0 then f.b.toNat else 0), (40, if f.rx = 1 then f.ri.toNat else 0), (59, f.fn.toNat)]
  | .join _ f => [(25, f.aw.toNat), (27, f.rk.toNat), (35, f.rx.toNat), (36, f.b.toNat), (40, f.ri.toNat), (55, f.cls.toNat), (59, f.fn.toNat / 2)]
  | .joinRet _ f => [(19, f.dw.toNat), (21, f.a.toNat), (25, f.aw.toNat), (27, f.rk.toNat), (35, f.rx.toNat), (36, f.b.toNat), (40, f.ri.toNat), (55, f.cls.toNat), (59, f.fn.toNat / 2)]
  | .go _ f => [(15, f.d.toNat), (19, f.dw.toNat), (25, f.aw.toNat), (27, f.rk.toNat), (35, f.rx.toNat), (36, f.b.toNat), (40, f.ri.toNat), (55, f.cls.toNat), (59, f.fn.toNat)]
  | .chsend _ f => [(19, f.dw.toNat), (21, f.a.toNat), (25, f.aw.toNat), (27, f.b.toNat), (31, f.bw.toNat), (33, f.c.toNat), (37, f.cw.toNat), (39, f.p.toNat), (42, f.fn.toNat / 4)]
  | .chrecv _ f => [(19, f.dw.toNat), (21, f.a.toNat), (25, f.aw.toNat), (27, f.b.toNat), (31, f.bw.toNat), (33, f.c.toNat), (37, f.cw.toNat), (39, f.p.toNat), (42, f.fn.toNat / 4)]
  | .chmask _ f => [(15, f.imm.toNat / 32)]
  | .bar _ f => [(19, f.dw.toNat), (21, f.a.toNat), (25, f.aw.toNat), (35, f.rx.toNat), (36, f.b.toNat), (40, f.ri.toNat), (55, f.cls.toNat), (59, f.fn.toNat)]
  | .bara _ f => [(15, f.d.toNat), (19, f.dw.toNat), (21, f.a.toNat), (25, f.aw.toNat), (35, f.rx.toNat), (36, f.b.toNat), (40, f.ri.toNat), (55, f.cls.toNat), (59, f.fn.toNat)]
  | .barw _ f => [(19, f.dw.toNat), (21, f.a.toNat), (25, f.aw.toNat), (35, f.rx.toNat), (36, f.b.toNat), (40, f.ri.toNat), (55, f.cls.toNat), (59, f.fn.toNat)]
  | .copy _ f => [(59, f.fn.toNat), (67, f.ti.toNat), (75, f.ge.toNat)]
  | .cgath _ f => [(55, f.rm.toNat), (58, f.sat.toNat), (59, f.fn.toNat)]
  | .cscat _ f => [(55, f.rm.toNat), (58, f.sat.toNat), (59, f.fn.toNat)]
  | .credc _ f => [(59, f.fn.toNat / 16), (67, f.ti.toNat), (75, f.ge.toNat)]
  | .cseal _ f => [(55, f.rm.toNat), (58, f.sat.toNat), (59, f.fn.toNat), (67, f.ti.toNat)]
  | .cwait _ f => [(15, f.d.toNat), (19, f.dw.toNat), (25, f.aw.toNat), (31, f.bw.toNat), (37, f.cw.toNat), (39, f.p.toNat), (42, f.fn.toNat / 2)]
  | .cwaitAll _ f => [(15, f.d.toNat), (19, f.dw.toNat), (21, f.a.toNat), (25, f.aw.toNat), (27, f.b.toNat), (31, f.bw.toNat), (37, f.cw.toNat), (39, f.p.toNat), (42, f.fn.toNat / 2)]
  | .ctest _ f => [(19, f.dw.toNat), (21, f.a.toNat), (25, f.aw.toNat), (31, f.bw.toNat), (37, f.cw.toNat), (39, f.p.toNat), (42, f.fn.toNat)]
  | .cpost _ f => [(15, f.d.toNat), (19, f.dw.toNat), (25, f.aw.toNat), (27, f.rk.toNat), (35, f.rx.toNat), (36, f.b.toNat), (40, f.ri.toNat), (55, f.cls.toNat), (59, f.fn.toNat)]
  | .handover _ f => [(15, f.d.toNat), (19, f.dw.toNat), (25, f.aw.toNat), (36, if f.rx = 0 then f.b.toNat else 0), (40, if f.rx = 1 then f.ri.toNat else 0), (55, f.cls.toNat), (59, f.fn.toNat / 2)]
  | .handoverC _ f => [(15, f.d.toNat), (19, f.dw.toNat), (25, f.aw.toNat), (27, f.rk.toNat), (35, f.rx.toNat), (40, f.ri.toNat), (55, f.cls.toNat), (59, f.fn.toNat / 2)]
  | .done _ f => [(15, f.imm.toNat)]
  | .pendingResultWrite _ => []
  | .arrivalQueueEnter _ => []
  | .slotLoad _ _ => []
  | .grantResend _ => []
  | .ticketlessResend _ => []
  | .departureSend _ _ => []
  | .barrierLineArrival _ => []
  | .barrierPhaseComplete _ _ => []
  | .barrierTimeout _ _ => []
  | .homeAccessPerform _ => []
  | .accessReplyArrive _ => []
  | .lsuPlaceGrant _ => []
  | .lookasideFill _ _ _ _ => []
  | .fenceComplete _ _ => []
  | .ldaComplete _ _ => []
  | .stlRelease _ => []
  | .wsRefreshStart _ => []
  | .wsRefreshEnd _ => []
  | .engineEntryBegin _ _ => []
  | .copyChunkWrite _ _ _ => []
  | .qmEntryPerform _ => []
  | .mmatStepComplete _ => []
  | .mmarFetchServe _ => []
  | .mmarDataArrive _ => []
  | .mmarPairLost _ => []
  | .pageEviction _ => []
  | .pageReturn _ => []
  | .faultPacketHandle _ => []
  | .resumePacketApply _ => []
  | .walkerServe => []
  | .capsuleTake => []
  | .codeImageVerify _ => []
  | .gangReserve _ _ _ => []
  | .gangCommit _ => []
  | .operatingPointReached _ => []
  | .childQueue _ => []
  | .capabilityArrive _ => []
  | .capsuleComplete _ => []
  | .completionRecordWrite _ => []
  | .msixSend _ => []
  | .coreEvict _ _ => []
  | .imageWrite _ => []
  | .parkedPacketDivert _ => []
  | .imageRestore _ _ _ => []
  | .capabilityFault _ _ => []
  | .firmwareRestart => []
  | .watchdogExpire => []
  | .submit _ _ _ _ => []
  | .qcfgEnable _ _ => []
  | .qcfgDisable _ => []
  | .windowEnable _ => []
  | .windowDisable _ => []
  | .lockSet _ => []
  | .lockWalkerCheck _ => []
  | .onazalEnable _ => []
  | .onazalPortEnable _ => []
  | .pwrctlRun => []
  | .pwrctlIdle => []
  | .pwrctlGated => []
  | .powerStateEnter => []
  | .mailboxEvidence => []
  | .mailboxOwnerKey => []
  | .killctlGo _ => []
  | .registerWrite _ _ => []
  | .bringUp => []
  | .inboundWrite _ _ _ _ => []
  | .inboundPieceSend _ _ => []
  | .inboundRead _ _ _ _ => []
  | .remoteRequestArrive _ _ _ _ => []
  | .linkCrcReplay _ _ => []
  | .linkRetrain _ _ _ => []
  | .scrubPass _ _ _ => []
  | .selfCheckFail _ _ => []
  | .instructionStoreFill _ _ => []
  | .encodingFault _ _ => []
  | .sequentialFlowPastCodelen => []
  | .wakeSequenceComplete => []
  | .onazalPortTrained _ _ => []

/-- The reserved field values of R235 to R237 that the instruction could hold: the field's lowest bit and whether it holds one
(R413 DETAIL 6). -/
def Instr.reserved : Instr → List (Nat × Bool)
  | .nop64 _ _ => []
  | .nop96 _ _ => []
  | .nop128 _ _ => []
  | .exit _ _ => []
  | .bra _ _ => []
  | .brx _ _ => []
  | .call _ _ => []
  | .ret _ _ => []
  | .loop _ _ => []
  | .trap _ _ => []
  | .bkpt _ _ => []
  | .mfs _ _ => []
  | .mts _ _ => []
  | .li _ _ => []
  | .liw _ _ => []
  | .lea _ _ => []
  | .mov _ _ => []
  | .add _ _ => []
  | .addi _ _ => []
  | .sub _ _ => []
  | .neg _ _ => []
  | .mul _ _ => []
  | .muli _ _ => []
  | .mulh _ _ => []
  | .div _ _ => []
  | .rem _ _ => []
  | .and _ _ => []
  | .andi _ _ => []
  | .or _ _ => []
  | .ori _ _ => []
  | .xor _ _ => []
  | .xori _ _ => []
  | .andn _ _ => []
  | .not _ _ => []
  | .shl _ _ => []
  | .shli _ _ => []
  | .shr _ _ => []
  | .shri _ _ => []
  | .sar _ _ => []
  | .sari _ _ => []
  | .rol _ _ => []
  | .roli _ _ => []
  | .min _ _ => []
  | .max _ _ => []
  | .abs _ _ => []
  | .clz _ _ => []
  | .ctz _ _ => []
  | .popc _ _ => []
  | .brev _ _ => []
  | .bswp _ _ => []
  | .bfx _ _ => []
  | .bfxs _ _ => []
  | .bfi _ _ => []
  | .sext _ _ => []
  | .sel _ _ => []
  | .cmp _ _ => []
  | .cmpi _ _ => []
  | .pset _ _ => []
  | .lmw _ _ => []
  | .lmr _ _ => []
  | .ld _ _ => []
  | .st _ _ => []
  | .lda _ f => [(32, scopeReserved f.sc)] ++ listReserved 64 f.list
  | .stl _ f => [(32, scopeReserved f.sc)] ++ listReserved 64 f.list
  | .ldf _ _ => []
  | .ldfe _ _ => []
  | .ste _ _ => []
  | .stf _ _ => []
  | .feset _ _ => []
  | .feclr _ _ => []
  | .fetst _ _ => []
  | .pref _ _ => []
  | .put _ _ => []
  | .amo _ _ => []
  | .cas _ _ => []
  | .red _ _ => []
  | .amof _ _ => []
  | .redf _ _ => []
  | .fence _ f => [(15, scopeReserved f.sc)] ++ listReserved 35 f.list
  | .track _ _ => []
  | .trackt _ _ => []
  | .untrack _ _ => []
  | .qfence _ _ => []
  | .vld _ _ => []
  | .vst _ _ => []
  | .vlds _ f => [(36, typeReserved f.t)]
  | .vsts _ f => [(36, typeReserved f.t)]
  | .vgath _ f => [(36, typeReserved f.t)]
  | .vscat _ f => [(36, typeReserved f.t)]
  | .vmov _ _ => []
  | .vbcast _ f => [(45, typeReserved f.t)]
  | .vext _ f => [(45, typeReserved f.t)]
  | .vins _ f => [(45, typeReserved f.t)]
  | .viota _ f => [(45, typeReserved f.t)]
  | .vadd _ f => [(45, typeReserved f.t)]
  | .vsub _ f => [(45, typeReserved f.t)]
  | .vmul _ f => [(45, typeReserved f.t)]
  | .vfma _ f => [(45, typeReserved f.t)]
  | .vfms _ f => [(45, typeReserved f.t)]
  | .vfnma _ f => [(45, typeReserved f.t)]
  | .vmin _ f => [(45, typeReserved f.t)]
  | .vmax _ f => [(45, typeReserved f.t)]
  | .vabs _ f => [(45, typeReserved f.t)]
  | .vneg _ f => [(45, typeReserved f.t)]
  | .vand _ f => [(45, typeReserved f.t)]
  | .vor _ f => [(45, typeReserved f.t)]
  | .vxor _ f => [(45, typeReserved f.t)]
  | .vshl _ f => [(45, typeReserved f.t)]
  | .vshr _ f => [(45, typeReserved f.t)]
  | .vsar _ f => [(45, typeReserved f.t)]
  | .vcmp _ f => [(45, typeReserved f.t)]
  | .vsel _ _ => []
  | .vrcp _ f => [(45, typeReserved f.t)]
  | .vrsq _ f => [(45, typeReserved f.t)]
  | .vexp2 _ f => [(45, typeReserved f.t)]
  | .vlog2 _ f => [(45, typeReserved f.t)]
  | .vcvt _ f => [(45, typeReserved f.t), (70, typeReserved f.t2)]
  | .vqnt _ f => [(45, typeReserved f.t), (70, typeReserved f.t2)]
  | .vdeq _ f => [(45, typeReserved f.t), (70, typeReserved f.t2)]
  | .vred _ f => [(45, typeReserved f.t)]
  | .vscan _ f => [(45, typeReserved f.t)]
  | .vperm _ f => [(45, typeReserved f.t)]
  | .vshuf _ f => [(45, typeReserved f.t)]
  | .vdot _ f => [(45, typeReserved f.t)]
  | .vmaci _ f => [(45, typeReserved f.t), (70, typeReserved f.t2)]
  | .mzero _ _ => []
  | .mld _ _ => []
  | .mldSc _ _ => []
  | .mst _ _ => []
  | .mma _ f => [(29, typeReserved f.ta), (33, typeReserved f.tb)]
  | .mmas _ f => [(29, typeReserved f.ta), (33, typeReserved f.tb)]
  | .mmar _ f => [(29, typeReserved f.ta), (33, typeReserved f.tb)]
  | .mmat _ _ => []
  | .macc _ f => [(29, typeReserved f.ta)]
  | .mtrn _ f => [(29, typeReserved f.ta)]
  | .mcode _ _ => []
  | .tdef _ _ => []
  | .tqry _ _ => []
  | .spsend _ f => [(45, typeReserved f.t)]
  | .spawn _ _ => []
  | .spawnp _ _ => []
  | .send _ _ => []
  | .sendResume _ _ => []
  | .join _ _ => []
  | .joinRet _ _ => []
  | .go _ _ => []
  | .chsend _ _ => []
  | .chrecv _ _ => []
  | .chmask _ _ => []
  | .bar _ _ => []
  | .bara _ _ => []
  | .barw _ _ => []
  | .copy _ f => [(19, decide (f.q.toNat = 3))]
  | .cgath _ f => [(19, decide (f.q.toNat = 3))]
  | .cscat _ f => [(19, decide (f.q.toNat = 3))]
  | .credc _ f => [(19, decide (f.q.toNat = 3))]
  | .cseal _ f => [(19, decide (f.q.toNat = 3))]
  | .cwait _ _ => []
  | .cwaitAll _ _ => []
  | .ctest _ _ => []
  | .cpost _ _ => []
  | .handover _ _ => []
  | .handoverC _ _ => []
  | .done _ _ => []
  | .pendingResultWrite _ => []
  | .arrivalQueueEnter _ => []
  | .slotLoad _ _ => []
  | .grantResend _ => []
  | .ticketlessResend _ => []
  | .departureSend _ _ => []
  | .barrierLineArrival _ => []
  | .barrierPhaseComplete _ _ => []
  | .barrierTimeout _ _ => []
  | .homeAccessPerform _ => []
  | .accessReplyArrive _ => []
  | .lsuPlaceGrant _ => []
  | .lookasideFill _ _ _ _ => []
  | .fenceComplete _ _ => []
  | .ldaComplete _ _ => []
  | .stlRelease _ => []
  | .wsRefreshStart _ => []
  | .wsRefreshEnd _ => []
  | .engineEntryBegin _ _ => []
  | .copyChunkWrite _ _ _ => []
  | .qmEntryPerform _ => []
  | .mmatStepComplete _ => []
  | .mmarFetchServe _ => []
  | .mmarDataArrive _ => []
  | .mmarPairLost _ => []
  | .pageEviction _ => []
  | .pageReturn _ => []
  | .faultPacketHandle _ => []
  | .resumePacketApply _ => []
  | .walkerServe => []
  | .capsuleTake => []
  | .codeImageVerify _ => []
  | .gangReserve _ _ _ => []
  | .gangCommit _ => []
  | .operatingPointReached _ => []
  | .childQueue _ => []
  | .capabilityArrive _ => []
  | .capsuleComplete _ => []
  | .completionRecordWrite _ => []
  | .msixSend _ => []
  | .coreEvict _ _ => []
  | .imageWrite _ => []
  | .parkedPacketDivert _ => []
  | .imageRestore _ _ _ => []
  | .capabilityFault _ _ => []
  | .firmwareRestart => []
  | .watchdogExpire => []
  | .submit _ _ _ _ => []
  | .qcfgEnable _ _ => []
  | .qcfgDisable _ => []
  | .windowEnable _ => []
  | .windowDisable _ => []
  | .lockSet _ => []
  | .lockWalkerCheck _ => []
  | .onazalEnable _ => []
  | .onazalPortEnable _ => []
  | .pwrctlRun => []
  | .pwrctlIdle => []
  | .pwrctlGated => []
  | .powerStateEnter => []
  | .mailboxEvidence => []
  | .mailboxOwnerKey => []
  | .killctlGo _ => []
  | .registerWrite _ _ => []
  | .bringUp => []
  | .inboundWrite _ _ _ _ => []
  | .inboundPieceSend _ _ => []
  | .inboundRead _ _ _ _ => []
  | .remoteRequestArrive _ _ _ _ => []
  | .linkCrcReplay _ _ => []
  | .linkRetrain _ _ _ => []
  | .scrubPass _ _ _ => []
  | .selfCheckFail _ _ => []
  | .instructionStoreFill _ _ => []
  | .encodingFault _ _ => []
  | .sequentialFlowPastCodelen => []
  | .wakeSequenceComplete => []
  | .onazalPortTrained _ _ => []

/-- Whether the constructor is an event of the part, not an instruction of the opcode map (R243). -/
def Instr.isEvent : Instr → Bool
  | .nop64 _ _ => false
  | .nop96 _ _ => false
  | .nop128 _ _ => false
  | .exit _ _ => false
  | .bra _ _ => false
  | .brx _ _ => false
  | .call _ _ => false
  | .ret _ _ => false
  | .loop _ _ => false
  | .trap _ _ => false
  | .bkpt _ _ => false
  | .mfs _ _ => false
  | .mts _ _ => false
  | .li _ _ => false
  | .liw _ _ => false
  | .lea _ _ => false
  | .mov _ _ => false
  | .add _ _ => false
  | .addi _ _ => false
  | .sub _ _ => false
  | .neg _ _ => false
  | .mul _ _ => false
  | .muli _ _ => false
  | .mulh _ _ => false
  | .div _ _ => false
  | .rem _ _ => false
  | .and _ _ => false
  | .andi _ _ => false
  | .or _ _ => false
  | .ori _ _ => false
  | .xor _ _ => false
  | .xori _ _ => false
  | .andn _ _ => false
  | .not _ _ => false
  | .shl _ _ => false
  | .shli _ _ => false
  | .shr _ _ => false
  | .shri _ _ => false
  | .sar _ _ => false
  | .sari _ _ => false
  | .rol _ _ => false
  | .roli _ _ => false
  | .min _ _ => false
  | .max _ _ => false
  | .abs _ _ => false
  | .clz _ _ => false
  | .ctz _ _ => false
  | .popc _ _ => false
  | .brev _ _ => false
  | .bswp _ _ => false
  | .bfx _ _ => false
  | .bfxs _ _ => false
  | .bfi _ _ => false
  | .sext _ _ => false
  | .sel _ _ => false
  | .cmp _ _ => false
  | .cmpi _ _ => false
  | .pset _ _ => false
  | .lmw _ _ => false
  | .lmr _ _ => false
  | .ld _ _ => false
  | .st _ _ => false
  | .lda _ _ => false
  | .stl _ _ => false
  | .ldf _ _ => false
  | .ldfe _ _ => false
  | .ste _ _ => false
  | .stf _ _ => false
  | .feset _ _ => false
  | .feclr _ _ => false
  | .fetst _ _ => false
  | .pref _ _ => false
  | .put _ _ => false
  | .amo _ _ => false
  | .cas _ _ => false
  | .red _ _ => false
  | .amof _ _ => false
  | .redf _ _ => false
  | .fence _ _ => false
  | .track _ _ => false
  | .trackt _ _ => false
  | .untrack _ _ => false
  | .qfence _ _ => false
  | .vld _ _ => false
  | .vst _ _ => false
  | .vlds _ _ => false
  | .vsts _ _ => false
  | .vgath _ _ => false
  | .vscat _ _ => false
  | .vmov _ _ => false
  | .vbcast _ _ => false
  | .vext _ _ => false
  | .vins _ _ => false
  | .viota _ _ => false
  | .vadd _ _ => false
  | .vsub _ _ => false
  | .vmul _ _ => false
  | .vfma _ _ => false
  | .vfms _ _ => false
  | .vfnma _ _ => false
  | .vmin _ _ => false
  | .vmax _ _ => false
  | .vabs _ _ => false
  | .vneg _ _ => false
  | .vand _ _ => false
  | .vor _ _ => false
  | .vxor _ _ => false
  | .vshl _ _ => false
  | .vshr _ _ => false
  | .vsar _ _ => false
  | .vcmp _ _ => false
  | .vsel _ _ => false
  | .vrcp _ _ => false
  | .vrsq _ _ => false
  | .vexp2 _ _ => false
  | .vlog2 _ _ => false
  | .vcvt _ _ => false
  | .vqnt _ _ => false
  | .vdeq _ _ => false
  | .vred _ _ => false
  | .vscan _ _ => false
  | .vperm _ _ => false
  | .vshuf _ _ => false
  | .vdot _ _ => false
  | .vmaci _ _ => false
  | .mzero _ _ => false
  | .mld _ _ => false
  | .mldSc _ _ => false
  | .mst _ _ => false
  | .mma _ _ => false
  | .mmas _ _ => false
  | .mmar _ _ => false
  | .mmat _ _ => false
  | .macc _ _ => false
  | .mtrn _ _ => false
  | .mcode _ _ => false
  | .tdef _ _ => false
  | .tqry _ _ => false
  | .spsend _ _ => false
  | .spawn _ _ => false
  | .spawnp _ _ => false
  | .send _ _ => false
  | .sendResume _ _ => false
  | .join _ _ => false
  | .joinRet _ _ => false
  | .go _ _ => false
  | .chsend _ _ => false
  | .chrecv _ _ => false
  | .chmask _ _ => false
  | .bar _ _ => false
  | .bara _ _ => false
  | .barw _ _ => false
  | .copy _ _ => false
  | .cgath _ _ => false
  | .cscat _ _ => false
  | .credc _ _ => false
  | .cseal _ _ => false
  | .cwait _ _ => false
  | .cwaitAll _ _ => false
  | .ctest _ _ => false
  | .cpost _ _ => false
  | .handover _ _ => false
  | .handoverC _ _ => false
  | .done _ _ => false
  | .pendingResultWrite _ => true
  | .arrivalQueueEnter _ => true
  | .slotLoad _ _ => true
  | .grantResend _ => true
  | .ticketlessResend _ => true
  | .departureSend _ _ => true
  | .barrierLineArrival _ => true
  | .barrierPhaseComplete _ _ => true
  | .barrierTimeout _ _ => true
  | .homeAccessPerform _ => true
  | .accessReplyArrive _ => true
  | .lsuPlaceGrant _ => true
  | .lookasideFill _ _ _ _ => true
  | .fenceComplete _ _ => true
  | .ldaComplete _ _ => true
  | .stlRelease _ => true
  | .wsRefreshStart _ => true
  | .wsRefreshEnd _ => true
  | .engineEntryBegin _ _ => true
  | .copyChunkWrite _ _ _ => true
  | .qmEntryPerform _ => true
  | .mmatStepComplete _ => true
  | .mmarFetchServe _ => true
  | .mmarDataArrive _ => true
  | .mmarPairLost _ => true
  | .pageEviction _ => true
  | .pageReturn _ => true
  | .faultPacketHandle _ => true
  | .resumePacketApply _ => true
  | .walkerServe => true
  | .capsuleTake => true
  | .codeImageVerify _ => true
  | .gangReserve _ _ _ => true
  | .gangCommit _ => true
  | .operatingPointReached _ => true
  | .childQueue _ => true
  | .capabilityArrive _ => true
  | .capsuleComplete _ => true
  | .completionRecordWrite _ => true
  | .msixSend _ => true
  | .coreEvict _ _ => true
  | .imageWrite _ => true
  | .parkedPacketDivert _ => true
  | .imageRestore _ _ _ => true
  | .capabilityFault _ _ => true
  | .firmwareRestart => true
  | .watchdogExpire => true
  | .submit _ _ _ _ => true
  | .qcfgEnable _ _ => true
  | .qcfgDisable _ => true
  | .windowEnable _ => true
  | .windowDisable _ => true
  | .lockSet _ => true
  | .lockWalkerCheck _ => true
  | .onazalEnable _ => true
  | .onazalPortEnable _ => true
  | .pwrctlRun => true
  | .pwrctlIdle => true
  | .pwrctlGated => true
  | .powerStateEnter => true
  | .mailboxEvidence => true
  | .mailboxOwnerKey => true
  | .killctlGo _ => true
  | .registerWrite _ _ => true
  | .bringUp => true
  | .inboundWrite _ _ _ _ => true
  | .inboundPieceSend _ _ => true
  | .inboundRead _ _ _ _ => true
  | .remoteRequestArrive _ _ _ _ => true
  | .linkCrcReplay _ _ => true
  | .linkRetrain _ _ _ => true
  | .scrubPass _ _ _ => true
  | .selfCheckFail _ _ => true
  | .instructionStoreFill _ _ => true
  | .encodingFault _ _ => true
  | .sequentialFlowPastCodelen => true
  | .wakeSequenceComplete => true
  | .onazalPortTrained _ _ => true

/-- The variant that shares an opcode with another row agrees with the field that selects it. -/
def Instr.variantOk : Instr → Bool
  | .mld _ f => !f.fn.getLsbD 0
  | .mldSc _ f => f.fn.getLsbD 0
  | .send _ f => decide (f.cls.toNat ≠ 3)
  | .sendResume _ f => decide (f.cls.toNat = 3)
  | .join _ f => !f.fn.getLsbD 0
  | .joinRet _ f => f.fn.getLsbD 0
  | .cwait _ f => !f.fn.getLsbD 0
  | .cwaitAll _ f => f.fn.getLsbD 0
  | .handover _ f => !f.fn.getLsbD 0
  | .handoverC _ f => f.fn.getLsbD 0
  | _ => true

/-- No unused field is nonzero, no field value is reserved, and the variant bit agrees: what the decoder requires of an
instruction it accepts (R244, R413). Events have no encoding and are well-formed. -/
def Instr.WellFormed (i : Instr) : Prop :=
  (∀ x ∈ i.unused, x.2 = 0) ∧ (∀ x ∈ i.reserved, x.2 = false) ∧ i.variantOk = true

/-- `WellFormed` as a Boolean check. -/
def Instr.wellFormed (i : Instr) : Bool :=
  i.unused.all (fun x => x.2 == 0) && i.reserved.all (fun x => !x.2) && i.variantOk

end Sys2Proof
end

