-- ==== Sys2Proof/Word.lean ====
section
/-! DEFINITION. The word types of the machine and the little-endian reading of bytes (R2, R3). -/

namespace Sys2Proof

/-- A byte. -/
abbrev Byte := BitVec 8

/-- A 64-bit register value. -/
abbrev Word := BitVec 64

/-- The little-endian value of a list of bytes: byte 0 holds bits [7:0] (R3). -/
def leNat : List Byte → Nat
  | [] => 0
  | b :: bs => b.toNat + 256 * leNat bs

/-- The `n` little-endian bytes of a value (R3). -/
def leBytes : Nat → Nat → List Byte
  | 0, _ => []
  | n + 1, v => BitVec.ofNat 8 v :: leBytes n (v / 256)

/-- Bits [lo + n - 1 : lo] of a value (R2). -/
def bits (v lo n : Nat) : Nat := v / 2 ^ lo % 2 ^ n

/-- The value `v` with bits [lo + n - 1 : lo] replaced by the low `n` bits of `x` (R2). -/
def setBits (v lo n x : Nat) : Nat := v - bits v lo n * 2 ^ lo + x % 2 ^ n * 2 ^ lo

/-- The two's-complement reading of the low `n` bits of a value. -/
def toSigned (n v : Nat) : Int :=
  if 2 ^ (n - 1) ≤ v % 2 ^ n then (v % 2 ^ n : Int) - 2 ^ n else (v % 2 ^ n : Int)

/-- The low `n` bits of an integer, as a natural number. -/
def wrapInt (n : Nat) (x : Int) : Nat := (x % (2 ^ n : Int)).toNat

/-- Round `a` up to a multiple of `n`. -/
def alignUp (a n : Nat) : Nat := (a + n - 1) / n * n

end Sys2Proof
end

