-- ==== Sys2Proof/Decode.lean ====
section
/-! DEFINITION. The decoder and the encoder of R229 to R238 and R243: an instruction word is the little-endian value of its
bytes (R3, R229), cut into fields from bit 0 upward by the widths of its format (R234). Decoding is total: it rejects by
the DETAIL and AUX of R413. -/

namespace Sys2Proof

/-- The formats of R234. -/
inductive Format where
  | a | i | l | p | b | s | n | m | ml | f | t | w | v | vx | vm | x | c
  deriving DecidableEq, Repr

/-- A field value of a given width, packed from the low bit up: the value of the fields `vs` laid out by the widths `ws`. -/
def packFields : List Nat → List Nat → Nat
  | w :: ws, v :: vs => v % 2 ^ w + 2 ^ w * packFields ws vs
  | _, _ => 0

/-- The fields of a word cut by the widths `ws`, low field first. -/
def unpackFields : List Nat → Nat → List Nat
  | [], _ => []
  | w :: ws, x => x % 2 ^ w :: unpackFields ws (x / 2 ^ w)

/-- The widths of the fixed fields of R232, low bit first: LEN, S, OP, GP, GN. -/
def headWidths : List Nat := [2, 1, 8, 3, 1]

/-- The widths of a format's fields above bit 14, low bit first; reserved fields (named 0 in R234) included. -/
def Format.widths : Format → List Nat
  | .a => [4, 2, 4, 2, 4, 2, 4, 2, 3, 8, 14]
  | .i => [4, 2, 4, 2, 4, 3, 30]
  | .l => [4, 2, 11, 64]
  | .p => [3, 3, 3, 4, 36]
  | .b => [4, 2, 2, 41]
  | .s => [4, 2, 8, 35]
  | .n => [16, 33]
  | .m => [4, 2, 4, 4, 1, 2, 4, 4, 24]
  | .ml => [4, 2, 4, 4, 1, 2, 4, 4, 24, 39, 25]
  | .f => [4, 8, 8, 39, 22]
  | .t => [4, 2, 4, 2, 8, 1, 4, 15, 4, 5]
  | .w => [4, 2, 4, 2, 8, 1, 4, 15, 4, 5, 32]
  | .v => [7, 2, 7, 2, 7, 2, 3, 4, 3, 1, 8, 3]
  | .vx => [7, 2, 7, 2, 7, 2, 3, 4, 3, 1, 8, 3, 4, 2, 4, 4, 8, 10]
  | .vm => [7, 2, 4, 4, 1, 3, 4, 7, 8, 9, 32]
  | .x => [4, 5, 5, 4, 4, 7, 7, 4, 2, 8, 8, 8, 3, 1, 8, 3]
  | .c => [4, 2, 8, 8, 4, 2, 4, 2, 4, 2, 3, 1, 8, 8, 4, 49]

/-- The length code of a format's length (R229, R234). -/
def Format.lenCode : Format → Nat
  | .a => 0
  | .i => 0
  | .l => 1
  | .p => 0
  | .b => 0
  | .s => 0
  | .n => 0
  | .m => 0
  | .ml => 2
  | .f => 1
  | .t => 0
  | .w => 1
  | .v => 0
  | .vx => 1
  | .vm => 1
  | .x => 1
  | .c => 2

/-- The length in bytes that a length code gives (R229). -/
def lenBytes (len : Nat) : Nat := 8 + 4 * len

/-- The fields of format A as numbers, low bit first. -/
def FmtA.toFields (f : FmtA) : List Nat :=
  [f.d.toNat, f.dw.toNat, f.a.toNat, f.aw.toNat, f.b.toNat, f.bw.toNat, f.c.toNat, f.cw.toNat, f.p.toNat, f.fn.toNat, 0]

/-- Format A read from its field numbers. -/
def FmtA.ofFields : List Nat → Option FmtA
  | [d, dw, a, aw, b, bw, c, cw, p, fn, _] => some ⟨BitVec.ofNat 4 d, BitVec.ofNat 2 dw, BitVec.ofNat 4 a, BitVec.ofNat 2 aw, BitVec.ofNat 4 b, BitVec.ofNat 2 bw, BitVec.ofNat 4 c, BitVec.ofNat 2 cw, BitVec.ofNat 3 p, BitVec.ofNat 8 fn⟩
  | _ => none

/-- The fields of format I as numbers, low bit first. -/
def FmtI.toFields (f : FmtI) : List Nat :=
  [f.d.toNat, f.dw.toNat, f.a.toNat, f.aw.toNat, f.fn.toNat, f.p.toNat, f.imm.toNat]

/-- Format I read from its field numbers. -/
def FmtI.ofFields : List Nat → Option FmtI
  | [d, dw, a, aw, fn, p, imm] => some ⟨BitVec.ofNat 4 d, BitVec.ofNat 2 dw, BitVec.ofNat 4 a, BitVec.ofNat 2 aw, BitVec.ofNat 4 fn, BitVec.ofNat 3 p, BitVec.ofNat 30 imm⟩
  | _ => none

/-- The fields of format L as numbers, low bit first. -/
def FmtL.toFields (f : FmtL) : List Nat :=
  [f.d.toNat, f.dw.toNat, 0, f.imm.toNat]

/-- Format L read from its field numbers. -/
def FmtL.ofFields : List Nat → Option FmtL
  | [d, dw, _, imm] => some ⟨BitVec.ofNat 4 d, BitVec.ofNat 2 dw, BitVec.ofNat 64 imm⟩
  | _ => none

/-- The fields of format P as numbers, low bit first. -/
def FmtP.toFields (f : FmtP) : List Nat :=
  [f.pd.toNat, f.pa.toNat, f.pb.toNat, f.tt.toNat, 0]

/-- Format P read from its field numbers. -/
def FmtP.ofFields : List Nat → Option FmtP
  | [pd, pa, pb, tt, _] => some ⟨BitVec.ofNat 3 pd, BitVec.ofNat 3 pa, BitVec.ofNat 3 pb, BitVec.ofNat 4 tt⟩
  | _ => none

/-- The fields of format B as numbers, low bit first. -/
def FmtB.toFields (f : FmtB) : List Nat :=
  [f.d.toNat, f.dw.toNat, f.fn.toNat, f.off.toNat]

/-- Format B read from its field numbers. -/
def FmtB.ofFields : List Nat → Option FmtB
  | [d, dw, fn, off] => some ⟨BitVec.ofNat 4 d, BitVec.ofNat 2 dw, BitVec.ofNat 2 fn, BitVec.ofNat 41 off⟩
  | _ => none

/-- The fields of format S as numbers, low bit first. -/
def FmtS.toFields (f : FmtS) : List Nat :=
  [f.d.toNat, f.dw.toNat, f.sr.toNat, 0]

/-- Format S read from its field numbers. -/
def FmtS.ofFields : List Nat → Option FmtS
  | [d, dw, sr, _] => some ⟨BitVec.ofNat 4 d, BitVec.ofNat 2 dw, BitVec.ofNat 8 sr⟩
  | _ => none

/-- The fields of format N as numbers, low bit first. -/
def FmtN.toFields (f : FmtN) : List Nat :=
  [f.imm.toNat, 0]

/-- Format N read from its field numbers. -/
def FmtN.ofFields : List Nat → Option FmtN
  | [imm, _] => some ⟨BitVec.ofNat 16 imm⟩
  | _ => none

/-- The fields of format M as numbers, low bit first. -/
def FmtM.toFields (f : FmtM) : List Nat :=
  [f.d.toNat, f.dw.toNat, f.a.toNat, f.b.toNat, f.x.toNat, f.sz.toNat, f.sc.toNat, f.fn.toNat, f.off.toNat]

/-- Format M read from its field numbers. -/
def FmtM.ofFields : List Nat → Option FmtM
  | [d, dw, a, b, x, sz, sc, fn, off] => some ⟨BitVec.ofNat 4 d, BitVec.ofNat 2 dw, BitVec.ofNat 4 a, BitVec.ofNat 4 b, BitVec.ofNat 1 x, BitVec.ofNat 2 sz, BitVec.ofNat 4 sc, BitVec.ofNat 4 fn, BitVec.ofNat 24 off⟩
  | _ => none

/-- The fields of format ML as numbers, low bit first. -/
def FmtML.toFields (f : FmtML) : List Nat :=
  [f.d.toNat, f.dw.toNat, f.a.toNat, f.b.toNat, f.x.toNat, f.sz.toNat, f.sc.toNat, f.fn.toNat, f.off.toNat, f.list.toNat, 0]

/-- Format ML read from its field numbers. -/
def FmtML.ofFields : List Nat → Option FmtML
  | [d, dw, a, b, x, sz, sc, fn, off, list, _] => some ⟨BitVec.ofNat 4 d, BitVec.ofNat 2 dw, BitVec.ofNat 4 a, BitVec.ofNat 4 b, BitVec.ofNat 1 x, BitVec.ofNat 2 sz, BitVec.ofNat 4 sc, BitVec.ofNat 4 fn, BitVec.ofNat 24 off, BitVec.ofNat 39 list⟩
  | _ => none

/-- The fields of format F as numbers, low bit first. -/
def FmtF.toFields (f : FmtF) : List Nat :=
  [f.sc.toNat, f.pm.toNat, f.sm.toNat, f.list.toNat, 0]

/-- Format F read from its field numbers. -/
def FmtF.ofFields : List Nat → Option FmtF
  | [sc, pm, sm, list, _] => some ⟨BitVec.ofNat 4 sc, BitVec.ofNat 8 pm, BitVec.ofNat 8 sm, BitVec.ofNat 39 list⟩
  | _ => none

/-- The fields of format T as numbers, low bit first. -/
def FmtT.toFields (f : FmtT) : List Nat :=
  [f.d.toNat, f.dw.toNat, f.a.toNat, f.aw.toNat, f.rk.toNat, f.rx.toNat, f.b.toNat, f.ri.toNat, f.cls.toNat, f.fn.toNat]

/-- Format T read from its field numbers. -/
def FmtT.ofFields : List Nat → Option FmtT
  | [d, dw, a, aw, rk, rx, b, ri, cls, fn] => some ⟨BitVec.ofNat 4 d, BitVec.ofNat 2 dw, BitVec.ofNat 4 a, BitVec.ofNat 2 aw, BitVec.ofNat 8 rk, BitVec.ofNat 1 rx, BitVec.ofNat 4 b, BitVec.ofNat 15 ri, BitVec.ofNat 4 cls, BitVec.ofNat 5 fn⟩
  | _ => none

/-- The fields of format W as numbers, low bit first. -/
def FmtW.toFields (f : FmtW) : List Nat :=
  [f.d.toNat, f.dw.toNat, f.a.toNat, f.aw.toNat, f.rk.toNat, f.rx.toNat, f.b.toNat, f.ri.toNat, f.cls.toNat, f.fn.toNat, f.imm.toNat]

/-- Format W read from its field numbers. -/
def FmtW.ofFields : List Nat → Option FmtW
  | [d, dw, a, aw, rk, rx, b, ri, cls, fn, imm] => some ⟨BitVec.ofNat 4 d, BitVec.ofNat 2 dw, BitVec.ofNat 4 a, BitVec.ofNat 2 aw, BitVec.ofNat 8 rk, BitVec.ofNat 1 rx, BitVec.ofNat 4 b, BitVec.ofNat 15 ri, BitVec.ofNat 4 cls, BitVec.ofNat 5 fn, BitVec.ofNat 32 imm⟩
  | _ => none

/-- The fields of format V as numbers, low bit first. -/
def FmtV.toFields (f : FmtV) : List Nat :=
  [f.vd.toNat, f.vdw.toNat, f.va.toNat, f.vaw.toNat, f.vb.toNat, f.vbw.toNat, f.lm.toNat, f.t.toNat, f.rm.toNat, f.sat.toNat, f.fn.toNat, 0]

/-- Format V read from its field numbers. -/
def FmtV.ofFields : List Nat → Option FmtV
  | [vd, vdw, va, vaw, vb, vbw, lm, t, rm, sat, fn, _] => some ⟨BitVec.ofNat 7 vd, BitVec.ofNat 2 vdw, BitVec.ofNat 7 va, BitVec.ofNat 2 vaw, BitVec.ofNat 7 vb, BitVec.ofNat 2 vbw, BitVec.ofNat 3 lm, BitVec.ofNat 4 t, BitVec.ofNat 3 rm, BitVec.ofNat 1 sat, BitVec.ofNat 8 fn⟩
  | _ => none

/-- The fields of format VX as numbers, low bit first. -/
def FmtVX.toFields (f : FmtVX) : List Nat :=
  [f.vd.toNat, f.vdw.toNat, f.va.toNat, f.vaw.toNat, f.vb.toNat, f.vbw.toNat, f.lm.toNat, f.t.toNat, f.rm.toNat, f.sat.toNat, f.fn.toNat, 0, f.g.toNat, f.gw.toNat, f.t2.toNat, f.cls.toNat, f.rk.toNat, f.imm.toNat]

/-- Format VX read from its field numbers. -/
def FmtVX.ofFields : List Nat → Option FmtVX
  | [vd, vdw, va, vaw, vb, vbw, lm, t, rm, sat, fn, _, g, gw, t2, cls, rk, imm] => some ⟨BitVec.ofNat 7 vd, BitVec.ofNat 2 vdw, BitVec.ofNat 7 va, BitVec.ofNat 2 vaw, BitVec.ofNat 7 vb, BitVec.ofNat 2 vbw, BitVec.ofNat 3 lm, BitVec.ofNat 4 t, BitVec.ofNat 3 rm, BitVec.ofNat 1 sat, BitVec.ofNat 8 fn, BitVec.ofNat 4 g, BitVec.ofNat 2 gw, BitVec.ofNat 4 t2, BitVec.ofNat 4 cls, BitVec.ofNat 8 rk, BitVec.ofNat 10 imm⟩
  | _ => none

/-- The fields of format VM as numbers, low bit first. -/
def FmtVM.toFields (f : FmtVM) : List Nat :=
  [f.vd.toNat, f.vdw.toNat, f.a.toNat, f.b.toNat, f.x.toNat, f.lm.toNat, f.t.toNat, f.vi.toNat, f.fn.toNat, 0, f.off.toNat]

/-- Format VM read from its field numbers. -/
def FmtVM.ofFields : List Nat → Option FmtVM
  | [vd, vdw, a, b, x, lm, t, vi, fn, _, off] => some ⟨BitVec.ofNat 7 vd, BitVec.ofNat 2 vdw, BitVec.ofNat 4 a, BitVec.ofNat 4 b, BitVec.ofNat 1 x, BitVec.ofNat 3 lm, BitVec.ofNat 4 t, BitVec.ofNat 7 vi, BitVec.ofNat 8 fn, BitVec.ofNat 32 off⟩
  | _ => none

/-- The fields of format X as numbers, low bit first. -/
def FmtX.toFields (f : FmtX) : List Nat :=
  [f.ad.toNat, f.ma.toNat, f.mb.toNat, f.ta.toNat, f.tb.toNat, f.vsa.toNat, f.vsb.toNat, f.g.toNat, f.gw.toNat, f.tn.toNat, f.tn2.toNat, f.tn3.toNat, f.rm.toNat, f.sat.toNat, f.fn.toNat, 0]

/-- Format X read from its field numbers. -/
def FmtX.ofFields : List Nat → Option FmtX
  | [ad, ma, mb, ta, tb, vsa, vsb, g, gw, tn, tn2, tn3, rm, sat, fn, _] => some ⟨BitVec.ofNat 4 ad, BitVec.ofNat 5 ma, BitVec.ofNat 5 mb, BitVec.ofNat 4 ta, BitVec.ofNat 4 tb, BitVec.ofNat 7 vsa, BitVec.ofNat 7 vsb, BitVec.ofNat 4 g, BitVec.ofNat 2 gw, BitVec.ofNat 8 tn, BitVec.ofNat 8 tn2, BitVec.ofNat 8 tn3, BitVec.ofNat 3 rm, BitVec.ofNat 1 sat, BitVec.ofNat 8 fn⟩
  | _ => none

/-- The fields of format C as numbers, low bit first. -/
def FmtC.toFields (f : FmtC) : List Nat :=
  [f.d.toNat, f.q.toNat, f.td.toNat, f.ts.toNat, f.gd.toNat, f.gdw.toNat, f.gs.toNat, f.gsw.toNat, f.gx.toNat, f.gxw.toNat, f.rm.toNat, f.sat.toNat, f.fn.toNat, f.ti.toNat, f.ge.toNat, 0]

/-- Format C read from its field numbers. -/
def FmtC.ofFields : List Nat → Option FmtC
  | [d, q, td, ts, gd, gdw, gs, gsw, gx, gxw, rm, sat, fn, ti, ge, _] => some ⟨BitVec.ofNat 4 d, BitVec.ofNat 2 q, BitVec.ofNat 8 td, BitVec.ofNat 8 ts, BitVec.ofNat 4 gd, BitVec.ofNat 2 gdw, BitVec.ofNat 4 gs, BitVec.ofNat 2 gsw, BitVec.ofNat 4 gx, BitVec.ofNat 2 gxw, BitVec.ofNat 3 rm, BitVec.ofNat 1 sat, BitVec.ofNat 8 fn, BitVec.ofNat 8 ti, BitVec.ofNat 4 ge⟩
  | _ => none

/-- The format of each assigned opcode (R243); none where the opcode is unassigned. NOP is format N in every length (R231). -/
def opFormat (op : Nat) : Option Format :=
  match op with
  | 0x01 => some .n
  | 0x02 => some .n
  | 0x03 => some .b
  | 0x04 => some .a
  | 0x05 => some .b
  | 0x06 => some .a
  | 0x07 => some .b
  | 0x08 => some .n
  | 0x09 => some .n
  | 0x0A => some .s
  | 0x0B => some .s
  | 0x0C => some .i
  | 0x0D => some .l
  | 0x0E => some .m
  | 0x0F => some .a
  | 0x10 => some .a
  | 0x11 => some .i
  | 0x12 => some .a
  | 0x13 => some .a
  | 0x14 => some .a
  | 0x15 => some .i
  | 0x16 => some .a
  | 0x17 => some .a
  | 0x18 => some .a
  | 0x19 => some .a
  | 0x1A => some .i
  | 0x1B => some .a
  | 0x1C => some .i
  | 0x1D => some .a
  | 0x1E => some .i
  | 0x1F => some .a
  | 0x20 => some .a
  | 0x21 => some .a
  | 0x22 => some .i
  | 0x23 => some .a
  | 0x24 => some .i
  | 0x25 => some .a
  | 0x26 => some .i
  | 0x27 => some .a
  | 0x28 => some .i
  | 0x29 => some .a
  | 0x2A => some .a
  | 0x2B => some .a
  | 0x2C => some .a
  | 0x2D => some .a
  | 0x2E => some .a
  | 0x2F => some .a
  | 0x30 => some .a
  | 0x31 => some .i
  | 0x32 => some .i
  | 0x33 => some .i
  | 0x34 => some .i
  | 0x35 => some .a
  | 0x36 => some .a
  | 0x37 => some .i
  | 0x38 => some .p
  | 0x39 => some .a
  | 0x3A => some .a
  | 0x40 => some .m
  | 0x41 => some .m
  | 0x42 => some .ml
  | 0x43 => some .ml
  | 0x44 => some .m
  | 0x45 => some .m
  | 0x46 => some .m
  | 0x47 => some .m
  | 0x48 => some .m
  | 0x49 => some .m
  | 0x4A => some .m
  | 0x4B => some .m
  | 0x4C => some .t
  | 0x50 => some .m
  | 0x51 => some .m
  | 0x52 => some .m
  | 0x53 => some .m
  | 0x54 => some .m
  | 0x55 => some .f
  | 0x56 => some .a
  | 0x57 => some .a
  | 0x58 => some .a
  | 0x59 => some .n
  | 0x60 => some .vm
  | 0x61 => some .vm
  | 0x62 => some .vm
  | 0x63 => some .vm
  | 0x64 => some .vm
  | 0x65 => some .vm
  | 0x66 => some .v
  | 0x67 => some .vx
  | 0x68 => some .vx
  | 0x69 => some .vx
  | 0x6A => some .v
  | 0x70 => some .v
  | 0x71 => some .v
  | 0x72 => some .v
  | 0x73 => some .v
  | 0x74 => some .v
  | 0x75 => some .v
  | 0x76 => some .v
  | 0x77 => some .v
  | 0x78 => some .v
  | 0x79 => some .v
  | 0x7A => some .v
  | 0x7B => some .v
  | 0x7C => some .v
  | 0x7D => some .v
  | 0x7E => some .v
  | 0x7F => some .v
  | 0x80 => some .v
  | 0x81 => some .v
  | 0x82 => some .v
  | 0x83 => some .v
  | 0x84 => some .v
  | 0x85 => some .v
  | 0x86 => some .vx
  | 0x87 => some .vx
  | 0x88 => some .vx
  | 0x89 => some .vx
  | 0x8A => some .v
  | 0x8B => some .v
  | 0x8C => some .vx
  | 0x8D => some .v
  | 0x8E => some .vx
  | 0x90 => some .x
  | 0x91 => some .x
  | 0x92 => some .x
  | 0x93 => some .x
  | 0x94 => some .x
  | 0x95 => some .x
  | 0x96 => some .x
  | 0x97 => some .x
  | 0x98 => some .x
  | 0x99 => some .x
  | 0x9A => some .x
  | 0x9B => some .x
  | 0x9C => some .vx
  | 0xA0 => some .w
  | 0xA1 => some .w
  | 0xA2 => some .t
  | 0xA3 => some .t
  | 0xA4 => some .t
  | 0xA5 => some .a
  | 0xA6 => some .a
  | 0xA7 => some .n
  | 0xA8 => some .t
  | 0xA9 => some .t
  | 0xAA => some .t
  | 0xB0 => some .c
  | 0xB1 => some .c
  | 0xB2 => some .c
  | 0xB3 => some .c
  | 0xB4 => some .c
  | 0xB5 => some .a
  | 0xB6 => some .a
  | 0xB8 => some .t
  | 0xB9 => some .t
  | 0xBA => some .n
  | _ => none

/-- The format A instruction of an opcode (R243). -/
def buildA (op : Nat) (h : Head) (f : FmtA) : Option Instr :=
  match op with
  | 0x04 => some (.brx h f)
  | 0x06 => some (.ret h f)
  | 0x0F => some (.mov h f)
  | 0x10 => some (.add h f)
  | 0x12 => some (.sub h f)
  | 0x13 => some (.neg h f)
  | 0x14 => some (.mul h f)
  | 0x16 => some (.mulh h f)
  | 0x17 => some (.div h f)
  | 0x18 => some (.rem h f)
  | 0x19 => some (.and h f)
  | 0x1B => some (.or h f)
  | 0x1D => some (.xor h f)
  | 0x1F => some (.andn h f)
  | 0x20 => some (.not h f)
  | 0x21 => some (.shl h f)
  | 0x23 => some (.shr h f)
  | 0x25 => some (.sar h f)
  | 0x27 => some (.rol h f)
  | 0x29 => some (.min h f)
  | 0x2A => some (.max h f)
  | 0x2B => some (.abs h f)
  | 0x2C => some (.clz h f)
  | 0x2D => some (.ctz h f)
  | 0x2E => some (.popc h f)
  | 0x2F => some (.brev h f)
  | 0x30 => some (.bswp h f)
  | 0x35 => some (.sel h f)
  | 0x36 => some (.cmp h f)
  | 0x39 => some (.lmw h f)
  | 0x3A => some (.lmr h f)
  | 0x56 => some (.track h f)
  | 0x57 => some (.trackt h f)
  | 0x58 => some (.untrack h f)
  | 0xA5 => some (.chsend h f)
  | 0xA6 => some (.chrecv h f)
  | 0xB5 => some (if f.fn.getLsbD 0 = true then .cwaitAll h f else .cwait h f)
  | 0xB6 => some (.ctest h f)
  | _ => none

/-- The format I instruction of an opcode (R243). -/
def buildI (op : Nat) (h : Head) (f : FmtI) : Option Instr :=
  match op with
  | 0x0C => some (.li h f)
  | 0x11 => some (.addi h f)
  | 0x15 => some (.muli h f)
  | 0x1A => some (.andi h f)
  | 0x1C => some (.ori h f)
  | 0x1E => some (.xori h f)
  | 0x22 => some (.shli h f)
  | 0x24 => some (.shri h f)
  | 0x26 => some (.sari h f)
  | 0x28 => some (.roli h f)
  | 0x31 => some (.bfx h f)
  | 0x32 => some (.bfxs h f)
  | 0x33 => some (.bfi h f)
  | 0x34 => some (.sext h f)
  | 0x37 => some (.cmpi h f)
  | _ => none

/-- The format L instruction of an opcode (R243). -/
def buildL (op : Nat) (h : Head) (f : FmtL) : Option Instr :=
  match op with
  | 0x0D => some (.liw h f)
  | _ => none

/-- The format P instruction of an opcode (R243). -/
def buildP (op : Nat) (h : Head) (f : FmtP) : Option Instr :=
  match op with
  | 0x38 => some (.pset h f)
  | _ => none

/-- The format B instruction of an opcode (R243). -/
def buildB (op : Nat) (h : Head) (f : FmtB) : Option Instr :=
  match op with
  | 0x03 => some (.bra h f)
  | 0x05 => some (.call h f)
  | 0x07 => some (.loop h f)
  | _ => none

/-- The format S instruction of an opcode (R243). -/
def buildS (op : Nat) (h : Head) (f : FmtS) : Option Instr :=
  match op with
  | 0x0A => some (.mfs h f)
  | 0x0B => some (.mts h f)
  | _ => none

/-- The format N instruction of an opcode (R243). -/
def buildN (op : Nat) (h : Head) (f : FmtN) : Option Instr :=
  match op with
  | 0x02 => some (.exit h f)
  | 0x08 => some (.trap h f)
  | 0x09 => some (.bkpt h f)
  | 0x59 => some (.qfence h f)
  | 0xA7 => some (.chmask h f)
  | 0xBA => some (.done h f)
  | _ => none

/-- The format M instruction of an opcode (R243). -/
def buildM (op : Nat) (h : Head) (f : FmtM) : Option Instr :=
  match op with
  | 0x0E => some (.lea h f)
  | 0x40 => some (.ld h f)
  | 0x41 => some (.st h f)
  | 0x44 => some (.ldf h f)
  | 0x45 => some (.ldfe h f)
  | 0x46 => some (.ste h f)
  | 0x47 => some (.stf h f)
  | 0x48 => some (.feset h f)
  | 0x49 => some (.feclr h f)
  | 0x4A => some (.fetst h f)
  | 0x4B => some (.pref h f)
  | 0x50 => some (.amo h f)
  | 0x51 => some (.cas h f)
  | 0x52 => some (.red h f)
  | 0x53 => some (.amof h f)
  | 0x54 => some (.redf h f)
  | _ => none

/-- The format ML instruction of an opcode (R243). -/
def buildML (op : Nat) (h : Head) (f : FmtML) : Option Instr :=
  match op with
  | 0x42 => some (.lda h f)
  | 0x43 => some (.stl h f)
  | _ => none

/-- The format F instruction of an opcode (R243). -/
def buildF (op : Nat) (h : Head) (f : FmtF) : Option Instr :=
  match op with
  | 0x55 => some (.fence h f)
  | _ => none

/-- The format T instruction of an opcode (R243). -/
def buildT (op : Nat) (h : Head) (f : FmtT) : Option Instr :=
  match op with
  | 0x4C => some (.put h f)
  | 0xA2 => some (if f.cls.toNat = 3 then .sendResume h f else .send h f)
  | 0xA3 => some (if f.fn.getLsbD 0 = true then .joinRet h f else .join h f)
  | 0xA4 => some (.go h f)
  | 0xA8 => some (.bar h f)
  | 0xA9 => some (.bara h f)
  | 0xAA => some (.barw h f)
  | 0xB8 => some (.cpost h f)
  | 0xB9 => some (if f.fn.getLsbD 0 = true then .handoverC h f else .handover h f)
  | _ => none

/-- The format W instruction of an opcode (R243). -/
def buildW (op : Nat) (h : Head) (f : FmtW) : Option Instr :=
  match op with
  | 0xA0 => some (.spawn h f)
  | 0xA1 => some (.spawnp h f)
  | _ => none

/-- The format V instruction of an opcode (R243). -/
def buildV (op : Nat) (h : Head) (f : FmtV) : Option Instr :=
  match op with
  | 0x66 => some (.vmov h f)
  | 0x6A => some (.viota h f)
  | 0x70 => some (.vadd h f)
  | 0x71 => some (.vsub h f)
  | 0x72 => some (.vmul h f)
  | 0x73 => some (.vfma h f)
  | 0x74 => some (.vfms h f)
  | 0x75 => some (.vfnma h f)
  | 0x76 => some (.vmin h f)
  | 0x77 => some (.vmax h f)
  | 0x78 => some (.vabs h f)
  | 0x79 => some (.vneg h f)
  | 0x7A => some (.vand h f)
  | 0x7B => some (.vor h f)
  | 0x7C => some (.vxor h f)
  | 0x7D => some (.vshl h f)
  | 0x7E => some (.vshr h f)
  | 0x7F => some (.vsar h f)
  | 0x80 => some (.vcmp h f)
  | 0x81 => some (.vsel h f)
  | 0x82 => some (.vrcp h f)
  | 0x83 => some (.vrsq h f)
  | 0x84 => some (.vexp2 h f)
  | 0x85 => some (.vlog2 h f)
  | 0x8A => some (.vscan h f)
  | 0x8B => some (.vperm h f)
  | 0x8D => some (.vdot h f)
  | _ => none

/-- The format VX instruction of an opcode (R243). -/
def buildVX (op : Nat) (h : Head) (f : FmtVX) : Option Instr :=
  match op with
  | 0x67 => some (.vbcast h f)
  | 0x68 => some (.vext h f)
  | 0x69 => some (.vins h f)
  | 0x86 => some (.vcvt h f)
  | 0x87 => some (.vqnt h f)
  | 0x88 => some (.vdeq h f)
  | 0x89 => some (.vred h f)
  | 0x8C => some (.vshuf h f)
  | 0x8E => some (.vmaci h f)
  | 0x9C => some (.spsend h f)
  | _ => none

/-- The format VM instruction of an opcode (R243). -/
def buildVM (op : Nat) (h : Head) (f : FmtVM) : Option Instr :=
  match op with
  | 0x60 => some (.vld h f)
  | 0x61 => some (.vst h f)
  | 0x62 => some (.vlds h f)
  | 0x63 => some (.vsts h f)
  | 0x64 => some (.vgath h f)
  | 0x65 => some (.vscat h f)
  | _ => none

/-- The format X instruction of an opcode (R243). -/
def buildX (op : Nat) (h : Head) (f : FmtX) : Option Instr :=
  match op with
  | 0x90 => some (.mzero h f)
  | 0x91 => some (if f.fn.getLsbD 0 = true then .mldSc h f else .mld h f)
  | 0x92 => some (.mst h f)
  | 0x93 => some (.mma h f)
  | 0x94 => some (.mmas h f)
  | 0x95 => some (.mmar h f)
  | 0x96 => some (.mmat h f)
  | 0x97 => some (.macc h f)
  | 0x98 => some (.mtrn h f)
  | 0x99 => some (.mcode h f)
  | 0x9A => some (.tdef h f)
  | 0x9B => some (.tqry h f)
  | _ => none

/-- The format C instruction of an opcode (R243). -/
def buildC (op : Nat) (h : Head) (f : FmtC) : Option Instr :=
  match op with
  | 0xB0 => some (.copy h f)
  | 0xB1 => some (.cgath h f)
  | 0xB2 => some (.cscat h f)
  | 0xB3 => some (.credc h f)
  | 0xB4 => some (.cseal h f)
  | _ => none

/-- The instruction that an opcode, its head and its fields stand for. -/
def buildInstr (op len : Nat) (h : Head) (fs : List Nat) : Option Instr :=
  if op = 0x01 then (FmtN.ofFields fs).map (fun f => if len = 0 then .nop64 h f else if len = 1 then .nop96 h f else .nop128 h f)
  else match opFormat op with
  | none => none
  | some .a => (FmtA.ofFields fs).bind (buildA op h)
  | some .i => (FmtI.ofFields fs).bind (buildI op h)
  | some .l => (FmtL.ofFields fs).bind (buildL op h)
  | some .p => (FmtP.ofFields fs).bind (buildP op h)
  | some .b => (FmtB.ofFields fs).bind (buildB op h)
  | some .s => (FmtS.ofFields fs).bind (buildS op h)
  | some .n => (FmtN.ofFields fs).bind (buildN op h)
  | some .m => (FmtM.ofFields fs).bind (buildM op h)
  | some .ml => (FmtML.ofFields fs).bind (buildML op h)
  | some .f => (FmtF.ofFields fs).bind (buildF op h)
  | some .t => (FmtT.ofFields fs).bind (buildT op h)
  | some .w => (FmtW.ofFields fs).bind (buildW op h)
  | some .v => (FmtV.ofFields fs).bind (buildV op h)
  | some .vx => (FmtVX.ofFields fs).bind (buildVX op h)
  | some .vm => (FmtVM.ofFields fs).bind (buildVM op h)
  | some .x => (FmtX.ofFields fs).bind (buildX op h)
  | some .c => (FmtC.ofFields fs).bind (buildC op h)

/-- The opcode, length code, head and fields of an instruction of the opcode map; none for an event. -/
structure Parts where
  op : Nat
  len : Nat
  fmt : Format
  h : Head
  fs : List Nat
  deriving DecidableEq, Repr

/-- The parts an instruction is encoded from (R232, R234, R243). -/
def Instr.parts : Instr → Option Parts
  | .nop64 h f => some ⟨0x01, 0, .n, h, f.toFields⟩
  | .nop96 h f => some ⟨0x01, 1, .n, h, f.toFields⟩
  | .nop128 h f => some ⟨0x01, 2, .n, h, f.toFields⟩
  | .exit h f => some ⟨0x02, 0, .n, h, f.toFields⟩
  | .bra h f => some ⟨0x03, 0, .b, h, f.toFields⟩
  | .brx h f => some ⟨0x04, 0, .a, h, f.toFields⟩
  | .call h f => some ⟨0x05, 0, .b, h, f.toFields⟩
  | .ret h f => some ⟨0x06, 0, .a, h, f.toFields⟩
  | .loop h f => some ⟨0x07, 0, .b, h, f.toFields⟩
  | .trap h f => some ⟨0x08, 0, .n, h, f.toFields⟩
  | .bkpt h f => some ⟨0x09, 0, .n, h, f.toFields⟩
  | .mfs h f => some ⟨0x0A, 0, .s, h, f.toFields⟩
  | .mts h f => some ⟨0x0B, 0, .s, h, f.toFields⟩
  | .li h f => some ⟨0x0C, 0, .i, h, f.toFields⟩
  | .liw h f => some ⟨0x0D, 1, .l, h, f.toFields⟩
  | .lea h f => some ⟨0x0E, 0, .m, h, f.toFields⟩
  | .mov h f => some ⟨0x0F, 0, .a, h, f.toFields⟩
  | .add h f => some ⟨0x10, 0, .a, h, f.toFields⟩
  | .addi h f => some ⟨0x11, 0, .i, h, f.toFields⟩
  | .sub h f => some ⟨0x12, 0, .a, h, f.toFields⟩
  | .neg h f => some ⟨0x13, 0, .a, h, f.toFields⟩
  | .mul h f => some ⟨0x14, 0, .a, h, f.toFields⟩
  | .muli h f => some ⟨0x15, 0, .i, h, f.toFields⟩
  | .mulh h f => some ⟨0x16, 0, .a, h, f.toFields⟩
  | .div h f => some ⟨0x17, 0, .a, h, f.toFields⟩
  | .rem h f => some ⟨0x18, 0, .a, h, f.toFields⟩
  | .and h f => some ⟨0x19, 0, .a, h, f.toFields⟩
  | .andi h f => some ⟨0x1A, 0, .i, h, f.toFields⟩
  | .or h f => some ⟨0x1B, 0, .a, h, f.toFields⟩
  | .ori h f => some ⟨0x1C, 0, .i, h, f.toFields⟩
  | .xor h f => some ⟨0x1D, 0, .a, h, f.toFields⟩
  | .xori h f => some ⟨0x1E, 0, .i, h, f.toFields⟩
  | .andn h f => some ⟨0x1F, 0, .a, h, f.toFields⟩
  | .not h f => some ⟨0x20, 0, .a, h, f.toFields⟩
  | .shl h f => some ⟨0x21, 0, .a, h, f.toFields⟩
  | .shli h f => some ⟨0x22, 0, .i, h, f.toFields⟩
  | .shr h f => some ⟨0x23, 0, .a, h, f.toFields⟩
  | .shri h f => some ⟨0x24, 0, .i, h, f.toFields⟩
  | .sar h f => some ⟨0x25, 0, .a, h, f.toFields⟩
  | .sari h f => some ⟨0x26, 0, .i, h, f.toFields⟩
  | .rol h f => some ⟨0x27, 0, .a, h, f.toFields⟩
  | .roli h f => some ⟨0x28, 0, .i, h, f.toFields⟩
  | .min h f => some ⟨0x29, 0, .a, h, f.toFields⟩
  | .max h f => some ⟨0x2A, 0, .a, h, f.toFields⟩
  | .abs h f => some ⟨0x2B, 0, .a, h, f.toFields⟩
  | .clz h f => some ⟨0x2C, 0, .a, h, f.toFields⟩
  | .ctz h f => some ⟨0x2D, 0, .a, h, f.toFields⟩
  | .popc h f => some ⟨0x2E, 0, .a, h, f.toFields⟩
  | .brev h f => some ⟨0x2F, 0, .a, h, f.toFields⟩
  | .bswp h f => some ⟨0x30, 0, .a, h, f.toFields⟩
  | .bfx h f => some ⟨0x31, 0, .i, h, f.toFields⟩
  | .bfxs h f => some ⟨0x32, 0, .i, h, f.toFields⟩
  | .bfi h f => some ⟨0x33, 0, .i, h, f.toFields⟩
  | .sext h f => some ⟨0x34, 0, .i, h, f.toFields⟩
  | .sel h f => some ⟨0x35, 0, .a, h, f.toFields⟩
  | .cmp h f => some ⟨0x36, 0, .a, h, f.toFields⟩
  | .cmpi h f => some ⟨0x37, 0, .i, h, f.toFields⟩
  | .pset h f => some ⟨0x38, 0, .p, h, f.toFields⟩
  | .lmw h f => some ⟨0x39, 0, .a, h, f.toFields⟩
  | .lmr h f => some ⟨0x3A, 0, .a, h, f.toFields⟩
  | .ld h f => some ⟨0x40, 0, .m, h, f.toFields⟩
  | .st h f => some ⟨0x41, 0, .m, h, f.toFields⟩
  | .lda h f => some ⟨0x42, 2, .ml, h, f.toFields⟩
  | .stl h f => some ⟨0x43, 2, .ml, h, f.toFields⟩
  | .ldf h f => some ⟨0x44, 0, .m, h, f.toFields⟩
  | .ldfe h f => some ⟨0x45, 0, .m, h, f.toFields⟩
  | .ste h f => some ⟨0x46, 0, .m, h, f.toFields⟩
  | .stf h f => some ⟨0x47, 0, .m, h, f.toFields⟩
  | .feset h f => some ⟨0x48, 0, .m, h, f.toFields⟩
  | .feclr h f => some ⟨0x49, 0, .m, h, f.toFields⟩
  | .fetst h f => some ⟨0x4A, 0, .m, h, f.toFields⟩
  | .pref h f => some ⟨0x4B, 0, .m, h, f.toFields⟩
  | .put h f => some ⟨0x4C, 0, .t, h, f.toFields⟩
  | .amo h f => some ⟨0x50, 0, .m, h, f.toFields⟩
  | .cas h f => some ⟨0x51, 0, .m, h, f.toFields⟩
  | .red h f => some ⟨0x52, 0, .m, h, f.toFields⟩
  | .amof h f => some ⟨0x53, 0, .m, h, f.toFields⟩
  | .redf h f => some ⟨0x54, 0, .m, h, f.toFields⟩
  | .fence h f => some ⟨0x55, 1, .f, h, f.toFields⟩
  | .track h f => some ⟨0x56, 0, .a, h, f.toFields⟩
  | .trackt h f => some ⟨0x57, 0, .a, h, f.toFields⟩
  | .untrack h f => some ⟨0x58, 0, .a, h, f.toFields⟩
  | .qfence h f => some ⟨0x59, 0, .n, h, f.toFields⟩
  | .vld h f => some ⟨0x60, 1, .vm, h, f.toFields⟩
  | .vst h f => some ⟨0x61, 1, .vm, h, f.toFields⟩
  | .vlds h f => some ⟨0x62, 1, .vm, h, f.toFields⟩
  | .vsts h f => some ⟨0x63, 1, .vm, h, f.toFields⟩
  | .vgath h f => some ⟨0x64, 1, .vm, h, f.toFields⟩
  | .vscat h f => some ⟨0x65, 1, .vm, h, f.toFields⟩
  | .vmov h f => some ⟨0x66, 0, .v, h, f.toFields⟩
  | .vbcast h f => some ⟨0x67, 1, .vx, h, f.toFields⟩
  | .vext h f => some ⟨0x68, 1, .vx, h, f.toFields⟩
  | .vins h f => some ⟨0x69, 1, .vx, h, f.toFields⟩
  | .viota h f => some ⟨0x6A, 0, .v, h, f.toFields⟩
  | .vadd h f => some ⟨0x70, 0, .v, h, f.toFields⟩
  | .vsub h f => some ⟨0x71, 0, .v, h, f.toFields⟩
  | .vmul h f => some ⟨0x72, 0, .v, h, f.toFields⟩
  | .vfma h f => some ⟨0x73, 0, .v, h, f.toFields⟩
  | .vfms h f => some ⟨0x74, 0, .v, h, f.toFields⟩
  | .vfnma h f => some ⟨0x75, 0, .v, h, f.toFields⟩
  | .vmin h f => some ⟨0x76, 0, .v, h, f.toFields⟩
  | .vmax h f => some ⟨0x77, 0, .v, h, f.toFields⟩
  | .vabs h f => some ⟨0x78, 0, .v, h, f.toFields⟩
  | .vneg h f => some ⟨0x79, 0, .v, h, f.toFields⟩
  | .vand h f => some ⟨0x7A, 0, .v, h, f.toFields⟩
  | .vor h f => some ⟨0x7B, 0, .v, h, f.toFields⟩
  | .vxor h f => some ⟨0x7C, 0, .v, h, f.toFields⟩
  | .vshl h f => some ⟨0x7D, 0, .v, h, f.toFields⟩
  | .vshr h f => some ⟨0x7E, 0, .v, h, f.toFields⟩
  | .vsar h f => some ⟨0x7F, 0, .v, h, f.toFields⟩
  | .vcmp h f => some ⟨0x80, 0, .v, h, f.toFields⟩
  | .vsel h f => some ⟨0x81, 0, .v, h, f.toFields⟩
  | .vrcp h f => some ⟨0x82, 0, .v, h, f.toFields⟩
  | .vrsq h f => some ⟨0x83, 0, .v, h, f.toFields⟩
  | .vexp2 h f => some ⟨0x84, 0, .v, h, f.toFields⟩
  | .vlog2 h f => some ⟨0x85, 0, .v, h, f.toFields⟩
  | .vcvt h f => some ⟨0x86, 1, .vx, h, f.toFields⟩
  | .vqnt h f => some ⟨0x87, 1, .vx, h, f.toFields⟩
  | .vdeq h f => some ⟨0x88, 1, .vx, h, f.toFields⟩
  | .vred h f => some ⟨0x89, 1, .vx, h, f.toFields⟩
  | .vscan h f => some ⟨0x8A, 0, .v, h, f.toFields⟩
  | .vperm h f => some ⟨0x8B, 0, .v, h, f.toFields⟩
  | .vshuf h f => some ⟨0x8C, 1, .vx, h, f.toFields⟩
  | .vdot h f => some ⟨0x8D, 0, .v, h, f.toFields⟩
  | .vmaci h f => some ⟨0x8E, 1, .vx, h, f.toFields⟩
  | .mzero h f => some ⟨0x90, 1, .x, h, f.toFields⟩
  | .mld h f => some ⟨0x91, 1, .x, h, f.toFields⟩
  | .mldSc h f => some ⟨0x91, 1, .x, h, f.toFields⟩
  | .mst h f => some ⟨0x92, 1, .x, h, f.toFields⟩
  | .mma h f => some ⟨0x93, 1, .x, h, f.toFields⟩
  | .mmas h f => some ⟨0x94, 1, .x, h, f.toFields⟩
  | .mmar h f => some ⟨0x95, 1, .x, h, f.toFields⟩
  | .mmat h f => some ⟨0x96, 1, .x, h, f.toFields⟩
  | .macc h f => some ⟨0x97, 1, .x, h, f.toFields⟩
  | .mtrn h f => some ⟨0x98, 1, .x, h, f.toFields⟩
  | .mcode h f => some ⟨0x99, 1, .x, h, f.toFields⟩
  | .tdef h f => some ⟨0x9A, 1, .x, h, f.toFields⟩
  | .tqry h f => some ⟨0x9B, 1, .x, h, f.toFields⟩
  | .spsend h f => some ⟨0x9C, 1, .vx, h, f.toFields⟩
  | .spawn h f => some ⟨0xA0, 1, .w, h, f.toFields⟩
  | .spawnp h f => some ⟨0xA1, 1, .w, h, f.toFields⟩
  | .send h f => some ⟨0xA2, 0, .t, h, f.toFields⟩
  | .sendResume h f => some ⟨0xA2, 0, .t, h, f.toFields⟩
  | .join h f => some ⟨0xA3, 0, .t, h, f.toFields⟩
  | .joinRet h f => some ⟨0xA3, 0, .t, h, f.toFields⟩
  | .go h f => some ⟨0xA4, 0, .t, h, f.toFields⟩
  | .chsend h f => some ⟨0xA5, 0, .a, h, f.toFields⟩
  | .chrecv h f => some ⟨0xA6, 0, .a, h, f.toFields⟩
  | .chmask h f => some ⟨0xA7, 0, .n, h, f.toFields⟩
  | .bar h f => some ⟨0xA8, 0, .t, h, f.toFields⟩
  | .bara h f => some ⟨0xA9, 0, .t, h, f.toFields⟩
  | .barw h f => some ⟨0xAA, 0, .t, h, f.toFields⟩
  | .copy h f => some ⟨0xB0, 2, .c, h, f.toFields⟩
  | .cgath h f => some ⟨0xB1, 2, .c, h, f.toFields⟩
  | .cscat h f => some ⟨0xB2, 2, .c, h, f.toFields⟩
  | .credc h f => some ⟨0xB3, 2, .c, h, f.toFields⟩
  | .cseal h f => some ⟨0xB4, 2, .c, h, f.toFields⟩
  | .cwait h f => some ⟨0xB5, 0, .a, h, f.toFields⟩
  | .cwaitAll h f => some ⟨0xB5, 0, .a, h, f.toFields⟩
  | .ctest h f => some ⟨0xB6, 0, .a, h, f.toFields⟩
  | .cpost h f => some ⟨0xB8, 0, .t, h, f.toFields⟩
  | .handover h f => some ⟨0xB9, 0, .t, h, f.toFields⟩
  | .handoverC h f => some ⟨0xB9, 0, .t, h, f.toFields⟩
  | .done h f => some ⟨0xBA, 0, .n, h, f.toFields⟩
  | .pendingResultWrite _ => none
  | .arrivalQueueEnter _ => none
  | .slotLoad _ _ => none
  | .grantResend _ => none
  | .ticketlessResend _ => none
  | .departureSend _ _ => none
  | .barrierLineArrival _ => none
  | .barrierPhaseComplete _ _ => none
  | .barrierTimeout _ _ => none
  | .homeAccessPerform _ => none
  | .accessReplyArrive _ => none
  | .lsuPlaceGrant _ => none
  | .lookasideFill _ _ _ _ => none
  | .fenceComplete _ _ => none
  | .ldaComplete _ _ => none
  | .stlRelease _ => none
  | .wsRefreshStart _ => none
  | .wsRefreshEnd _ => none
  | .engineEntryBegin _ _ => none
  | .copyChunkWrite _ _ _ => none
  | .qmEntryPerform _ => none
  | .mmatStepComplete _ => none
  | .mmarFetchServe _ => none
  | .mmarDataArrive _ => none
  | .mmarPairLost _ => none
  | .pageEviction _ => none
  | .pageReturn _ => none
  | .faultPacketHandle _ => none
  | .resumePacketApply _ => none
  | .walkerServe => none
  | .capsuleTake => none
  | .codeImageVerify _ => none
  | .gangReserve _ _ _ => none
  | .gangCommit _ => none
  | .operatingPointReached _ => none
  | .childQueue _ => none
  | .capabilityArrive _ => none
  | .capsuleComplete _ => none
  | .completionRecordWrite _ => none
  | .msixSend _ => none
  | .coreEvict _ _ => none
  | .imageWrite _ => none
  | .parkedPacketDivert _ => none
  | .imageRestore _ _ _ => none
  | .capabilityFault _ _ => none
  | .firmwareRestart => none
  | .watchdogExpire => none
  | .submit _ _ _ _ => none
  | .qcfgEnable _ _ => none
  | .qcfgDisable _ => none
  | .windowEnable _ => none
  | .windowDisable _ => none
  | .lockSet _ => none
  | .lockWalkerCheck _ => none
  | .onazalEnable _ => none
  | .onazalPortEnable _ => none
  | .pwrctlRun => none
  | .pwrctlIdle => none
  | .pwrctlGated => none
  | .powerStateEnter => none
  | .mailboxEvidence => none
  | .mailboxOwnerKey => none
  | .killctlGo _ => none
  | .registerWrite _ _ => none
  | .bringUp => none
  | .inboundWrite _ _ _ _ => none
  | .inboundPieceSend _ _ => none
  | .inboundRead _ _ _ _ => none
  | .remoteRequestArrive _ _ _ _ => none
  | .linkCrcReplay _ _ => none
  | .linkRetrain _ _ _ => none
  | .scrubPass _ _ _ => none
  | .selfCheckFail _ _ => none
  | .instructionStoreFill _ _ => none
  | .encodingFault _ _ => none
  | .sequentialFlowPastCodelen => none
  | .wakeSequenceComplete => none
  | .onazalPortTrained _ _ => none

/-- Why a word is not an instruction: DETAIL and AUX of the class 3 fault (R413). -/
structure DecodeError where
  detail : Nat
  aux : Nat
  deriving DecidableEq, Repr

/-- AUX of R413: OP in [7:0], LEN in [9:8], the offending field's lowest bit in [23:16]. -/
def encodingAux (op len bit : Nat) : Nat := op + 2 ^ 8 * len + 2 ^ 16 * bit

/-- The reserved fields (named 0) of a format that hold a nonzero value, with their lowest bits (R234). -/
def reservedFields : Nat → List Nat → List Nat → List (Nat × Nat)
  | lo, w :: ws, v :: vs => (lo, v) :: reservedFields (lo + w) ws vs
  | _, _, _ => []

/-- Which fields of a format are named 0 in R234. -/
def Format.zeroMask : Format → List Bool
  | .a => [false, false, false, false, false, false, false, false, false, false, true]
  | .i => [false, false, false, false, false, false, false]
  | .l => [false, false, true, false]
  | .p => [false, false, false, false, true]
  | .b => [false, false, false, false]
  | .s => [false, false, false, true]
  | .n => [false, true]
  | .m => [false, false, false, false, false, false, false, false, false]
  | .ml => [false, false, false, false, false, false, false, false, false, false, true]
  | .f => [false, false, false, false, true]
  | .t => [false, false, false, false, false, false, false, false, false, false]
  | .w => [false, false, false, false, false, false, false, false, false, false, false]
  | .v => [false, false, false, false, false, false, false, false, false, false, false, true]
  | .vx => [false, false, false, false, false, false, false, false, false, false, false, true, false, false, false, false, false, false]
  | .vm => [false, false, false, false, false, false, false, false, false, true, false]
  | .x => [false, false, false, false, false, false, false, false, false, false, false, false, false, false, false, true]
  | .c => [false, false, false, false, false, false, false, false, false, false, false, false, false, false, false, true]

/-- The nonzero fields named 0 of a word of a format: lowest bit and value (R244). -/
def Format.zeros (fm : Format) (fs : List Nat) : List (Nat × Nat) :=
  ((reservedFields 15 fm.widths fs).zip fm.zeroMask).filterMap (fun x => if x.2 then some x.1 else none)

/-- The least of the bits of the offending fields, if there is one. -/
def lowestBad (l : List (Nat × Nat)) : Option Nat :=
  (l.filterMap (fun x => if x.2 = 0 then none else some x.1)).min?

/-- The instruction of the word `w` (bit 0 the lowest bit of byte 0), of which `avail` bytes lie between its first byte
and the end of its 32-byte block (R229, R230, R244, in the DETAIL order of R413). The bits of a 96- or 128-bit NOP above bit 63, where
R234's format N ends, are one unused field with lowest bit 64 (DESIGN CHOICE, log 112). -/
def decodeWord (avail w : Nat) : Except DecodeError (Instr × Nat) :=
  match unpackFields headWidths w with
  | [len, s, op, gp, gn] =>
    if len = 3 then .error ⟨1, encodingAux op len 0⟩
    else if avail < lenBytes len then .error ⟨2, encodingAux op len 0⟩
    else match opFormat op with
      | none => .error ⟨3, encodingAux op len 0⟩
      | some fm =>
        if op ≠ 0x01 ∧ len ≠ fm.lenCode then .error ⟨4, encodingAux op len 0⟩
        else
          let body := w / 2 ^ 15 % 2 ^ (8 * lenBytes len - 15)
          let fs := unpackFields fm.widths body
          let above := if op = 0x01 then [(64, body / 2 ^ 49)] else []
          match buildInstr op len ⟨gn = 1, BitVec.ofNat 3 gp, s = 1⟩ fs with
          | none => .error ⟨3, encodingAux op len 0⟩
          | some i =>
            match lowestBad (fm.zeros fs ++ above ++ i.unused) with
            | some b => .error ⟨5, encodingAux op len b⟩
            | none =>
              match (i.reserved.filterMap (fun x => if x.2 then some x.1 else none)).min? with
              | some b => .error ⟨6, encodingAux op len b⟩
              | none => .ok (i, lenBytes len)
  | _ => .error ⟨1, 0⟩

/-- The instruction at the head of a list of bytes that runs to the end of its block, and its length in bytes. -/
def decodeBytes (bs : List Byte) : Except DecodeError (Instr × Nat) :=
  decodeWord bs.length (leNat (bs.take 16))

/-- The word of an instruction (R245); 0 for an event, which has no encoding. -/
def encode (i : Instr) : Nat :=
  match i.parts with
  | none => 0
  | some p =>
    packFields (headWidths ++ p.fmt.widths)
      ([p.len, p.h.s.toNat, p.op, p.h.gp.toNat, p.h.gn.toNat] ++ p.fs)

/-- The length of an instruction in bytes (R229); 0 for an event. -/
def Instr.lenB (i : Instr) : Nat :=
  match i.parts with
  | none => 0
  | some p => lenBytes p.len

/-- The bytes of an instruction as stored (R229). -/
def encodeBytes (i : Instr) : List Byte := leBytes i.lenB (encode i)

/-- What the decoder reads from an instruction whose bits are `w`, numbered as the opcode table numbers them; every bit at
or above `nbits` is 0. The table gives no bits to an event, which no word encodes. -/
def decodeTableWord (nbits w : Nat) : Option Instr :=
  match decodeBytes (leBytes 16 (w % 2 ^ nbits)) with
  | .ok (i, _) => some i
  | .error _ => none

end Sys2Proof
end

