-- ==== Sys2Proof/Machine/Numbers.lean ====
section
/-! DEFINITION. Number formats, scales and rounding (R25-R47): exact values, the value of a code, and the single
rounding of an exact value to a format. -/

namespace Sys2Proof.Machine

/-- An exact value: NaN, an infinity, or a rational; `nz` says that a zero is negative. -/
inductive Num where
  | nan
  | inf (neg : Bool)
  | fin (q : Rat) (nz : Bool)
  deriving DecidableEq, Repr

/-- The sign of a value: true when negative, a negative zero included. -/
def Num.neg : Num → Bool
  | .nan => false
  | .inf s => s
  | .fin q nz => decide (q < 0) || (decide (q = 0) && nz)

/-- The value with its sign inverted. -/
def Num.negate : Num → Num
  | .nan => .nan
  | .inf s => .inf (!s)
  | .fin q nz => .fin (-q) (decide (q = 0) && !nz)

/-- The magnitude of a rational. -/
def absRat (q : Rat) : Rat := if q < 0 then -q else q

/-- An exact rational, a zero being positive. -/
def Num.ofRat (q : Rat) : Num := .fin q false

/-- The floating layout of a format: sign bit, exponent bits, mantissa bits, bias and special-value policy (R26, R29). -/
structure FSpec where
  s : Bool
  e : Nat
  m : Nat
  bias : Int
  pol : Nat
  deriving DecidableEq, Repr

/-- A number format resolved from an element type or a format descriptor (R25, R26). -/
inductive NFmt where
  | flt (sp : FSpec)
  /-- KIND 1: width, fraction bits, sign. -/
  | fixed (w : Nat) (f : Int) (s : Bool)
  /-- KIND 2: the code table. -/
  | code (ct : Nat)
  | int (w : Nat) (s : Bool)
  deriving DecidableEq, Repr

/-- binary32, R37. -/
def binary32 : FSpec := ⟨true, 8, 23, 127, 2⟩

/-- binary16, R37. -/
def binary16 : FSpec := ⟨true, 5, 10, 15, 2⟩

/-- bfloat16, R37. -/
def bfloat16 : FSpec := ⟨true, 8, 7, 127, 2⟩

/-- The fields of a format descriptor, R26. -/
def fdKind (fd : Nat) : Nat := bits fd 29 3
def fdW (fd : Nat) : Nat := bits fd 25 4
def fdE (fd : Nat) : Nat := bits fd 22 3
def fdPol (fd : Nat) : Nat := bits fd 20 2
def fdBias (fd : Nat) : Int := toSigned 8 (bits fd 12 8)
def fdCt (fd : Nat) : Nat := bits fd 10 2
def fdS (fd : Nat) : Nat := bits fd 9 1

/-- A descriptor as FMT0 to FMT3 and a tensor-table entry keep it: the reserved bits [8:0] read as zero, whatever was written
(R5, R26; DESIGN CHOICE, log 80). -/
def fdKept (v : BitVec 32) : BitVec 32 := v &&& 0xFFFFFE00#32

/-- A valid descriptor, R27; the reserved bits [8:0] are zero wherever a descriptor is kept (`fdKept`), and no condition of R27
names them. -/
def fdValid (fd : Nat) : Bool :=
  decide (fd < 2 ^ 32) &&
  match fdKind fd with
  | 0 => decide (2 ≤ fdW fd ∧ fdW fd ≤ 8 ∧ 1 ≤ fdE fd ∧ fdE fd + fdS fd ≤ fdW fd ∧ fdPol fd ≤ 2 ∧ fdCt fd = 0)
  | 1 => decide (2 ≤ fdW fd ∧ fdW fd ≤ 8 ∧ fdE fd = 0 ∧ fdPol fd = 0 ∧ fdCt fd = 0)
  | 2 => decide (fdW fd = 4 ∧ fdE fd = 0 ∧ fdPol fd = 0 ∧ bits fd 12 8 = 0 ∧ fdS fd = 0)
  | 3 | 4 | 5 => decide (bits fd 9 20 = 0)
  | 6 => decide (2 ≤ fdW fd ∧ fdW fd ≤ 8 ∧ fdE fd = 0 ∧ fdPol fd = 0 ∧ bits fd 12 8 = 0 ∧ fdCt fd = 0)
  | _ => false

/-- The format a valid descriptor describes, R29-R37. -/
def fdFormat (fd : Nat) : NFmt :=
  match fdKind fd with
  | 0 => .flt ⟨decide (fdS fd = 1), fdE fd, fdW fd - fdS fd - fdE fd, fdBias fd, fdPol fd⟩
  | 1 => .fixed (fdW fd) (fdBias fd) (decide (fdS fd = 1))
  | 2 => .code (fdCt fd)
  | 3 => .flt binary16
  | 4 => .flt bfloat16
  | 5 => .flt binary32
  | _ => .int (fdW fd) (decide (fdS fd = 1))

/-- The element width of a descriptor in bits. -/
def fdBits (fd : Nat) : Nat :=
  match fdKind fd with
  | 3 | 4 => 16
  | 5 => 32
  | _ => fdW fd

/-- The container width of a descriptor in bits, R28. -/
def fdContainer (fd : Nat) : Nat := if fdBits fd ≤ 4 then 4 else if fdBits fd ≤ 8 then 8 else fdBits fd

/-- The element width of a format. -/
def NFmt.bits : NFmt → Nat
  | .flt sp => (if sp.s then 1 else 0) + sp.e + sp.m
  | .fixed w _ _ => w
  | .code _ => 4
  | .int w _ => w

/-- A format is an integer format (R36). -/
def NFmt.isInt : NFmt → Bool
  | .int _ _ => true
  | _ => false

/-- A format is a floating format. -/
def NFmt.isFlt : NFmt → Bool
  | .flt _ => true
  | _ => false

/-- 2 to an integer power. -/
def twoPow (k : Int) : Rat := if 0 ≤ k then ((2 ^ k.toNat : Nat) : Rat) else 1 / ((2 ^ (-k).toNat : Nat) : Rat)

/-- The value of a floating code, R29, R37. -/
def FSpec.value (sp : FSpec) (c : Nat) : Num :=
  let mag := c % 2 ^ (sp.e + sp.m)
  let neg := sp.s && decide (c / 2 ^ (sp.e + sp.m) % 2 = 1)
  let ef := mag / 2 ^ sp.m
  let mf := mag % 2 ^ sp.m
  let ones := ef = 2 ^ sp.e - 1
  if sp.pol = 1 ∧ mag = 2 ^ (sp.e + sp.m) - 1 then .nan
  else if sp.pol = 2 ∧ ones then (if mf = 0 then .inf neg else .nan)
  else
    let q := if ef = 0 then twoPow (1 - sp.bias - sp.m) * mf else twoPow (ef - sp.bias - sp.m) * (2 ^ sp.m + mf : Nat)
    .fin (if neg then -q else q) neg

/-- The exact value of a code, R29-R37; a code of a table is its binary16 entry (R35). -/
def NFmt.value (tables : Nat → BitVec 256) (f : NFmt) (c : Nat) : Num :=
  match f with
  | .flt sp => sp.value c
  | .fixed w fr s => Num.ofRat ((if s then (toSigned w c : Rat) else ((c % 2 ^ w : Nat) : Rat)) * twoPow (-fr))
  | .code ct => binary16.value ((tables ct).toNat / 2 ^ (16 * (c % 16)) % 2 ^ 16)
  | .int w s => Num.ofRat (if s then (toSigned w c : Rat) else ((c % 2 ^ w : Nat) : Rat))

/-- The integer `a / b` rounded by RM, for a value of the given sign and this magnitude, R44. -/
def roundNat (rm : Nat) (neg : Bool) (a b : Nat) : Nat :=
  let n := a / b
  let r := a % b
  let up : Bool :=
    match rm with
    | 0 => decide (b < 2 * r) || (decide (b = 2 * r) && decide (n % 2 = 1))
    | 2 => decide (r ≠ 0) && !neg
    | 3 => decide (r ≠ 0) && neg
    | 4 => decide (r ≠ 0) && decide (n % 2 = 0)
    | _ => false
  if up then n + 1 else n

/-- The integer part of log2 of a positive rational. -/
def log2Floor (q : Rat) : Int :=
  let a := q.num.natAbs
  let b := q.den
  let l : Int := (Nat.log2 a : Int) - (Nat.log2 b : Int)
  if twoPow l ≤ q then l else l - 1

/-- The largest finite magnitude code of a floating format, R30, R37. -/
def FSpec.maxMag (sp : FSpec) : Nat :=
  match sp.pol with
  | 0 => 2 ^ (sp.e + sp.m) - 1
  | 1 => 2 ^ (sp.e + sp.m) - 2
  | _ => 2 ^ (sp.e + sp.m) - 2 ^ sp.m - 1

/-- A magnitude code with a sign. -/
def FSpec.withSign (sp : FSpec) (neg : Bool) (mag : Nat) : Nat :=
  if sp.s && neg then 2 ^ (sp.e + sp.m) + mag else mag

/-- The canonical NaN of a floating format, or +0 where it has none, R39. -/
def FSpec.nan (sp : FSpec) : Nat :=
  match sp.pol with
  | 1 => 2 ^ (sp.e + sp.m) - 1
  | 2 => if sp.m = 0 then 0 else (2 ^ sp.e - 1) * 2 ^ sp.m + 2 ^ (sp.m - 1)
  | _ => 0

/-- Big of R46: the overflow value of the format, with the sign of x. -/
def FSpec.big (sp : FSpec) (neg : Bool) : Nat :=
  match sp.pol with
  | 1 => sp.nan
  | 2 => sp.withSign neg ((2 ^ sp.e - 1) * 2 ^ sp.m)
  | _ => sp.withSign neg sp.maxMag

/-- The overflow result of a finite source, R46. -/
def FSpec.overflow (sp : FSpec) (rm : Nat) (sat neg : Bool) : Nat :=
  if sat then sp.withSign neg sp.maxMag
  else match rm with
    | 0 => sp.big neg
    | 2 => if neg then sp.withSign neg sp.maxMag else sp.big neg
    | 3 => if neg then sp.big neg else sp.withSign neg sp.maxMag
    | _ => sp.withSign neg sp.maxMag

/-- The magnitude code of a positive rational rounded onto the format's grid, the grid continued past the largest
exponent, R45. The significand with its leading bit decides ties and round-to-odd (DEDUCED, log 8 for a mantissa of 0 bits). -/
def FSpec.roundMag (sp : FSpec) (rm : Nat) (neg : Bool) (q : Rat) : Nat :=
  let ex := max (log2Floor q) (1 - sp.bias)
  let y := q * twoPow (sp.m - ex)
  let n := roundNat rm neg y.num.natAbs y.den
  n + (ex - (1 - sp.bias)).toNat * 2 ^ sp.m

/-- Round of R45 and R46 for a floating target. -/
def FSpec.round (sp : FSpec) (rm : Nat) (sat : Bool) : Num → Nat
  | .nan => sp.nan
  | .inf neg =>
    if neg && !sp.s then 0
    else if sat then sp.withSign neg sp.maxMag
    else sp.big neg
  | .fin q nz =>
    if q = 0 then sp.withSign nz 0
    else if q < 0 ∧ sp.s = false then 0
    else
      let neg := decide (q < 0)
      let mag := sp.roundMag rm neg (if q < 0 then -q else q)
      if mag ≤ sp.maxMag then sp.withSign neg mag else sp.overflow rm sat neg

/-- An integer clamped to a range. -/
def clampInt (lo hi x : Int) : Int := if x < lo then lo else if hi < x then hi else x

/-- A rational rounded to an integer by RM, R44. -/
def roundRat (rm : Nat) (q : Rat) : Int :=
  let n := roundNat rm (decide (q < 0)) q.num.natAbs q.den
  if q < 0 then -(n : Int) else n

/-- The smallest and largest integer of `w` bits. -/
def intMin (w : Nat) (s : Bool) : Int := if s then -(2 ^ (w - 1) : Int) else 0
def intMax (w : Nat) (s : Bool) : Int := if s then (2 ^ (w - 1) : Int) - 1 else (2 ^ w : Int) - 1

/-- Round for an integer or fixed target of step 2^(-f), R47; `wrap` when source and target are integers and SAT = 0. -/
def roundFixed (w : Nat) (f : Int) (s wrap : Bool) (rm : Nat) : Num → Nat
  | .nan => 0
  | .inf neg => wrapInt w (if neg then intMin w s else intMax w s)
  | .fin q _ =>
    let n := roundRat rm (q * twoPow f)
    wrapInt w (if wrap then n else clampInt (intMin w s) (intMax w s) n)

/-- Round(x, fd, rm, sat) of R45-R47; `srcInt` says that the source format is an integer format. A KIND 2 format is
never a target. -/
def NFmt.round (f : NFmt) (rm : Nat) (sat srcInt : Bool) (x : Num) : Nat :=
  match f with
  | .flt sp => sp.round rm sat x
  | .fixed w fr s => roundFixed w fr s false rm x
  | .code _ => 0
  | .int w s => roundFixed w 0 s (srcInt && !sat) rm x

/-- The value of an S16 scale, R40. -/
def s16Value (x : Nat) : Num :=
  let e := bits x 8 8
  if e = 255 then .nan else Num.ofRat (twoPow (e - 127) * (1 + (bits x 0 8 : Rat) / 256))

/-- The exact product; an infinity times zero is NaN. -/
def Num.mul : Num → Num → Num
  | .nan, _ => .nan
  | _, .nan => .nan
  | .inf a, .inf b => .inf (a != b)
  | .inf a, .fin q nz => if q = 0 then .nan else .inf (a != Num.neg (.fin q nz))
  | .fin q nz, .inf b => if q = 0 then .nan else .inf (b != Num.neg (.fin q nz))
  | .fin p pz, .fin q qz => .fin (p * q) (Num.neg (.fin p pz) != Num.neg (.fin q qz))

/-- The exact sum; opposite infinities give NaN. A zero sum is negative only when both terms are negative zeros, or
when it is exact and RM rounds down (R297 takes the rule of IEEE 754). -/
def Num.add (rm : Nat) : Num → Num → Num
  | .nan, _ => .nan
  | _, .nan => .nan
  | .inf a, .inf b => if a = b then .inf a else .nan
  | .inf a, .fin _ _ => .inf a
  | .fin _ _, .inf b => .inf b
  | .fin p pz, .fin q qz =>
    if p + q = 0 then
      if p = 0 then .fin 0 (if pz = qz then pz else decide (rm = 3)) else .fin 0 (decide (rm = 3))
    else .fin (p + q) false

/-- Integer square root, by bits from the top: the largest r with r² ≤ n among r with bits below `k`. -/
def isqrtBits (n : Nat) : Nat → Nat → Nat
  | 0, r => r
  | k + 1, r => if (r + 2 ^ k) * (r + 2 ^ k) ≤ n then isqrtBits n k (r + 2 ^ k) else isqrtBits n k r

/-- The integer square root. -/
def isqrt (n : Nat) : Nat := isqrtBits n (Nat.log2 n / 2 + 1) 0

/-- The exact reciprocal, R301. -/
def Num.recip : Num → Num
  | .nan => .nan
  | .inf s => .fin 0 s
  | .fin q nz => if q = 0 then .inf nz else .fin (1 / q) false

/-- A dyadic between `n` and `n + 1` units of 2^(-p), or exactly `n` units: it rounds as the real number it stands for. -/
def stickyDyadic (n p : Nat) (exact : Bool) : Rat :=
  if exact then (n : Rat) * twoPow (-p) else ((2 * n + 1 : Nat) : Rat) * twoPow (-(p + 1 : Nat))

/-- 1/√x for rounding, R301: the root is taken to 2^(-200) relative to a scaled operand. -/
def Num.rsqrt : Num → Num
  | .nan => .nan
  | .inf s => if s then .nan else .fin 0 false
  | .fin q nz =>
    if q = 0 then .inf nz
    else if q < 0 then .nan
    else
      let t := 2 ^ 400 * q.den / q.num.natAbs
      let r := isqrt t
      .fin (stickyDyadic r 200 (decide (r * r * q.num.natAbs = 2 ^ 400 * q.den))) false

/-- Product of the roots 2^(2^-j) selected by the bits of a fraction, in units of 2^(-320), each truncated (DESIGN CHOICE, log 7). -/
def exp2Frac : Nat → Nat → Nat → Nat → Nat
  | 0, _, _, acc => acc
  | k + 1, root, f, acc =>
    let root' := isqrt (root * 2 ^ 320)
    exp2Frac k root' (f * 2 % 2 ^ 160) (if 2 ^ 160 ≤ f * 2 then acc * root' / 2 ^ 320 else acc)

/-- 2^x for rounding to binary32 or narrower, R301 (DESIGN CHOICE, log 7). A magnitude of 512 or more is past every format's range. -/
def Num.exp2 : Num → Num
  | .nan => .nan
  | .inf s => if s then .fin 0 false else .inf false
  | .fin q _ =>
    if 512 ≤ q then .fin (twoPow 512) false
    else if q ≤ -512 then .fin (twoPow (-512)) false
    else
      let i := q.floor
      let fr := (q - i) * twoPow 160
      if q = i then .fin (twoPow i) false
      else .fin (stickyDyadic (exp2Frac 160 (2 * 2 ^ 320) fr.floor.toNat (2 ^ 320) / 2 ^ 60) 260 false * twoPow i) false

/-- Bits of log2 of a value in [1, 2), in units of 2^(-512), by repeated squaring (DESIGN CHOICE, log 7). -/
def log2Bits : Nat → Nat → Nat → Nat
  | 0, _, acc => acc
  | k + 1, y, acc =>
    let z := y * y / 2 ^ 512
    if 2 * 2 ^ 512 ≤ z then log2Bits k (z / 2) (2 * acc + 1) else log2Bits k z (2 * acc)

/-- log2 x for rounding, R301 (DESIGN CHOICE, log 7). -/
def Num.log2 : Num → Num
  | .nan => .nan
  | .inf s => if s then .nan else .inf false
  | .fin q _ =>
    if q = 0 then .inf true
    else if q < 0 then .nan
    else
      let ex := log2Floor q
      let y := q * twoPow (-ex)
      if y = 1 then .fin ex false
      else .fin (ex + stickyDyadic (log2Bits 200 (y * twoPow 512).floor.toNat 0) 200 false) false

/-- Numeric comparison: `some` ordering of non-NaN values. -/
def Num.le : Num → Num → Bool
  | .nan, _ => false
  | _, .nan => false
  | .inf true, _ => true
  | _, .inf false => true
  | .inf false, .fin _ _ => false
  | .fin _ _, .inf true => false
  | .inf false, .inf true => false
  | .fin p _, .fin q _ => decide (p ≤ q)

end Sys2Proof.Machine
end

