-- ==== Sys2Proof/Config.lean ====
section
/-! DEFINITION. What the spec leaves open, as constants without a value: free values (DESIGN CHOICE, log 6), the device root key and
the signature and encapsulation schemes of FIPS 204 and FIPS 203, which the spec names and does not define (DESIGN CHOICE, log 9). -/

namespace Sys2Proof.Config

/-- Free value (DESIGN CHOICE, log 6): byte `i` of the `n`-th unpredictable read (R159). -/
opaque freeByte : Nat → Nat → Byte

/-- Free value (DESIGN CHOICE, log 6): the `n`-th free choice of the machine, where the spec allows either of two outcomes (R350). -/
opaque freeBit : Nat → Bool

/-- Free value (DESIGN CHOICE, log 6): the hash of a chunk index by which an Ethernet port is chosen (R370). -/
opaque chunkHash : Nat → Nat

/-- Free value (DESIGN CHOICE, log 6): the Onazal port that a packet of an adaptive class takes, by its number (R369). -/
opaque spreadPort : Nat → Nat

/-- Free value (DESIGN CHOICE, log 6): whether the `n`-th access outside the package is refused by the far end (R436). -/
opaque farEndRefuses : Nat → Bool

/-- Free value (DESIGN CHOICE, log 6): the `n`-th random byte string that Lysgeza draws for an encapsulation (R378). -/
opaque freeRandom : Nat → BitVec 256

/-- Free value (DESIGN CHOICE, log 6): the DETAIL of a fault class whose chapter states none (classes 16 and 17, R410, R437). -/
opaque freeDetail : Nat → BitVec 16

/-- Free value (DESIGN CHOICE, log 115): the scale of a block of a format whose MaxFinite is 0, by the numerator and the denominator of
amax (R304). -/
opaque openScale : Nat → Nat → BitVec 16

/-- An ML-KEM-1024 encapsulation key passes the input check of FIPS 203 (R379; DESIGN CHOICE, log 9). -/
opaque mlkemKeyValid : List Byte → Bool

/-- The device root key, from the physically unclonable source (R375; DESIGN CHOICE, log 9). -/
opaque rootKey : BitVec 256

/-- The ML-DSA-87 public key generated from a 256-bit seed (R376; DESIGN CHOICE, log 9). -/
opaque mldsaPublic : List Byte → List Byte

/-- The ML-DSA-87 signature of a message under the key pair of a seed (R377; DESIGN CHOICE, log 9). -/
opaque mldsaSign : List Byte → List Byte → List Byte

/-- ML-DSA-87 verification: public key, message, signature (R378; DESIGN CHOICE, log 9). -/
opaque mldsaVerify : List Byte → List Byte → List Byte → Bool

/-- ML-KEM-1024 encapsulation: key and randomness give ciphertext and shared secret (R378; DESIGN CHOICE, log 9). -/
opaque mlkemEncapsulate : List Byte → List Byte → List Byte × List Byte

/-- The hash of the vendor's key that stands in the ROM (R375; DESIGN CHOICE, log 9). -/
opaque vendorKeyHash : List Byte

end Sys2Proof.Config
end

