-- ==== Sys2Proof/Machine/State.lean ====
section
/-! DEFINITION. The state of the part as plain data: tasks, slots, cores, memory, accesses and packets under way, die
layers, capsules, the Plaza, Lysgeza and the host registers, with the machine right after reset (`State.reset`). The
fields that are the model's own and not the spec's say so. -/

namespace Sys2Proof.Machine

/-- A finite map as plain data: keys strictly rising. -/
abbrev SMap (α : Type) := List (Nat × α)

/-- Why a machine step stops without a next state. -/
inductive Fault where
  /-- Raised by every instruction when the acting core's issue port holds no task: there is nothing that could execute
  it. Safe: the hardware issues no instruction there. -/
  | noTask
  /-- Raised by the events that perform an access or an engine step whose device address the spec says does not exist
  (R136: spaces 0x3 and 0x5 to 0xF, HBM at or above 768 GiB, a die layer or core that is not there). Safe: the spec gives no
  effect. -/
  | noSuchAddress
  deriving DecidableEq, Repr

/-- Why the model gives no meaning. -/
inductive Refusal where
  /-- Raised by an arm of `exec` that has no meaning yet. Safe: nothing can be proved about the instruction. -/
  | notModelled (mnemonic : String)
  deriving DecidableEq, Repr

/-- The context of a task, R75, R107. -/
structure Task where
  /-- g0 to g15. -/
  g : Vector Word 16
  /-- Guard bits of g0 to g15 (R161). -/
  gg : BitVec 16
  /-- p0 to p7; bit 7 reads 1 (R108). -/
  p : BitVec 8
  /-- lm0 to lm7. -/
  lm : Vector (BitVec 16) 8
  /-- The pc, R109. -/
  pc : Word
  /-- TSR, R110. -/
  tsr : Word
  /-- TID, R112. -/
  tid : Word
  deriving DecidableEq, Repr

/-- What a failed check or a trap reports, R398, R412, R426. -/
structure FaultInfo where
  cls : Nat
  detail : Nat
  aux : Nat
  addr : Nat
  /-- AUX holds a value of a register whose guard bit is set (R161, R400). -/
  guard : Bool
  deriving DecidableEq, Repr

/-- A fault record before its SEQ is assigned, R400. -/
structure FaultRec where
  info : FaultInfo
  member : Nat
  /-- 0 task held, 1 work dropped, 2 capsule ending. -/
  disp : Nat
  role : Nat
  /-- 0xFF when no task is held. -/
  slot : Nat
  layer : Nat
  pc : Nat
  insn : List Byte
  cyc : Nat
  frame : Option Task
  /-- MODEL'S OWN: the work is that of a task which a fault message started (R402). -/
  handler : Bool
  deriving DecidableEq, Repr

/-- A task held on a fault, R401. -/
structure Hold where
  record : FaultRec
  /-- The length of the faulting instruction, 0 when it has none (R414). -/
  len : Nat
  /-- The fault packet has been sent; it is sent once every outstanding result is in (R411). -/
  sent : Bool
  /-- The SEQ the supervisor core assigned. -/
  seq : Option Nat
  deriving DecidableEq, Repr

/-- Why a task is blocked, R83. -/
inductive BlockWhy where
  /-- A granule pending for another slot: the first granule and the count, R83, R118. -/
  | granules (first count : Nat)
  /-- TDEF: a source granule pending for any slot, R333. -/
  | sources (first count : Nat)
  /-- Granules that an earlier qm entry has still to read, R240. -/
  | mqReads (first count : Nat)
  /-- The neighbour's channel is full, or the neighbour is parked, R344. -/
  | channelFull (ch : Nat)
  /-- The core's own channel is empty. -/
  | channelEmpty (ch : Nat)
  /-- The wait of BAR or BARW. -/
  | barrier (group : Nat)
  /-- An engine queue without a free entry: 0 q0, 1 q1, 2 qn, 3 qm. -/
  | queueFull (q : Nat)
  /-- The chunk map is bound to an incomplete copy, R349. -/
  | mapBusy (m : Nat)
  /-- CWAIT: bits of the map still clear, from a base bit, R355. -/
  | mapBits (m base mask : Nat)
  /-- The code table that the last MCODE issued has still to write, R302. -/
  | table (ct : Nat)
  /-- An earlier MMAT of the task is incomplete, R329. -/
  | mmat (entry : Nat)
  /-- The access found no free LSU place: the task waits for the grant of its ticket, R97, R172, R458. -/
  | lsuPlace
  deriving DecidableEq, Repr

/-- The state of a task slot, R79-R83, R95, R401, R479. -/
inductive SlotState where
  | empty
  | ready
  /-- Parked at a switch point until its results are in (R82). -/
  | parked
  | blocked (why : BlockWhy)
  /-- A departure or GO whose results or accesses are not yet in (R95, R181). -/
  | departing
  /-- The departure's packet is under way and not yet accepted. -/
  | sending (pkt : Nat)
  /-- Refused with a ticket, not yet granted (R97). -/
  | ticketed (pkt : Nat)
  /-- Granted, not yet resent. -/
  | granted (pkt : Nat)
  /-- Held on a fault (R401). -/
  | held
  deriving DecidableEq, Repr

/-- The wait half of BAR or BARW in progress, R92, R346, R455. -/
structure BarWait where
  group : Nat
  /-- CYC of the core's layer when the wait began. -/
  began : Nat
  /-- BARTO.LIMIT as the wait began; 0 never times out. -/
  limit : Nat
  /-- The status with which the wait has ended. -/
  result : Option Nat
  deriving DecidableEq, Repr

/-- Where a departure is bound, R95, R100. -/
structure Depart where
  dest : Nat
  /-- GO, and not a departure of promenade mode. -/
  isGo : Bool
  /-- The offset of the instruction that departs (R399). -/
  pc : Nat
  deriving DecidableEq, Repr

/-- One task slot of a core, R79. -/
structure Slot where
  state : SlotState
  task : Task
  /-- Pending bits of g0 to g15, R82. -/
  pend : BitVec 16
  /-- Unswitched marks of g0 to g15, R415. -/
  mark : BitVec 16
  /-- MODEL'S OWN: the number of the task the slot holds, so that results of an ended task are discarded (R264). -/
  serial : Nat
  hold : Option Hold
  depart : Option Depart
  /-- The task was started by a fault message (R402). -/
  fromFault : Bool
  bar : Option BarWait
  /-- The qm entry of the task's last MMAT, on whatever core it was issued (R329). -/
  mmat : Option Nat
  deriving DecidableEq, Repr

/-- A core's membership of a group with its barrier bits, R92, R132, R453, R454. -/
structure Membership where
  group : Nat
  role : Nat
  arrived : Bool
  sense : Bool
  unclaimed : Bool
  status : Nat
  /-- The core has arrived in some phase. -/
  everArrived : Bool
  abandoned : Bool
  deriving DecidableEq, Repr

/-- A pending granule, R113, R118: the slot that writes it, and the result or qm entry that will clear the bit. -/
structure GranPend where
  slot : Nat
  by_ : Nat
  /-- The guard bit its writer will give it (R315). -/
  guard : Bool
  deriving DecidableEq, Repr

/-- The unswitched mark of a granule, R415: the slot that wrote it, and whether an MQ entry set it (R240). -/
structure GranMark where
  slot : Nat
  mq : Bool
  deriving DecidableEq, Repr

/-- A handler entry, R125. -/
structure Handler where
  mask : Bool
  maskGuard : Bool
  pri : Bool
  pc : Nat
  deriving DecidableEq, Repr

/-- A range tracker, R122. -/
structure Tracker where
  bound : Bool
  tens : Bool
  tns : Nat
  base : Nat
  limit : Nat
  deriving DecidableEq, Repr

/-- A register-space granule, R113: 64 bytes and the guard bit. -/
structure Granule where
  data : BitVec 512
  guard : Bool
  deriving DecidableEq, Repr

/-- What a copy entry does, R347. -/
inductive CopyKind where
  | copy | cgath | cscat | credc | cseal
  deriving DecidableEq, Repr

/-- An entry of q0, q1 or qn, R347-R354: everything was captured at issue. -/
structure CopyEntry where
  id : Nat
  kind : CopyKind
  /-- 0 q0, 1 q1, 2 qn. -/
  queue : Nat
  map : Nat
  slot : Nat
  slotSerial : Nat
  member : Nat
  pc : Nat
  insn : List Byte
  /-- Destination, source and index tensor entries as captured. -/
  td : BitVec 1024
  ts : BitVec 1024
  ti : BitVec 1024
  dc : List Nat
  sc : List Nat
  box : List Nat
  /-- FN, RM and SAT. -/
  fn : Nat
  rm : Nat
  sat : Bool
  /-- The index start of CGATH and CSCAT, the label of CSEAL. -/
  ge : Nat
  begun : Bool
  /-- The indexes read when the entry began (R352). -/
  indexes : List Nat
  /-- Chunks of the copy. -/
  chunks : Nat
  /-- Chunks already written. -/
  done : List Nat
  /-- Chunks whose writes are performed and not yet acknowledged: crossing-cache copies are being invalidated, or the remote end of a qn
  copy has still to acknowledge (R167, R349, R370). -/
  unacked : List Nat := []
  /-- CSEAL: the ciphertext of the chunks written. MODEL'S OWN (DESIGN CHOICE, log 11): the rows of an overlapping source box as the entry
  found them when it began. -/
  kept : SMap (List Byte)
  /-- MODEL'S OWN (DESIGN CHOICE, log 11): the 64-byte units of the kept rows, by capsule address div 64, whose guard bit was set then. -/
  keptGuards : List Nat := []
  /-- The absent page the entry waits on (R434): extent index and page. -/
  waitPage : Option (Nat × Nat)
  /-- MODEL'S OWN: a task that a fault message started issued it (R402). -/
  handler : Bool
  deriving DecidableEq, Repr

/-- What a qm entry does, R317. -/
inductive QmOp where
  | mzero | mld | mldSc | mst | mma | mmas | mmar | mmat | macc | mtrn | mcode | tqry
  deriving DecidableEq, Repr

/-- An entry of qm, R314, R328, R325: everything was captured at issue. -/
structure QmEntry where
  id : Nat
  op : QmOp
  f : FmtX
  slot : Nat
  slotSerial : Nat
  member : Nat
  pc : Nat
  insn : List Byte
  fmts : List Nat
  t1 : BitVec 1024
  t2 : BitVec 1024
  t3 : BitVec 1024
  /-- G to G + 3 as read at issue, and the guard bit of the first. -/
  g : List Nat
  gGuard : Bool := false
  /-- MMAR: the source core and the named role. -/
  src : Nat
  role : Nat
  begun : Bool
  /-- MMAR: CYC and BARTO.LIMIT when the fetch was sent. -/
  sentAt : Nat
  limit : Nat
  /-- MMAT: STEPq. -/
  step : Nat
  /-- The guard bit that the granules it writes will have, as known at issue (R315). -/
  guard : Bool
  /-- MMAT: the OR of the guard bits of what it has read so far (R316). -/
  seen : Bool
  /-- Its writes are performed and crossing-cache copies of their lines are being invalidated (R167). -/
  unacked : Bool := false
  waitPage : Option (Nat × Nat)
  /-- MODEL'S OWN: a task that a fault message started issued it (R402). -/
  handler : Bool
  deriving DecidableEq, Repr

/-- A line of the first-level cache, R150; the key is a device address, or 2^64 + a capsule window address, div 64. -/
structure L1Line where
  line : Nat
  data : List Byte
  guard : Bool
  deriving DecidableEq, Repr

/-- An entry of the extent lookaside, R143: member, extent index and, for a sparse extent, the page; `base` is the device address
that it translates the extent's or the page's first byte to. -/
structure Lookaside where
  member : Nat
  ext : Nat
  page : Option Nat
  base : Nat
  deriving DecidableEq, Repr

/-- A ticket an arrival queue or home has issued, R97, R222. -/
structure Ticket where
  /-- The refused packet or access. -/
  pkt : Nat
  granted : Bool
  deriving DecidableEq, Repr

/-- A ticket for places of an LSU, R97, R172: the slot whose instruction was refused and its task, the places it needs, and the
serial at which it was issued. -/
structure LsuTicket where
  slot : Nat
  slotSerial : Nat
  need : Nat
  issued : Nat
  granted : Bool
  deriving DecidableEq, Repr

/-- What waits behind a full arrival queue, R98, R225, R401. -/
inductive LaneItem where
  /-- A packet of the overflow lane. -/
  | lane (pkt : Nat)
  /-- A packet of the spill area that a restore holds in the cluster slice (R225). -/
  | spill (pkt : Nat)
  /-- A fault message not yet entered: its SEQ and its record (R401). -/
  | message (seq : Nat) (record : FaultRec)
  deriving DecidableEq, Repr

/-- A fault that a core has detected and not yet sent, R401, R411; `late`: after the first ending (R406). -/
inductive FaultItem where
  /-- The task held in a slot, whose outstanding results are not in. -/
  | held (slot : Nat) (late : Bool)
  /-- A fault detected after it. -/
  | record (r : FaultRec) (late : Bool)
  deriving DecidableEq, Repr

/-- A core, R75, R113, R123, R146. -/
structure Core where
  /-- The capsule instance the core belongs to, R160. -/
  inst : Option Nat
  role : Nat
  members : List Membership
  /-- The segment pinned on the core in promenade mode: start and length, R94. -/
  seg : Option (Nat × Nat)
  /-- Issue port, R81: the holder, and one more than the count of consecutive instructions of its turn; 0 between turns. -/
  port : Nat
  portCount : Nat
  slots : Vector Slot 8
  /-- The arrival queue, oldest first, as packet numbers, R78. -/
  queue : List Nat
  /-- Tickets the arrival queue issued, oldest first, R97. -/
  tickets : List Ticket
  /-- What waits to enter the arrival queue, in the order in which it will: the packets of the overflow lane (R98), spilled packets
  after a restore (R225), and fault messages (R401). -/
  lane : List LaneItem
  /-- The count of packets that have left the overflow lane, whose index its first packet has (R222). -/
  laneHead : Nat
  /-- Faults detected and not yet sent, in order of detection (R401). -/
  faultQ : List FaultItem
  /-- Register space, by granule, R113; an unlisted granule is zero with a clear guard bit. -/
  regs : SMap Granule
  /-- Granules with an uncorrectable error, R409, R437. -/
  badGrans : List Nat
  rpend : SMap GranPend
  /-- Unswitched marks by granule, R415; a mark outlives its pending bit. -/
  rmark : SMap GranMark
  vwv : Word
  vwm : Word
  vwa : Word
  fmt : Vector (BitVec 32) 4
  fmtGuard : BitVec 4
  /-- Code tables of 16 binary16 entries, R35, R120. -/
  tables : Vector (BitVec 256) 4
  tableGuard : BitVec 4
  hdl : Vector Handler 16
  /-- CLASSM.MODE, R126. -/
  mode : BitVec 24
  /-- BARTO.LIMIT, R127. -/
  barto : BitVec 32
  bartoGuard : Bool
  /-- chN, chE, chS, chW, oldest word first, R87. -/
  channels : Vector (List (Word × Bool)) 4
  trackers : Vector Tracker 16
  /-- The core's tensor table, R312; an unlisted entry is all zero, and so undefined. -/
  tensors : SMap (BitVec 1024)
  /-- Chunk maps of 4,096 bits, R349; an unlisted map has every bit 1. -/
  maps : SMap (BitVec 4096)
  q0 : List CopyEntry
  q1 : List CopyEntry
  qn : List CopyEntry
  qm : List QmEntry
  /-- Joining entries of QFENCE: number and named queues, R174. -/
  joins : List (Nat × BitVec 4)
  /-- First-level cache, most recently used first, R150. -/
  l1 : List L1Line
  /-- Extent lookaside, most recently used first, R143. -/
  lookaside : List Lookaside
  /-- Lookaside fills in progress, R143, R435. -/
  fills : List Lookaside
  /-- Tickets the LSU has issued, oldest first, R172. -/
  lsuTickets : List LsuTicket
  /-- Instruction store blocks held, R99. -/
  istore : List Nat
  /-- Tickets the core's home issued to waiting tagged operations, R148. -/
  homeTickets : List Ticket
  /-- The number of the last acquire of chiplet scope or wider, R152. -/
  acquired : Nat
  /-- The core has been stopped for eviction (R224). -/
  evicting : Bool
  /-- MODEL'S OWN: the save counter of that eviction event, and the roles evicted with it as MMAR partners (R221, R224). -/
  evictAs : Nat × List Nat
  /-- CFGSEL, FRSEL and BAYSEL of the privileged view with their guard bits, R134. -/
  cfgsel : BitVec 32
  frsel : BitVec 32
  baysel : BitVec 32
  selGuard : BitVec 3
  deriving DecidableEq, Repr

/-- What the home does for an access, R147, R270-R283. -/
inductive AccOp where
  | load
  | store
  | put
  | pref (level : Nat)
  | ldf | ldfe | ste | stf | feset | feclr | fetst
  /-- AMO and RED with FN and SZ, R280. -/
  | amo (fn : Nat)
  | red (fn : Nat)
  /-- CAS with the compare value, R281. -/
  | cas (expect : Nat)
  /-- AMOF and REDF with FN, R282. -/
  | amof (fn : Nat)
  | redf (fn : Nat)
  /-- The operand fetch of MMAR, R325. -/
  | fetch
  deriving DecidableEq, Repr

/-- The eight kinds of R164. -/
inductive Kind where
  | r | w | a | f | cr | cw | mr | mw
  deriving DecidableEq, Repr

/-- Where an access stands. -/
inductive AccState where
  /-- No LSU place is free for it yet (R172). -/
  | unplaced
  /-- Not yet sent: held by a fence, the scoreboard, an STL, or a capability in transit. -/
  | held
  /-- Sent on its class and not yet performed. -/
  | sent
  /-- Refused by its home under a ticket (R148). -/
  | ticketed
  | granted
  /-- Refused without a ticket since the given CYC of its core's layer (R458). -/
  | refused (since : Nat)
  /-- Waiting in its word's queue at the home (R148), or at a refreshing bank (R155). -/
  | waiting
  /-- Performed; the reply or acknowledgement is under way. -/
  | performed
  /-- The reply has arrived; the value is not yet in the destination. -/
  | replied
  deriving DecidableEq, Repr

/-- An access between issue and completion, R164-R172. -/
structure Access where
  /-- The number of the access, in issue order. -/
  id : Nat
  core : Nat
  slot : Nat
  slotSerial : Nat
  inst : Nat
  member : Nat
  pc : Nat
  insn : List Byte
  kind : Kind
  op : AccOp
  /-- Capsule address and the device address it translates to (or 2^64 + a capsule window address). -/
  ca : Nat
  addr : Nat
  size : Nat
  /-- The runs of the whole vector access that this element access belongs to (R294); none for a scalar access. -/
  span : List (Nat × Nat)
  data : List Byte
  /-- Bit i: byte i of the data is stored (a vector store writes the bytes of its active elements). -/
  mask : BitVec 64
  guard : Bool
  /-- Index and GUARD bit of the extent; none for the capsule windows. -/
  ext : Option Nat
  extGuard : Bool
  msa : Bool
  lane : Nat
  /-- Route class and destination core of a PUT; class 0 otherwise. -/
  cls : Nat
  /-- STL: the accesses and entries it still waits for, and its scope (R179). -/
  stl : Option (Nat × List Nat)
  /-- The result and the part of it that the value fills. -/
  result : Option (Nat × Nat)
  /-- The engine entry an engine access belongs to. -/
  entry : Option Nat
  state : AccState
  /-- Arrival number at the home's queue, or the order of sending. -/
  order : Nat
  /-- The order in which its home performed it, for replies on class 1 (R85); 0 when the core's own cache did. -/
  perf : Nat
  /-- The word whose queue it waits in, by device address div 8 (R148, R325). -/
  word : Nat
  /-- A load that may fill the first-level cache with its line (R150). -/
  fill : Bool
  line : List Byte
  reply : List Byte
  replyGuard : Bool
  deriving DecidableEq, Repr

/-- Where a variable-latency result goes, R82. -/
inductive Dst where
  /-- `count` registers from `first`; each part fills registers of `size` bytes, sign-extended when `sx`. -/
  | regs (first count size : Nat) (sx : Bool)
  /-- Part i goes to register space from the given offset; bit b of the mask says that byte b of the part is written. -/
  | space (cells : List (Nat × BitVec 64))
  /-- Nothing. -/
  | none
  deriving DecidableEq, Repr

/-- A variable-latency result not yet written, R82. -/
structure Result where
  id : Nat
  /-- The instance whose task is due it: a parked role's results keep the number of its last core. -/
  inst : Nat
  core : Nat
  slot : Nat
  slotSerial : Nat
  dst : Dst
  /-- The parts, each with its bytes and guard bit once it is in. -/
  parts : List (Option (List Byte × Bool))
  /-- The granules that are pending for the result. -/
  grans : List Nat
  /-- The task has ended: the result is discarded (R264). -/
  dropped : Bool
  deriving DecidableEq, Repr

/-- A FENCE or LDA that still holds later accesses of its task, R175, R178. -/
structure Fence where
  id : Nat
  inst : Nat
  core : Nat
  slot : Nat
  slotSerial : Nat
  isLda : Bool
  scope : Nat
  /-- Kinds of later accesses held, R64. -/
  succ : BitVec 8
  /-- LDA: the ranges of its list; none: every later access, sends included. -/
  ranges : Option (List (Nat × Nat))
  /-- The LSU accesses it waits for, by number. -/
  waits : List Nat
  /-- The engine entries it waits for: they hold no later engine entry (R284). -/
  entries : List Nat
  /-- FENCE: its LSU accesses are complete and its acquire action has been performed, so that it holds no engine entry any more, while
  engine entries that it waits for still are incomplete (R284; DEDUCED, log 59). -/
  entriesFree : Bool := false
  deriving DecidableEq, Repr

/-- What a packet carries, R76, R77, R401. -/
inductive PktBody where
  /-- A task context; the task's last MMAT (R329), and whether a fault message started it (R402), are the model's own. -/
  | task (t : Task) (mmat : Option Nat) (fromFault : Bool)
  /-- A message of SEND or SPSEND: TID, MEMBER and payload words with guard bits. -/
  | message (tid member : Nat) (words : List (Word × Bool))
  /-- A fault message (R402). -/
  | faultMessage (tid member : Nat) (words : List (Word × Bool))
  /-- A fault packet on its way to the supervisor core; `late`: the fault was detected after the first ending (R406). -/
  | fault (r : FaultRec) (late : Bool)
  | resume (words : List (Word × Bool))
  /-- A combining message of a message-combined barrier: group, from role, and for the way down the status. -/
  | barrier (group role : Nat) (down : Option Nat)
  /-- A ticket grant: the number of the refused packet or access (R97, R476). -/
  | grant (ticket : Nat)
  deriving DecidableEq, Repr

/-- Where a packet stands. -/
inductive PktState where
  /-- Held at its sender by a fence (R164). -/
  | held
  /-- In the network. -/
  | moving
  /-- In an arrival queue, overflow lane or spill area. -/
  | queued
  /-- Refused with a ticket. -/
  | ticketed
  /-- Granted. -/
  | granted
  /-- Refused without a ticket since the given CYC of the sender's layer (R458). -/
  | refused (since : Nat)
  /-- Waiting at its sender for a parked core (R223). -/
  | parkedWait
  deriving DecidableEq, Repr

/-- A packet of classes 2 to 15, R76, R77, R476. -/
structure Packet where
  id : Nat
  inst : Nat
  src : Nat
  dest : Nat
  cls : Nat
  body : PktBody
  state : PktState
  /-- The sending task's slot and number, when a task waits for the packet or a fence may hold it. -/
  slot : Nat
  slotSerial : Nat
  /-- The task waits in its slot for the packet's acceptance (departures, GO, children). -/
  parks : Bool
  /-- The packet is the task of the slot itself, which leaves with it. -/
  leaves : Bool
  /-- The role of group 0 the packet is bound for (a parked role has no core). -/
  role : Nat
  /-- The order of sending (R169). -/
  order : Nat
  /-- The offset of the instruction that sent it; none for the Plaza's and the device's own (R399). -/
  pc : Option Nat
  /-- It has waited at its sender for a parked role whose spill area was full: it enters in its sender's order (R223). -/
  spillHeld : Bool := false
  deriving DecidableEq, Repr

/-- A writer capability in transit, R145, R357. -/
structure CapMove where
  id : Nat
  inst : Nat
  member : Nat
  ext : Nat
  fromCore : Nat
  toCore : Nat
  /-- The old core's accesses and entries into the extent, by number. -/
  waits : List Nat
  deriving DecidableEq, Repr

/-- A line that a cache slice holds, R151. -/
structure SliceLine where
  line : Nat
  lane : Nat
  guard : Bool
  dirty : Bool
  deriving DecidableEq, Repr

/-- A read-only copy in a crossing cache, R152: near chiplet, next chiplet, line, lane. -/
structure CrossLine where
  chiplet : Nat
  port : Nat
  line : Nat
  lane : Nat
  guard : Bool
  filled : Nat
  /-- A write at the line's home is invalidating the copy: it may still be returned (R168). -/
  dying : Bool
  data : List Byte
  deriving DecidableEq, Repr

/-- A die layer, R17, R128, R130. -/
structure Layer where
  cyc : Word
  /-- Position in the refresh rotation, 0 to 121,599. -/
  wsPos : Nat
  /-- The bank whose refresh window is open. -/
  wsBusy : Option Nat
  deriving DecidableEq, Repr

/-- An extent, R138, with the index it has in its member's posted capsule (R214); VBASE, LEN and DBASE in bytes. -/
structure Extent where
  index : Nat
  allm : Bool
  member : Nat
  vbase : Nat
  wrole : Nat
  len : Nat
  dbase : Nat
  sparse : Bool
  ws : Bool
  msa : Bool
  guard : Bool
  u : Bool
  x : Bool
  w : Bool
  r : Bool
  deriving DecidableEq, Repr

/-- A group descriptor and its binding, R89, R90, R194: `cores` gives the core of each role. -/
structure Group where
  shape : Nat
  scope : Nat
  a : Nat
  b : Nat
  lext : Nat
  laddr : Nat
  cores : List Nat
  /-- The barrier is broken (R454). -/
  broken : Bool
  /-- CYC of the layer at the last arrival of a phase all of whose members have arrived (R93). -/
  complete : Option Nat
  /-- Message-combined barrier: the roles whose counts the combining slots of each role's logic hold: a slot for each child (R93, R97). -/
  counted : List (Nat × Nat)
  /-- The tickets that the combining slots have issued, oldest first, each with the child whose slot it is for (R97, R458). -/
  tickets : List (Nat × Ticket) := []
  deriving DecidableEq, Repr

/-- A segment map entry with its replicas, R94, R195. -/
structure Segment where
  start : Nat
  len : Nat
  roles : List Nat
  deriving DecidableEq, Repr

/-- The header of a capsule, R193. -/
structure Header where
  magic : Nat
  version : Nat
  length : Nat
  codeid : List Byte
  owner : Nat
  prio : Nat
  prioRsv : Nat
  fclass : Nat
  flags : Nat
  regs : Nat
  scratch : Nat
  overflow : Nat
  part : List Nat
  super : Nat
  xext : Nat
  next : Nat
  entry : Nat
  codelen : Nat
  codeaddr : Nat
  compl : Nat
  views : List Nat
  fmts : List Nat
  classmode : Nat
  hdls : List Nat
  ngroup : Nat
  ntens : Nat
  nseg : Nat
  arglen : Nat
  nrost : Nat
  npool : Nat
  park : Nat
  deriving DecidableEq, Repr

/-- A member of a launch, R213, R214, R219. -/
structure Member where
  args : List Byte
  compl : Nat
  nfault : Nat
  first : Nat
  deriving DecidableEq, Repr

/-- The stages of R206, R211 and R218. -/
inductive Stage where
  /-- Taken, checked, instance and lane assigned. -/
  | taken
  /-- The code image is verified; the gang is being placed: the dispatchers that are ready, each with its cores. -/
  | placing (ready : List (Nat × List Nat))
  /-- The commit waits for the operating point (R227). -/
  | pointWait (ready : List (Nat × List Nat))
  | running
  /-- Steps 1 to 5 of R218. -/
  | completing
  deriving DecidableEq, Repr

/-- A parked image's record, R225: role, save counter and tag. -/
structure ParkRec where
  role : Nat
  counter : Nat
  tag : List Byte
  deriving DecidableEq, Repr

/-- A parked role: what its image holds, kept beside the encrypted bytes in memory, R222, R223. -/
structure Parked where
  role : Nat
  counter : Nat
  /-- The role's core as the image saved it. -/
  saved : Core
  /-- The scratchpad: its bytes, its full words and its guarded lines, by offset div 8 and div 64. -/
  scratch : List Byte
  fullWords : List Nat
  guardLines : List Nat
  /-- Packets spilled, by number, in spill order. -/
  spills : List Nat
  /-- The cluster pair partner roles evicted with it (R221). -/
  partners : List Nat
  deriving DecidableEq, Repr

/-- The holder of a writer capability, R145: member and extent index, and the role that holds it. -/
structure Holder where
  member : Nat
  ext : Nat
  role : Option Nat
  /-- HANDOVER.c: the child that takes it at completion (R217). -/
  child : Option Nat
  deriving DecidableEq, Repr

/-- A launch from its taking to its completion, R206-R219, R400, R405. -/
structure Capsule where
  inst : Nat
  /-- The host queue it was taken from; none for a child. -/
  queue : Option Nat
  /-- A child's post number and its parent's instance. -/
  post : Option Nat
  parent : Option Nat
  hdr : Header
  /-- The address the (first) capsule was read from, or the template's. -/
  origin : Nat
  merged : Bool
  members : List Member
  exts : List Extent
  groups : List Group
  tensors : SMap (BitVec 1024)
  segs : List Segment
  roster : List Nat
  lane : Nat
  code : List Byte
  stage : Stage
  /-- The status of the first ending to reach the Plaza. -/
  status : Nat
  /-- Endings sent and not yet taken: the status and, for DONE, nothing else. -/
  endReqs : List Nat
  killed : Bool
  holders : List Holder
  /-- Fault records, SEQ rising; a record older than 4,096 is overwritten (R400). -/
  records : List (FaultRec × Nat)
  /-- Words of records that a system capsule has written through FRDAT since, by offset in the record area div 8 (R134). -/
  recWords : SMap (Word × Bool)
  /-- The number of records written: FREC.COUNT modulo 2^16. -/
  recCount : Nat
  discarded : Nat
  saveCounter : Nat
  wasParked : Bool
  parked : List Parked
  /-- First load of a seed or restored image on each layer: CYC (R219). -/
  firstLoad : SMap Nat
  /-- PKGID and PODSZ as they stood when the capsule was launched, in the layout of ONZID: its discovery table holds them (R6, R188,
  R189). -/
  onzId : Nat := 0
  deriving DecidableEq, Repr

/-- A CPOST on its way, or the child it queued, R184, R215. -/
structure Post where
  id : Nat
  inst : Nat
  core : Nat
  slot : Nat
  slotSerial : Nat
  member : Nat
  pc : Nat
  insn : List Byte
  addr : Nat
  /-- The earlier accesses and entries of the core it waits for. -/
  waits : List Nat
  /-- The sealed child, once queued. -/
  image : List Byte
  prio : Nat
  after : Bool
  queued : Bool
  /-- The walker has taken the child; the post is kept while its parent may name it (R357). -/
  taken : Bool
  /-- The order in which children were queued (R215). -/
  queuedAt : Nat
  /-- Extents of the child whose writer capability its parent has promised and not yet moved (R217). -/
  barred : List Nat
  /-- MODEL'S OWN: a task that a fault message started issued it (R402). -/
  handler : Bool
  deriving DecidableEq, Repr

/-- A host queue: its registers and its QSB, R200, R202, R363. -/
structure Queue where
  en : Bool
  merge : Bool
  qprio : Nat
  slotlog : Nat
  array : Nat
  consumed : Nat
  latch : Nat
  own : Bool
  deriving DecidableEq, Repr

/-- A parking bay, R225. -/
structure Bay where
  inst : Nat
  owner : Nat
  counter : Nat
  digest : List Byte
  /-- The record list, which the Plaza keeps, in ascending role order. -/
  records : List ParkRec
  /-- The guard bit that MTS last gave each of its ten words (R124, R134). -/
  guards : BitVec 10 := 0
  deriving DecidableEq, Repr

/-- What the walker serves: a host queue or the child queue of a priority, R203. -/
inductive Serve where
  | queue (q : Nat)
  | child (prio : Nat)
  deriving DecidableEq, Repr

/-- The Plaza, R200-R228, R447-R451. -/
structure Plaza where
  queues : SMap Queue
  /-- Host queues on the run list of each priority, in list order. -/
  runLists : SMap (List Nat)
  /-- The QSB served last at each priority. -/
  lastServed : SMap Serve
  serving : Option Serve
  posts : List Post
  /-- The identity cache: CODEID and the image. -/
  idCache : List (List Byte × List Byte)
  instCount : Nat
  /-- Owner lanes: lane and owner. -/
  lanes : SMap Nat
  bays : List Bay
  /-- Consecutive refusals of a parking slot: instance, role, count (R451). -/
  refusals : List (Nat × Nat × Nat)
  restarts : Nat
  halted : Bool
  /-- Vectors whose message is due (R368). -/
  msixDue : List Nat
  deriving DecidableEq, Repr

/-- An HBM window, R365. -/
structure Window where
  base : Nat
  size : Nat
  owner : Nat
  en : Bool
  refused : Bool
  token : List Byte
  deriving DecidableEq, Repr

/-- An Ethernet port, R372. -/
structure EthPort where
  ctl : Nat
  mac : Nat
  ip : Nat
  /-- Frames dropped by MACsec checks. -/
  drops : Nat
  /-- SA0 to SA15, 64 bytes each. -/
  sas : SMap (BitVec 512)
  deriving DecidableEq, Repr

/-- An Onazal port, R371. -/
structure OnzPort where
  up : Bool
  lanes : Nat
  retrains : Nat
  deriving DecidableEq, Repr

/-- Where a piece of an inbound request stands. -/
inductive PieceState where
  | waiting | sent | performed | answered
  deriving DecidableEq, Repr

/-- A line piece of an inbound request, R364, R397. -/
structure LinePiece where
  /-- Its number as an access at its home. -/
  id : Nat
  index : Nat
  addr : Nat
  size : Nat
  /-- The bytes written, or, once performed, the bytes read. -/
  data : List Byte
  state : PieceState
  /-- The order of sending. -/
  order : Nat
  /-- It met an uncorrectable error (R409). -/
  failed : Bool
  deriving DecidableEq, Repr

/-- An inbound posted write with its unacknowledged pieces, or an inbound read, R364. -/
structure Inbound where
  /-- The sequence number of a write. -/
  seq : Nat
  rid : Nat
  /-- The owner of its window; 0 for an open one. -/
  owner : Nat
  read : Bool
  addr : Nat
  pieces : List LinePiece
  deriving DecidableEq, Repr

/-- What a request from another package asks of the home, R270, R369. -/
inductive RemoteOp where
  | load
  | store
  /-- An atomic or reduction of R280 to R282, with the operation as a core's access names it. -/
  | atomic (op : AccOp)
  deriving DecidableEq, Repr

/-- A request from another package, R369. -/
structure RemoteReq where
  id : Nat
  owner : Nat
  op : RemoteOp
  addr : Nat
  size : Nat
  /-- The data of a store, or the operand of an atomic. -/
  store : List Byte
  /-- The guard bit of the data, and MSA of the extent it came through. -/
  guard : Bool
  msa : Bool
  /-- The instance of the requesting capsule, and whether it is a stocking one (R154, R160). -/
  inst : Nat
  stock : Bool
  /-- The requesting core and its package: requests of one core to one home keep their order (R85, R369). -/
  core : Nat
  pkg : Nat
  /-- The home has performed it, with the bytes of its reply, or has met an uncorrectable error of a level (R409). -/
  reply : Option (List Byte × Nat) := none
  deriving DecidableEq, Repr

/-- What leaves the package. -/
inductive HostOut where
  | msix (vector : Nat)
  | readData (rid addr : Nat) (data : List Byte)
  | unsupported (rid addr : Nat)
  /-- An RDMA WRITE and an RDMA READ towards a peer: port, queue pair, remote key, remote address (R370). -/
  | rdma (peer port qpn rkey addr : Nat) (data : List Byte)
  | rdmaRead (peer port qpn rkey addr n : Nat)
  | remoteReply (id : Nat) (data : List Byte)
  /-- A request from another package met an uncorrectable error: the level code (R409). -/
  | remoteError (id code : Nat)
  /-- A request of an access to another package leaves by an Onazal port, with the owner id of its capsule (R369). -/
  | onazal (port id pkg addr owner : Nat)
  deriving DecidableEq, Repr

/-- An entry of the device error log, R408. -/
structure LogEntry where
  unit : Nat
  location : Nat
  /-- 0 corrected, 1 uncorrected, 2 link replay, 3 link retrain, 4 refused seal, 5 lock mismatch. -/
  kind : Nat
  count : Nat
  cyc : Nat
  deriving DecidableEq, Repr

/-- A copy of the signed blob in flash, R375. -/
structure Blob where
  /-- The ML-DSA-87 signature verifies under the vendor key. -/
  signed : Bool
  version : Nat
  bytes : List Byte
  /-- Cores mapped out, and cores of the 24 KiB class. -/
  absent : List Nat
  small : List Nat
  /-- Home cluster substitutions: mapped-out cluster and substitute (R137). -/
  subst : SMap Nat
  /-- Code identities with a vendor signature (R134). -/
  system : List (List Byte)
  /-- Vendor ID and Subsystem IDs (R361). -/
  ids : Nat
  deriving DecidableEq, Repr

/-- Power states, R374. -/
inductive Power where
  | run | idle | gated
  deriving DecidableEq, Repr

/-- The host registers and the units of the I/O dies and Lysgeza, R361-R381. -/
structure HostRegs where
  ready : Bool
  error : Bool
  power : Power
  pwrctl : Nat
  /-- A commanded change is not yet made. -/
  pwrPending : Bool
  waking : Bool
  opctl : Nat
  opdef : Vector Nat 4
  /-- Operating point each chiplet runs at. -/
  points : Vector Nat 6
  killGo : Bool
  killResult : Nat
  killInst : Nat
  windows : SMap Window
  lock : BitVec 17
  lockErr : BitVec 17
  /-- Digest of each locked domain. -/
  digests : SMap (List Byte)
  onzId : Nat
  onzCtl : Nat
  onzPorts : Vector OnzPort 18
  eth : Vector EthPort 12
  /-- Peer table entries of 64 bytes. -/
  peers : SMap (BitVec 512)
  mbCode : Nat
  mbResult : Nat
  /-- Mailbox request and reply areas: offset in BAR0 and byte. -/
  mbox : SMap Byte
  /-- What the host has written to the PCI Express configuration space, by offset (R361; PRESUMED, log 101). -/
  pcieCfg : SMap Byte
  /-- The uncorrectable error status of Advanced Error Reporting (R361, R439; PRESUMED, log 101). -/
  aer : BitVec 32
  msixMask : List Nat
  /-- Items written through CFGDAT, FRDAT and BAYDAT, with their guard bits: window × 2^32 + index (R124, R134; DESIGN CHOICE, log 20). -/
  priv : SMap (Word × Bool)
  inboundSeq : Nat
  inbound : List Inbound
  remote : List RemoteReq
  /-- Forwarded writes to host space whose flushing read is still to complete: the number of the access or entry, and the
  instance (R176). -/
  flushes : List (Nat × Nat)
  /-- Replay counts: link, flit, failures (R410). -/
  replays : List (Nat × Nat × Nat)
  flashA : Blob
  flashB : Blob
  minVersion : Nat
  /-- The accepted blob, once brought up. -/
  blob : Option Blob
  measurement : List Byte
  errlog : List LogEntry
  out : List HostOut
  deriving DecidableEq, Repr

/-- MODEL'S OWN (DESIGN CHOICE, log 1): whose turn it is. The clocks of the listed layers advance by the given cycles, and then the
core issues, or the event takes place. -/
inductive Act where
  | issue (core : Nat)
  | event (i : Instr)
  deriving DecidableEq, Repr

/-- MODEL'S OWN (DESIGN CHOICE, log 1 and 2): one turn. -/
structure Turn where
  clocks : List (Nat × Nat)
  act : Act
  deriving DecidableEq, Repr

/-- The machine. -/
structure State where
  /-- MODEL'S OWN (DESIGN CHOICE, log 1): the coming turns. -/
  agenda : List Turn
  /-- MODEL'S OWN (DESIGN CHOICE, log 1): the core whose issue turn it is. -/
  actor : Nat
  /-- MODEL'S OWN (DESIGN CHOICE, log 6): the number of free values drawn. -/
  freeCount : Nat
  /-- MODEL'S OWN (DESIGN CHOICE, log 1): numbers accesses, entries, packets, fences and results in order of issue. -/
  serial : Nat
  /-- Cores, R190 numbers; an unlisted core is idle. -/
  cores : SMap Core
  /-- Memory by device address, R136; an unlisted byte reads 0. -/
  mem : List Host.Cell
  /-- The key under which an HBM line was last written, by line: 0 never written, 1 the open key, an owner id plus 2
  otherwise (R159, R367). -/
  hbmKeys : SMap Nat
  /-- Scratchpad words whose full/empty bit is full, by device address div 8, R146. -/
  full : SMap Bool
  /-- Scratchpad lines whose guard bit is set, by device address div 64. -/
  sguard : SMap Bool
  /-- Residency tags: the capsule instance that last wrote a scratchpad line, by device address div 64 (R160). -/
  stag : SMap Nat
  slice : List SliceLine
  cross : List CrossLine
  /-- Stock tags by 16 × layer + bank, R156. -/
  stock : SMap Nat
  /-- Lines with an uncorrectable error: level code by device line, R437. -/
  bad : SMap Nat
  /-- Homes that failed their self-check: unit code and index, R438. -/
  failedHomes : List (Nat × Nat)
  accesses : List Access
  results : List Result
  fences : List Fence
  packets : List Packet
  capMoves : List CapMove
  layers : Vector Layer 12
  capsules : List Capsule
  plaza : Plaza
  host : HostRegs
  deriving DecidableEq, Repr

/-- A task with every register zero but p7 and lm0 (R80). -/
def Task.fresh : Task :=
  { g := Vector.replicate 16 0, gg := 0, p := 0x80, lm := (Vector.replicate 8 0).set 0 0xFFFF, pc := 0, tsr := 0, tid := 0 }

/-- An empty slot. -/
def Slot.fresh : Slot :=
  { state := .empty, task := Task.fresh, pend := 0, mark := 0, serial := 0, hold := none, depart := none,
    fromFault := false, bar := none, mmat := none }

/-- The launch values of the code tables: the E2M1 values as binary16, entry e for code e (R35). -/
def e2m1Table : BitVec 256 :=
  BitVec.ofNat 256 0xC600C400C200C000BE00BC00B800800046004400420040003E003C0038000000

/-- A core before any launch: its registers at their launch defaults (R86, R115, R119, R127). -/
def Core.idle : Core :=
  { inst := none, role := 0, members := [], seg := none, port := 7, portCount := 0,
    slots := Vector.replicate 8 Slot.fresh, queue := [], tickets := [], lane := [], laneHead := 0, faultQ := [],
    regs := [], badGrans := [], rpend := [], rmark := [], vwv := 0x00800000, vwm := 0x00200000, vwa := 0x00104000,
    fmt := #v[0x08801200, 0x11107200, 0x1160F200, 0xD0000200], fmtGuard := 0,
    tables := Vector.replicate 4 e2m1Table, tableGuard := 0,
    hdl := ((Vector.replicate 16 ⟨true, false, false, 0⟩).set 0 ⟨false, false, false, 0⟩ |>.set 1 ⟨false, false, false, 0⟩)
      |>.set 2 ⟨false, false, false, 0⟩,
    mode := 0, barto := 1000000, bartoGuard := false, channels := Vector.replicate 4 [],
    trackers := Vector.replicate 16 ⟨false, false, 0, 0, 0⟩, tensors := [], maps := [], q0 := [], q1 := [], qn := [],
    qm := [], joins := [], l1 := [], lookaside := [], fills := [], lsuTickets := [], istore := [], homeTickets := [], acquired := 0,
    evicting := false, evictAs := (0, []), cfgsel := 0, frsel := 0, baysel := 0, selGuard := 0 }

/-- The blob the model's flash holds at reset: no repairs, version 0 (DESIGN CHOICE, log 5). -/
def Blob.plain : Blob :=
  { signed := true, version := 0, bytes := [], absent := [], small := [], subst := [], system := [], ids := 0 }

/-- The host registers right after reset (R363, R365, R373, R380, R441, R463; DESIGN CHOICE, log 5 for the others). -/
def HostRegs.reset : HostRegs :=
  { ready := false, error := false, power := .run, pwrctl := 0, pwrPending := false, waking := false,
    opctl := 0xFFF, opdef := #v[600, 600, 600, 1900], points := Vector.replicate 6 0,
    killGo := false, killResult := 0, killInst := 0, windows := [], lock := 0, lockErr := 0, digests := [],
    onzId := 0, onzCtl := 0, onzPorts := Vector.replicate 18 ⟨false, 0, 0⟩,
    eth := Vector.replicate 12 ⟨0, 0, 0, 0, []⟩, peers := [], mbCode := 0, mbResult := 0, mbox := [], pcieCfg := [], aer := 0,
    msixMask := [], priv := [], inboundSeq := 0, inbound := [], remote := [], flushes := [], replays := [],
    flashA := Blob.plain, flashB := Blob.plain, minVersion := 0, blob := none, measurement := [], errlog := [], out := [] }

/-- The Plaza right after reset: no queue configured, nothing taken (DESIGN CHOICE, log 5: the first instance number is 1). -/
def Plaza.reset : Plaza :=
  { queues := [], runLists := [], lastServed := [], serving := none, posts := [], idCache := [], instCount := 1,
    lanes := [], bays := [], refusals := [], restarts := 0, halted := false, msixDue := [] }

/-- The machine right after reset. -/
def State.reset : State :=
  { agenda := [], actor := 0, freeCount := 0, serial := 0, cores := [], mem := [], hbmKeys := [], full := [],
    sguard := [], stag := [], slice := [], cross := [], stock := [], bad := [], failedHomes := [], accesses := [], results := [],
    fences := [], packets := [], capMoves := [], layers := Vector.replicate 12 ⟨0, 0, none⟩, capsules := [],
    plaza := Plaza.reset, host := HostRegs.reset }

end Sys2Proof.Machine
end

