-- ==== Sys2Proof/Machine/Ops.lean ====
section
/-! DEFINITION. The named operations over the state: finite maps, memory by device address, the geometry of the package,
cores, slots and task registers, the register space, the issue of an instruction (R81-R83, R411), taking a fault as ONE
shared operation (`takeFault`, R398-R401, R411) and releasing a held task (`releaseTask`, R404). -/

namespace Sys2Proof.Machine

/-! Finite maps -/

/-- The value at a key; an unlisted key reads as the default. -/
def SMap.get {α : Type} (d : α) : SMap α → Nat → α
  | [], _ => d
  | (k, v) :: m, n => if n = k then v else if n < k then d else SMap.get d m n

/-- Insert or replace, keeping the keys strictly rising. -/
def SMap.put {α : Type} : SMap α → Nat → α → SMap α
  | [], n, x => [(n, x)]
  | (k, v) :: m, n, x =>
    if n = k then (k, x) :: m else if n < k then (n, x) :: (k, v) :: m else (k, v) :: SMap.put m n x

/-- Remove a key. -/
def SMap.erase {α : Type} : SMap α → Nat → SMap α
  | [], _ => []
  | (k, v) :: m, n => if n = k then m else (k, v) :: SMap.erase m n

/-- Set the value at a key, an entry at the default being removed, so that equal maps are equal lists: memory alone is kept
so. -/
def SMap.set {α : Type} [DecidableEq α] (d : α) (m : SMap α) (n : Nat) (x : α) : SMap α :=
  if x = d then SMap.erase m n else SMap.put m n x

/-- The canonical form: keys strictly rising and no entry at the default. -/
def SMap.wf {α : Type} [DecidableEq α] (d : α) : SMap α → Bool
  | [] => true
  | [(_, v)] => decide (v ≠ d)
  | (k, v) :: (k', v') :: m => decide (v ≠ d) && decide (k < k') && SMap.wf d ((k', v') :: m)

/-- The keys are strictly rising. -/
def SMap.rising {α : Type} : SMap α → Bool
  | [] => true
  | [_] => true
  | (k, _) :: (k', v') :: m => decide (k < k') && SMap.rising ((k', v') :: m)

/-! Memory -/

/-- What an unlisted byte of memory reads as (R146 for scratchpads; DESIGN CHOICE, log 4 elsewhere). -/
def memDefault : Byte := 0

/-- The canonical form of memory. -/
abbrev Memory.wf (m : List Host.Cell) : Prop := SMap.wf memDefault m = true

/-- One byte of memory. -/
def readByte (m : List Host.Cell) (a : Nat) : Byte := SMap.get memDefault m a

/-- `n` bytes from an address. -/
def readBytes (m : List Host.Cell) (a : Nat) : Nat → List Byte
  | 0 => []
  | n + 1 => readByte m a :: readBytes m (a + 1) n

/-- Store one byte. -/
def writeByte (m : List Host.Cell) (a : Nat) (b : Byte) : List Host.Cell := SMap.set memDefault m a b

/-- Store bytes at rising addresses. -/
def writeBytes (m : List Host.Cell) (a : Nat) : List Byte → List Host.Cell
  | [] => m
  | b :: bs => writeBytes (writeByte m a b) (a + 1) bs

/-- Store zeros over a range, keeping every byte outside it. -/
def clearRange (m : List Host.Cell) (lo hi : Nat) : List Host.Cell := m.filter fun c => decide (c.1 < lo ∨ hi ≤ c.1)

/-! Geometry (R9, R12, R190) -/

/-- The die layer of a core, 0 to 11. -/
def layerOf (core : Nat) : Nat := core / 1536
/-- The chiplet of a core. -/
def chipletOf (core : Nat) : Nat := core / 3072
/-- Row and column within the die layer. -/
def rowOf (core : Nat) : Nat := core % 1536 / 48
def colOf (core : Nat) : Nat := core % 48
/-- The core at a layer, row and column. -/
def coreAt (layer row col : Nat) : Nat := layer * 1536 + row * 48 + col
/-- The cluster number of a core, R190. -/
def clusterOf (core : Nat) : Nat := layerOf core * 192 + rowOf core / 2 * 12 + colOf core / 4
/-- A cluster's chiplet, layer and router coordinates (column, row). -/
def clusterLayer (cl : Nat) : Nat := cl / 192
def clusterX (cl : Nat) : Nat := cl % 12
def clusterY (cl : Nat) : Nat := cl % 192 / 12
/-- The paired cluster, R325. -/
def pairOf (cl : Nat) : Nat := if cl % 2 = 0 then cl + 1 else cl - 1

/-- The absolute difference of two numbers. -/
def absDiff (a b : Nat) : Nat := (a - b) + (b - a)

/-- The distance between two clusters, R91. -/
def clusterDistance (a b : Nat) : Nat :=
  let la := clusterLayer a
  let lb := clusterLayer b
  absDiff (clusterX a) (clusterX b) + absDiff (clusterY a) (clusterY b) +
    (if la = lb then 0
     else if la / 2 = lb / 2 then 4
     else if la / 6 = lb / 6 then 32 else 64)

/-- The distance between two cores, R91. -/
def coreDistance (a b : Nat) : Nat := clusterDistance (clusterOf a) (clusterOf b)

/-- The lowest scope of R9 that holds two cores. -/
def scopeOf (a b : Nat) : Nat :=
  if a = b then 1 else if clusterOf a = clusterOf b then 2 else if layerOf a = layerOf b then 3
  else if chipletOf a = chipletOf b then 4 else if chipletOf a / 3 = chipletOf b / 3 then 5 else 6

/-- Scratchpad device address of a core and offset, R136, on package `pkg`. -/
def scratchAddr (pkg core off : Nat) : Nat :=
  2 * 2 ^ 60 + pkg * 2 ^ 47 + chipletOf core * 2 ^ 29 + core / 1536 % 2 * 2 ^ 28 + core % 1536 * 2 ^ 17 + off

/-- Fields of a device address, R136. -/
def devSpace (a : Nat) : Nat := bits a 60 4
def devPkg (a : Nat) : Nat := bits a 47 13
def devLocal (a : Nat) : Nat := bits a 0 47
/-- The core that holds a scratchpad device address. -/
def scratchCore (a : Nat) : Nat := (bits a 29 3 * 2 + bits a 28 1) * 1536 + bits a 17 11
/-- Weight store layer and bank of a device address. -/
def wsLayer (a : Nat) : Nat := bits a 28 4
def wsBank (a : Nat) : Nat := bits a 24 4

/-- A device address exists, R136: HBM below 768 GiB, a bank of a die layer, a byte of a core's scratchpad, or host space. -/
def addrExists (a : Nat) : Bool :=
  match devSpace a with
  | 0 => decide (devLocal a < 768 * 2 ^ 30)
  | 1 => decide (bits a 32 15 = 0 ∧ wsLayer a < 12)
  | 2 => decide (bits a 32 15 = 0 ∧ bits a 29 3 < 6 ∧ bits a 17 11 < 1536)
  | 4 => true
  | _ => false

/-- The package's own id, from the Onazal block (R371, R373). -/
def State.pkgId (s : State) : Nat := bits s.host.onzId 0 13

/-- HBM chiplet of a local address, R137. -/
def hbmChiplet (loc : Nat) : Nat := loc / 2048 % 6

/-- HBM stack of a local address, R137. -/
def hbmStack (loc : Nat) : Nat := 2 * hbmChiplet loc + loc / 2048 / 6 % 2

/-- Home cluster of an HBM local address before substitution, R137. -/
def hbmCluster (loc : Nat) : Nat :=
  hbmChiplet loc * 384 + bits (loc / 64 * 0x9E3779B97F4A7C15) 48 16 % 384

/-- Home cluster after the repair map's substitution, R137. -/
def State.homeCluster (s : State) (loc : Nat) : Nat :=
  let h := hbmCluster loc
  match s.host.blob with
  | some b => SMap.get h b.subst h
  | none => h

/-! Cores, slots, capsules -/

/-- A core; an unlisted core is idle. -/
def State.core (s : State) (c : Nat) : Core := SMap.get Core.idle s.cores c

/-- Replace a core. -/
def State.setCore (s : State) (c : Nat) (k : Core) : State := { s with cores := SMap.put s.cores c k }

/-- A slot of a core; slot numbers are taken modulo 8. -/
def Core.slot (k : Core) (n : Nat) : Slot := k.slots[n % 8]'(Nat.mod_lt n (by decide))

/-- Replace a slot. -/
def Core.setSlot (k : Core) (n : Nat) (sl : Slot) : Core :=
  { k with slots := k.slots.set (n % 8) sl (Nat.mod_lt n (by decide)) }

/-- A slot of a core of the machine. -/
def State.slot (s : State) (c n : Nat) : Slot := (s.core c).slot n

/-- Replace a slot of a core of the machine. -/
def State.setSlot (s : State) (c n : Nat) (sl : Slot) : State := s.setCore c ((s.core c).setSlot n sl)

/-- Replace the task of a slot. -/
def State.setTask (s : State) (c n : Nat) (t : Task) : State := s.setSlot c n { s.slot c n with task := t }

/-- Replace the state of a slot. -/
def State.setSlotState (s : State) (c n : Nat) (st : SlotState) : State := s.setSlot c n { s.slot c n with state := st }

/-- CYC of a core's layer, R130. -/
def State.cycOf (s : State) (c : Nat) : Nat := (s.layers[layerOf c % 12]'(Nat.mod_lt _ (by decide))).cyc.toNat

/-- The capsule of an instance. -/
def State.capsule? (s : State) (inst : Nat) : Option Capsule := s.capsules.find? fun c => c.inst == inst

/-- Replace a capsule. -/
def State.setCapsule (s : State) (c : Capsule) : State :=
  { s with capsules := s.capsules.map fun d => if d.inst = c.inst then c else d }

/-- The capsule a core belongs to. -/
def State.capsuleOf? (s : State) (c : Nat) : Option Capsule := (s.core c).inst.bind s.capsule?

/-- The next serial number. -/
def State.tick (s : State) : State := { s with serial := s.serial + 1 }

/-- Header flags, R193. -/
def Header.prom (h : Header) : Bool := decide (bits h.flags 0 1 = 1)
def Header.det (h : Header) : Bool := decide (bits h.flags 1 1 = 1)
def Header.stock (h : Header) : Bool := decide (bits h.flags 2 1 = 1)
def Header.after (h : Header) : Bool := decide (bits h.flags 3 1 = 1)

/-- The core bound to a role of a group, R90. -/
def Capsule.coreOf? (c : Capsule) (group role : Nat) : Option Nat :=
  match c.groups[group]? with
  | some g => if g.shape = 7 then none else g.cores[role]?
  | none => none

/-- The member count of a group. -/
def Capsule.groupSize (c : Capsule) (group : Nat) : Nat :=
  match c.groups[group]? with
  | some g => if g.shape = 7 then 0 else g.cores.length
  | none => 0

/-- The core of the supervisor role. -/
def Capsule.superCore (c : Capsule) : Nat := (c.coreOf? 0 c.hdr.super).getD 0

/-- The role of group 0 that a core of a capsule holds. -/
def Capsule.roleOfCore (cap : Capsule) (c : Nat) : Nat := ((cap.groups[0]?).map fun g => g.cores.idxOf c).getD 0

/-- A role of group 0 is parked. -/
def Capsule.isParked (c : Capsule) (role : Nat) : Bool := c.parked.any fun p => p.role == role

/-- Bytes of the code image. -/
def Capsule.codeBytes (c : Capsule) (pc n : Nat) : List Byte := (c.code.drop pc).take n

/-- A list of bytes zero-filled to a length. -/
def padTo (n : Nat) (l : List Byte) : List Byte := (l.take n) ++ List.replicate (n - l.length) 0

/-! Task registers (R107-R110) -/

/-- A general register. -/
def Task.reg (t : Task) (r : Nat) : Word := t.g[r % 16]'(Nat.mod_lt r (by decide))
/-- Its guard bit. -/
def Task.regGuard (t : Task) (r : Nat) : Bool := t.gg.getLsbD (r % 16)
/-- Bit `n` of a 16-bit vector set to a value. -/
def setBit16 (v : BitVec 16) (n : Nat) (b : Bool) : BitVec 16 :=
  if b then v ||| BitVec.twoPow 16 n else v &&& ~~~ BitVec.twoPow 16 n
/-- Write a general register and its guard bit. -/
def Task.setReg (t : Task) (r : Nat) (v : Word) (guard : Bool) : Task :=
  { t with g := t.g.set (r % 16) v (Nat.mod_lt r (by decide)), gg := setBit16 t.gg (r % 16) guard }
/-- A predicate; p7 reads 1 (R108). -/
def Task.pred (t : Task) (n : Nat) : Bool := if n % 8 = 7 then true else t.p.getLsbD (n % 8)
/-- The guard bit of a predicate, TSR.PG (R110). -/
def Task.predGuard (t : Task) (n : Nat) : Bool := if n % 8 = 7 then false else t.tsr.getLsbD (8 + n % 8)
/-- Bit `n` of a word set to a value. -/
def setBit64 (v : Word) (n : Nat) (b : Bool) : Word :=
  if b then v ||| BitVec.twoPow 64 n else v &&& ~~~ BitVec.twoPow 64 n
/-- Write a predicate and its guard bit; a write to p7 is discarded (R108). -/
def Task.setPred (t : Task) (n : Nat) (v guard : Bool) : Task :=
  if n % 8 = 7 then t
  else { t with
    p := if v then t.p ||| BitVec.twoPow 8 (n % 8) else t.p &&& ~~~ BitVec.twoPow 8 (n % 8)
    tsr := setBit64 t.tsr (8 + n % 8) guard }
/-- A lane mask. -/
def Task.mask (t : Task) (n : Nat) : BitVec 16 := t.lm[n % 8]'(Nat.mod_lt n (by decide))
/-- Its guard bit, TSR.LMG. -/
def Task.maskGuard (t : Task) (n : Nat) : Bool := t.tsr.getLsbD (16 + n % 8)
/-- Write a lane mask and its guard bit. -/
def Task.setMask (t : Task) (n : Nat) (v : BitVec 16) (guard : Bool) : Task :=
  { t with lm := t.lm.set (n % 8) v (Nat.mod_lt n (by decide)), tsr := setBit64 t.tsr (16 + n % 8) guard }
/-- TSR.MEMBER, TSR.SPAWN, TSR.STEP. -/
def Task.member (t : Task) : Nat := bits t.tsr.toNat 0 8
def Task.spawnOrd (t : Task) : Nat := bits t.tsr.toNat 44 20
/-- The spawn ordinal counted up modulo 2^20. -/
def Task.bumpSpawn (t : Task) : Task :=
  { t with tsr := BitVec.ofNat 64 (setBits t.tsr.toNat 44 20 (t.spawnOrd + 1)) }
/-- TSR.STEP set. -/
def Task.setStep (t : Task) (n : Nat) : Task := { t with tsr := BitVec.ofNat 64 (setBits t.tsr.toNat 24 20 n) }

/-- Mix of R101. -/
def mix (h : Word) (n : Nat) : Word := ((h ^^^ BitVec.ofNat 64 (n + 1)) * 0x9E3779B97F4A7C15#64).rotateLeft 27

/-! Register space (R113-R118) -/

/-- A granule of a core. -/
def Core.granule (k : Core) (n : Nat) : Granule := SMap.get ⟨0, false⟩ k.regs n

/-- One byte of register space. -/
def Core.spaceByte (k : Core) (o : Nat) : Byte := ((k.granule (o / 64)).data.toNat / 2 ^ (8 * (o % 64)) : Nat)

/-- Bytes of register space. -/
def Core.spaceBytes (k : Core) (o n : Nat) : List Byte := (List.range n).map fun i => k.spaceByte (o + i)

/-- The granules that `n` bytes from an offset touch. -/
def granulesOf (o n : Nat) : List Nat :=
  if n = 0 then [] else (List.range ((o + n - 1) / 64 - o / 64 + 1)).map (o / 64 + ·)

/-- One of some granules has an uncorrectable error, R437. -/
def Core.badIn (k : Core) (gs : List Nat) : Bool := k.badGrans.any fun g => gs.contains g

/-- The OR of the guard bits of granules, R117. -/
def Core.granGuard (k : Core) (gs : List Nat) : Bool := gs.any fun g => (k.granule g).guard

/-- Write bytes `lo` to `lo + data.length - 1` of a granule; the guard bit as R117 gives. A granule in error is good again once it is
written whole (R409). -/
def Core.writeGranule (k : Core) (n lo : Nat) (data : List Byte) (guard : Bool) : Core :=
  let g := k.granule n
  let v := setBits g.data.toNat (8 * lo) (8 * data.length) (leNat data)
  let whole := decide (lo = 0 ∧ data.length = 64)
  { k with
    regs := SMap.put k.regs n ⟨BitVec.ofNat 512 v, if whole then guard else g.guard || guard⟩
    badGrans := if whole then k.badGrans.filter fun b => b != n else k.badGrans }

/-- Write bytes of register space, granule by granule; `fuel` bounds the granules. -/
def Core.writeSpaceAux : Nat → Core → Nat → List Byte → Bool → Core
  | 0, k, _, _, _ => k
  | n + 1, k, o, data, guard =>
    if data.isEmpty then k
    else
      let m := 64 - o % 64
      Core.writeSpaceAux n (k.writeGranule (o / 64) (o % 64) (data.take m) guard) (o + m) (data.drop m) guard

/-- Write bytes of register space with the guard bit of the result, R117. -/
def Core.writeSpace (k : Core) (o : Nat) (data : List Byte) (guard : Bool) : Core :=
  Core.writeSpaceAux (data.length / 64 + 2) k o data guard

/-- View fields, R114; BASE is a multiple of 64 in every view (R115). -/
def viewBase (v : Word) : Nat := 64 * bits v.toNat 6 9
def viewCount (v : Word) : Nat := bits v.toNat 16 8

/-- Byte offsets of vn, mn and an, R116. -/
def Core.vOff (k : Core) (n : Nat) : Nat := viewBase k.vwv + 64 * n
def Core.mOff (k : Core) (n : Nat) : Nat := viewBase k.vwm + 512 * n
def Core.aOff (k : Core) (n : Nat) : Nat := viewBase k.vwa + 1024 * n

/-- Set the pending bits, with unswitched marks, of granules (R118, R415); `mq` says that an MQ entry will write them. -/
def Core.pendGranules (k : Core) (gs : List Nat) (slot by_ : Nat) (guard mq : Bool) : Core :=
  { k with
    rpend := gs.foldl (fun m g => SMap.put m g ⟨slot, by_, guard⟩) k.rpend
    rmark := gs.foldl (fun m g => SMap.put m g ⟨slot, mq⟩) k.rmark }

/-- Clear the pending bits of granules that a result or entry set. -/
def Core.unpendGranules (k : Core) (gs : List Nat) (by_ : Nat) : Core :=
  { k with rpend := gs.foldl (fun m g =>
      match m.find? fun e => e.1 == g with
      | some (_, p) => if p.by_ = by_ then SMap.erase m g else m
      | none => m) k.rpend }

/-- The unswitched mark of a granule. -/
def Core.markOf? (k : Core) (g : Nat) : Option GranMark := (k.rmark.find? fun e => e.1 == g).map (·.2)

/-- The pending entry of a granule. -/
def Core.pendOf? (k : Core) (g : Nat) : Option GranPend := (k.rpend.find? fun e => e.1 == g).map (·.2)

/-- A slot has results outstanding: a pending bit recorded with its own number (R82). -/
def Core.outstanding (k : Core) (slot : Nat) : Bool :=
  (k.slot slot).pend != 0 || k.rpend.any fun e => e.2.slot == slot % 8

/-- A slot passes a switch point: its unswitched marks are cleared (R415). -/
def Core.clearMarks (k : Core) (slot : Nat) : Core :=
  let k := k.setSlot slot { k.slot slot with mark := 0 }
  { k with rmark := k.rmark.filter fun e => e.2.slot != slot % 8 }

/-! Packets -/

/-- A packet by number. -/
def State.packet? (s : State) (id : Nat) : Option Packet := s.packets.find? fun p => p.id == id

/-- Replace a packet. -/
def State.setPacket (s : State) (p : Packet) : State :=
  { s with packets := s.packets.map fun q => if q.id = p.id then p else q }

/-- Drop a packet. -/
def State.dropPacket (s : State) (id : Nat) : State := { s with packets := s.packets.filter fun q => q.id != id }

/-- The overflow lane, the spilled packets, and the fault messages that wait behind an arrival queue. -/
def Core.overflow (k : Core) : List Nat := k.lane.filterMap fun i => match i with
  | .lane p => some p
  | _ => none
def Core.restoredQ (k : Core) : List Nat := k.lane.filterMap fun i => match i with
  | .spill p => some p
  | _ => none
def Core.backlog (k : Core) : List Nat := k.lane.filterMap fun i => match i with
  | .message q _ => some q
  | _ => none

/-- Send a packet: it takes the next number and enters the network. -/
def State.sendPacket (s : State) (p : Packet) : State := { s with serial := s.serial + 1, packets := s.packets ++ [{ p with id := s.serial, order := s.serial }] }

/-- The role of group 0 that a core holds. -/
def State.roleOf (s : State) (c : Nat) : Nat := (s.core c).role

/-- Send a system message on class 3, R85. -/
def State.sendClass3 (s : State) (inst core dest role : Nat) (body : PktBody) : State :=
  s.sendPacket
    { id := 0, inst := inst, src := core, dest := dest, cls := 3, body := body, state := .moving, slot := 8,
      slotSerial := 0, parks := false, leaves := false, role := role, order := 0, pc := none }

/-- A class 3 grant is sent to the core that holds a ticket, R97, R476. -/
def State.sendTicketGrant (s : State) (inst core holder ticket : Nat) : State :=
  s.sendClass3 inst core holder (((s.capsule? inst).map (·.roleOfCore holder)).getD 0) (.grant ticket)

/-- An ending of the capsule has been sent or taken (R406). -/
def Capsule.ending (c : Capsule) : Bool := !c.endReqs.isEmpty || c.stage == .completing

/-- A fault of disposition C after the first DONE turns STATUS 0x0000 into 0x0001, R406. -/
def Capsule.drainFault (c : Capsule) : Capsule :=
  if c.stage = .completing then { c with status := if c.status = 0 then 1 else c.status }
  else match c.endReqs with
    | 0 :: rest => { c with endReqs := 1 :: rest }
    | _ => c

/-- Send a fault packet on class 3 to the core of the supervisor role (R401). -/
def State.sendRecord (s : State) (cap : Capsule) (core : Nat) (r : FaultRec) (late : Bool) : State :=
  s.sendClass3 cap.inst core cap.superCore cap.hdr.super (.fault r late)

/-- Report a fault of a core, R398, R406: its packet leaves behind those of the faults that the core has detected before (R401). -/
def State.sendFault (s : State) (inst core : Nat) (r : FaultRec) : State :=
  match s.capsule? inst with
  | none => s
  | some cap =>
    let s1 := if r.disp = 1 ∧ cap.ending then s.setCapsule cap.drainFault else s
    let k := s1.core core
    if k.inst = some inst ∧ k.faultQ ≠ [] then s1.setCore core { k with faultQ := k.faultQ ++ [.record r cap.ending] }
    else s1.sendRecord cap core r cap.ending

/-- The record of a fault detected at a core after issue: no task is held (R399, R400). -/
def State.lateRecord (s : State) (core member pc : Nat) (insn : List Byte) (disp : Nat) (i : FaultInfo)
    (handler : Bool := false) : FaultRec :=
  { info := i, member := member, disp := disp, role := s.roleOf core, slot := 0xFF, layer := layerOf core, pc := pc,
    insn := padTo 16 insn, cyc := s.cycOf core, frame := none, handler := handler }

/-- Report a fault detected after issue: the work goes on or the capsule ends, and a record is sent (R398). -/
def State.reportFault (s : State) (inst core member pc : Nat) (insn : List Byte) (disp : Nat) (i : FaultInfo)
    (handler : Bool := false) : State :=
  s.sendFault inst core (s.lateRecord core member pc insn disp i handler)

/-- The fault packet of a held task, with its frame, is sent. -/
def State.sendFrame (s : State) (cap : Capsule) (c n : Nat) (h : Hold) (late : Bool) : State :=
  let r := { h.record with frame := some (s.slot c n).task }
  (s.setSlot c n { s.slot c n with hold := some { h with record := r, sent := true } }).sendRecord cap c r late

/-- The faults of a core that may be sent are, in order of detection: that of a held task once every outstanding result of the task
is in (R401, R411, Frame). -/
def State.flushFaults (cap : Capsule) (c : Nat) : List FaultItem → State → State
  | [], s => s.setCore c { s.core c with faultQ := [] }
  | .record r late :: rest, s => State.flushFaults cap c rest (s.sendRecord cap c r late)
  | .held n late :: rest, s =>
    match (s.slot c n).hold with
    | none => State.flushFaults cap c rest s
    | some h =>
      if h.sent then State.flushFaults cap c rest s
      else if (s.core c).outstanding n then s.setCore c { s.core c with faultQ := .held n late :: rest }
      else State.flushFaults cap c rest (s.sendFrame cap c n h late)

/-- Results of a core have come in: the faults that waited for them are sent. -/
def State.sendHeld (s : State) (c : Nat) : State :=
  match s.capsuleOf? c with
  | some cap => if (s.core c).faultQ = [] then s else State.flushFaults cap c (s.core c).faultQ s
  | none => s

/-- TAKING A FAULT, R399-R401, R411: the task is held in its slot with its pc at the faulting instruction, holding it is
a switch point, and the fault packet goes to the supervisor core once the task's outstanding results are in. -/
def State.takeFault (s : State) (c n : Nat) (i : FaultInfo) (pc len : Nat) (insn : List Byte) : State :=
  let k := (s.core c).clearMarks n
  let sl := k.slot n
  let r : FaultRec :=
    { info := i, member := sl.task.member, disp := 0, role := k.role, slot := n % 8, layer := layerOf c, pc := pc,
      insn := padTo 16 insn, cyc := s.cycOf c, frame := none, handler := sl.fromFault }
  let late := ((s.capsuleOf? c).map (·.ending)).getD false
  let sl' := { sl with state := .held, task := { sl.task with pc := BitVec.ofNat 64 pc }, depart := none,
                       hold := some ⟨r, len, false, none⟩ }
  (s.setCore c { k.setSlot n sl' with portCount := 0, faultQ := k.faultQ ++ [.held (n % 8) late] }).sendHeld c


/-! The issue of an instruction -/

/-- What an instruction's own checks and effect come to. -/
inductive Verdict where
  /-- The effect; the pc advances by the instruction's length. -/
  | next (s : State)
  /-- The effect; the pc takes the given target. -/
  | jump (s : State) (target : Nat)
  /-- The effect has set the slot's state and pc itself. -/
  | leave (s : State)
  | block (why : BlockWhy)
  | raise (i : FaultInfo)

/-- The executing task and where it runs. -/
structure Cur where
  c : Nat
  n : Nat
  k : Core
  t : Task
  cap : Capsule
  pc : Nat
  len : Nat

/-- The task at the issue port of the acting core, if its slot is ready and its capsule runs. -/
def State.cur? (s : State) (len : Nat) : Option Cur :=
  let k := s.core s.actor
  let sl := k.slot k.port
  match s.capsuleOf? s.actor with
  | some cap => if sl.state = .ready ∧ cap.stage = .running ∧ k.evicting = false then some ⟨s.actor, k.port % 8, k, sl.task, cap, sl.task.pc.toNat, len⟩ else none
  | none => none

/-- The bytes of the executing instruction. -/
def Cur.insn (x : Cur) : List Byte := x.cap.codeBytes x.pc x.len

/-- The guard of R233: the predicate GP, inverted by GN. -/
def guardHolds (h : Head) (t : Task) : Bool := t.pred h.gp.toNat != h.gn

/-- A pc lies in the core's segment, or the core has none (R94, R95). -/
def inSegment (k : Core) (pc : Nat) : Bool :=
  match k.seg with
  | none => true
  | some (start, len) => decide (start ≤ pc ∧ pc < start + len)

/-- A pc lies in the code image but outside the core's segment: a transfer to it is a departure (R95). At CODELEN and above
sequential flow faults instead (R417). -/
def State.departs (s : State) (c pc : Nat) : Bool :=
  !inSegment (s.core c) pc && (match s.capsuleOf? c with
    | some cap => decide (pc < cap.code.length)
    | none => false)

/-- RELEASING A HELD TASK, R404: the task becomes ready at the given pc, or departs when its core does not hold the pc's
segment (R95). -/
def State.releaseTask (s : State) (c n pc : Nat) : State :=
  let sl := s.slot c n
  let away := s.departs c pc
  s.setSlot c n { sl with
    state := if away then .departing else .ready
    depart := if away then some ⟨0, false, sl.task.pc.toNat⟩ else none
    hold := none
    task := { sl.task with pc := BitVec.ofNat 64 pc } }

/-- The pc after an instruction. Outside the core's segment the transfer is a departure, which is a switch point (R95). -/
def State.transfer (s : State) (c n pc : Nat) : State :=
  let k := s.core c
  let sl := k.slot n
  let t := { sl.task with pc := BitVec.ofNat 64 pc }
  if sl.state = .ready ∧ s.departs c pc then
    let k' := k.clearMarks n
    s.setCore c { k'.setSlot n { k'.slot n with task := t, state := .departing, depart := some ⟨0, false, sl.task.pc.toNat⟩ } with
      portCount := 0 }
  else s.setCore c { k.setSlot n { sl with task := t } with portCount := k.portCount + 1 }

/-- The turn of a slot ends with a new slot state (R81). -/
def State.endTurn (s : State) (c n : Nat) (st : SlotState) : State :=
  let k := s.core c
  s.setCore c { k.setSlot n { k.slot n with state := st } with portCount := 0 }

/-- The outcome of a verdict for the executing task. -/
def finish (s : State) (x : Cur) : Verdict → State
  | .next s' => s'.transfer x.c x.n (x.pc + x.len)
  | .jump s' target => s'.transfer x.c x.n target
  | .leave s' => s'
  | .block why => s.endTurn x.c x.n (.blocked why)
  | .raise i => s.takeFault x.c x.n i x.pc x.len x.insn

/-- THE ISSUE OF AN INSTRUCTION: the switch marker (R82), then the guard (R233), then the instruction's checks and
effect. A marked instruction whose task has results outstanding parks it; otherwise the switch point clears the task's
unswitched marks (R415) (DEDUCED, log 15). -/
def issue (h : Head) (len : Nat) (body : Cur → State → Verdict) (s : State) : Host.Outcome State Fault Refusal :=
  match s.cur? len with
  | none => .fault .noTask
  | some x =>
    if h.s && x.k.outstanding x.n then .next (s.endTurn x.c x.n .parked)
    else
      let s1 := if h.s then s.setCore x.c (x.k.clearMarks x.n) else s
      let x1 := { x with k := s1.core x.c }
      if guardHolds h x.t then .next (finish s1 x1 (body x1 s1))
      else .next (s1.transfer x.c x.n (x.pc + len))

/-- The first of a list of checks that fails (DEDUCED, log 14). -/
def firstFault : List (Option FaultInfo) → Option FaultInfo
  | [] => none
  | some f :: _ => some f
  | none :: l => firstFault l

/-- Checks in the order of R412, then the effect. -/
def checked (l : List (Option FaultInfo)) (v : Verdict) : Verdict :=
  match firstFault l with
  | some f => .raise f
  | none => v

/-- A fault of a class and detail when a condition holds. -/
def failIf (b : Bool) (cls detail aux : Nat) (addr : Nat := 0) : Option FaultInfo :=
  if b then some ⟨cls, detail, aux, addr, false⟩ else none

/-- A fault whose AUX is a value of registers of guard bit `g` (R161, R400). An address does not pass a guard bit on: ADDR alone leaves
the line of the record clear (DEDUCED, log 117). -/
def heldBy (g : Bool) (o : Option FaultInfo) : Option FaultInfo := o.map fun i => { i with guard := g }

/-- An event that is enabled takes place; otherwise nothing happens (DESIGN CHOICE, log 3). -/
def event (enabled : Bool) (eff : State → State) (s : State) : Host.Outcome State Fault Refusal :=
  .next (if enabled then eff s else s)

/-- An event that accesses memory: an enabled one whose device address does not exist stops (R136). -/
def eventAt (enabled exists_ : Bool) (eff : State → State) (s : State) : Host.Outcome State Fault Refusal :=
  if enabled && !exists_ then .fault .noSuchAddress else event enabled eff s

end Sys2Proof.Machine
end

