-- ==== Sys2Proof/Machine/Fetch.lean ====
section
/-! DEFINITION. The issue port (R81-R83), the fetch of an instruction from the core's instruction store (R99, R230), the
clocks of the die layers (R17, R130), and the smallest running capsule that holds one given instruction (DESIGN CHOICE, log 10). -/

namespace Sys2Proof.Machine

/-- The neighbouring core beyond a channel: 0 chN, 1 chE, 2 chS, 3 chW (R87). -/
def neighbour? (core ch : Nat) : Option Nat :=
  let l := layerOf core
  let r := rowOf core
  let c := colOf core
  match ch with
  | 0 => if r = 0 then none else some (coreAt l (r - 1) c)
  | 1 => if c = 47 then none else some (coreAt l r (c + 1))
  | 2 => if r = 31 then none else some (coreAt l (r + 1) c)
  | _ => if c = 0 then none else some (coreAt l r (c - 1))

/-- The opposite channel. -/
def oppositeChannel (ch : Nat) : Nat := (ch + 2) % 4

/-- A channel of a core. -/
def Core.channel (k : Core) (ch : Nat) : List (Word × Bool) := k.channels[ch % 4]'(Nat.mod_lt _ (by decide))

/-- Replace a channel of a core. -/
def Core.setChannel (k : Core) (ch : Nat) (l : List (Word × Bool)) : Core :=
  { k with channels := k.channels.set (ch % 4) l (Nat.mod_lt _ (by decide)) }

/-- Container width of a type code of R236, a .x type under its captured descriptor (R318). -/
def typeBits (fmts : List Nat) (code : Nat) : Nat :=
  match code with
  | 0 | 3 | 6 => 32
  | 1 | 2 | 4 | 7 => 16
  | 5 | 8 => 8
  | _ => fdContainer (fmts.getD (code - 9) 0)

/-- The operand of a multiply that is the 8-bit half of a mixed pair, an aligned pair of tiles (R318, R325). -/
def QmEntry.wideA (e : QmEntry) : Bool :=
  decide (typeBits e.fmts e.f.ta.toNat = 8 ∧ typeBits e.fmts e.f.tb.toNat = 4)
def QmEntry.wideB (e : QmEntry) : Bool :=
  decide (typeBits e.fmts e.f.ta.toNat = 4 ∧ typeBits e.fmts e.f.tb.toNat = 8)

/-- The granules a qm entry has still to read, by operand offsets (R240). -/
def QmEntry.reads (k : Core) (e : QmEntry) : List Nat :=
  let tile := fun (n : Nat) => granulesOf (k.mOff n) 512
  let pair := fun (n : Nat) (wide : Bool) => granulesOf (k.mOff n) (if wide then 1024 else 512)
  let acc := fun (n : Nat) => granulesOf (k.aOff n) 1024
  let vec := fun (n : Nat) => granulesOf (k.vOff n) 64
  let ma := e.f.ma.toNat
  let mb := e.f.mb.toNat
  let ad := e.f.ad.toNat
  match e.op with
  | .mzero | .mld | .mldSc | .tqry | .mmat => []
  | .mst => acc ad
  | .mma => acc ad ++ pair ma e.wideA ++ pair mb e.wideB
  | .mmas => acc ad ++ pair ma e.wideA ++ pair mb e.wideB ++ vec e.f.vsa.toNat ++ vec e.f.vsb.toNat
  | .mmar => acc ad ++ pair ma e.wideA ++
      (if bits e.f.fn.toNat 0 1 = 1 then vec e.f.vsa.toNat ++ vec e.f.vsb.toNat else [])
  | .macc => acc ad ++ acc (ma % 16)
  | .mtrn => tile ma
  | .mcode => vec e.f.vsa.toNat

/-- The copy queue of a number: 0 q0, 1 q1, 2 qn. -/
def Core.copyQueue (k : Core) (q : Nat) : List CopyEntry :=
  match q with
  | 0 => k.q0
  | 1 => k.q1
  | _ => k.qn

/-- Replace a copy queue. -/
def Core.setCopyQueue (k : Core) (q : Nat) (l : List CopyEntry) : Core :=
  match q with
  | 0 => { k with q0 := l }
  | 1 => { k with q1 := l }
  | _ => { k with qn := l }

/-- Every copy entry of a core. -/
def Core.copies (k : Core) : List CopyEntry := k.q0 ++ k.q1 ++ k.qn

/-- A core's engine entry by number is still queued. -/
def Core.hasEntry (k : Core) (id : Nat) : Bool := k.copies.any (fun e => e.id == id) || k.qm.any fun e => e.id == id

/-- An engine entry is incomplete: some core's queues hold it, or a parked role's image does. -/
def State.entryLive (s : State) (id : Nat) : Bool :=
  s.cores.any (fun e => e.2.hasEntry id) || s.capsules.any fun cap => cap.parked.any fun p => p.saved.hasEntry id

/-- The bits of a chunk map; an unlisted map is idle with every bit 1 (R349). -/
def Core.map (k : Core) (m : Nat) : BitVec 4096 := SMap.get (BitVec.allOnes 4096) k.maps m

/-- A map is bound to an incomplete copy. -/
def Core.mapBusy (k : Core) (m : Nat) : Bool := k.copies.any fun e => e.map == m

/-- Bits of a map named by a base and a 64-bit mask all read 1 (R355). -/
def Core.mapReady (k : Core) (m base mask : Nat) : Bool := decide (bits (k.map m).toNat base 64 &&& mask = mask)

/-- A parked role of the capsule of core `c` is bound to core `d` (R344). -/
def State.parkedAt (s : State) (c d : Nat) : Bool :=
  match s.capsuleOf? c with
  | some cap => cap.parked.any fun p => cap.coreOf? 0 p.role == some d
  | none => false

/-- The condition a blocked task waits for holds (R83). -/
def State.unblocked (s : State) (c n : Nat) : BlockWhy → Bool
  | .granules first count =>
    !(s.core c).rpend.any fun e => decide (first ≤ e.1 ∧ e.1 < first + count) && e.2.slot != n % 8
  | .sources first count => !(s.core c).rpend.any fun e => decide (first ≤ e.1 ∧ e.1 < first + count)
  | .mqReads first count =>
    !(s.core c).qm.any fun e => (e.reads (s.core c)).any fun g => decide (first ≤ g ∧ g < first + count)
  | .channelFull ch =>
    match neighbour? c ch with
    | none => true
    | some d => !s.parkedAt c d &&
      ((s.core d).inst != (s.core c).inst || decide (((s.core d).channel (oppositeChannel ch)).length < 4))
  | .channelEmpty ch => !((s.core c).channel ch).isEmpty
  | .barrier _ => match (s.slot c n).bar with
    | some b => b.result.isSome
    | none => true
  | .queueFull q => decide (((s.core c).copyQueue q).length < 16)
  | .mapBusy m => !(s.core c).mapBusy m
  | .mapBits m base mask => (s.core c).mapReady m base mask
  | .table ct => !(s.core c).qm.any fun q => q.op == .mcode && bits q.f.fn.toNat 0 2 == ct
  | .mmat e => !s.entryLive e
  | .lsuPlace => !(s.core c).lsuTickets.any fun t => t.slot == n % 8 && t.slotSerial == (s.slot c n).serial && !t.granted

/-- A packet stands refused at its sender: with a ticket, granted or not, without one, or for want of a spill entry (R97, R223, R458). -/
def PktState.stands : PktState → Bool
  | .ticketed | .granted | .refused _ | .parkedWait => true
  | _ => false

/-- A refused child of the task in a slot, for which its creator is parked (R339, R340). -/
def State.refusedChild? (s : State) (c n : Nat) : Option Packet :=
  s.packets.find? fun p => p.parks && p.src == c && (s.core c).inst == some p.inst && p.slot == n % 8 &&
    p.slotSerial == (s.slot c n).serial && p.state.stands

/-- A slot can issue: no refused child of its task parks it, and it is ready, or parked with its results in (R82), or blocked with its condition met (R83). -/
def State.canIssue (s : State) (c n : Nat) : Bool :=
  !(s.core c).evicting && (s.refusedChild? c n).isNone && match (s.slot c n).state with
  | .ready => true
  | .parked => !(s.core c).outstanding n
  | .blocked why => s.unblocked c n why
  | _ => false

/-- The slot that issues next, R81: the holder keeps the port until its turn ends or it has issued 8 consecutive
instructions while another slot is ready; the port passes in cyclic order. -/
def State.choosePort (s : State) (c : Nat) : Option Nat :=
  let k := s.core c
  let order := [1, 2, 3, 4, 5, 6, 7].map fun i => (k.port + i) % 8
  let other := order.find? fun n => s.canIssue c n
  let own := s.canIssue c k.port
  if own ∧ 0 < k.portCount ∧ ¬(9 ≤ k.portCount ∧ other.isSome) then some (k.port % 8)
  else match other with
    | some n => some n
    | none => if own then some (k.port % 8) else none

/-- The port passes to a slot, whose task is ready; a new turn begins unless the slot is within its own. -/
def State.takePort (s : State) (c n : Nat) : State :=
  let k := s.core c
  let k := k.setSlot n { k.slot n with state := .ready }
  s.setCore c { k with port := n, portCount := if k.port = n ∧ 0 < k.portCount then k.portCount else 1 }

/-- A layer's clock advanced by `n` local cycles (R130), and its refresh rotation with it (R128). -/
def Layer.advance (l : Layer) (n : Nat) : Layer :=
  { l with cyc := l.cyc + BitVec.ofNat 64 n, wsPos := (l.wsPos + n) % 121600 }

/-- A die layer of the machine. -/
def State.layer (s : State) (i : Nat) : Layer := s.layers[i % 12]'(Nat.mod_lt _ (by decide))

/-- Replace a die layer. -/
def State.setLayer (s : State) (i : Nat) (l : Layer) : State :=
  { s with layers := s.layers.set (i % 12) l (Nat.mod_lt _ (by decide)) }

/-- The clocks of the listed layers advance (R17, R130) (DESIGN CHOICE, log 2). -/
def State.advance (s : State) (clocks : List (Nat × Nat)) : State :=
  clocks.foldl (fun s e => s.setLayer e.1 ((s.layer e.1).advance e.2)) s

/-- What the issue port fetches for the slot that holds it. -/
inductive Fetched where
  /-- The instruction store misses the block (R99). -/
  | miss (block : Nat)
  /-- Sequential flow has reached CODELEN (R417). -/
  | pastEnd
  | bad (e : DecodeError)
  | instr (i : Instr)

/-- Fetch and decode the instruction at the pc of the slot at the port of core `c`, R99, R229, R230. -/
def State.fetch (s : State) (c : Nat) (cap : Capsule) : Fetched :=
  let k := s.core c
  let pc := (k.slot k.port).task.pc.toNat
  if cap.code.length ≤ pc then .pastEnd
  else if !k.istore.contains (pc / 32) then .miss (pc / 32)
  else match decodeBytes (cap.codeBytes pc (32 - pc % 32)) with
    | .error e => .bad e
    | .ok (i, _) => .instr i

/-- The header of the smallest capsule: a one-core group, no extents (DESIGN CHOICE, log 10). -/
def bootHeader (codelen : Nat) : Header :=
  { magic := 0xA1A7C768, version := 1, length := 352, codeid := [], owner := 1, prio := 0, prioRsv := 0, fclass := 0,
    flags := 0, regs := 32768, scratch := 131072, overflow := 0, part := [1, 0, 0, 0, 0, 0], super := 0, xext := 0xFF,
    next := 1, entry := 0, codelen := codelen, codeaddr := 0, compl := 0, views := [0x00800000, 0x00200000, 0x00104000],
    fmts := [0x08801200, 0x11107200, 0x1160F200, 0xD0000200], classmode := 0,
    hdls := [0, 0, 0, 1, 1, 1, 1, 1, 1, 1, 1, 1, 1, 1, 1, 1], ngroup := 1, ntens := 0, nseg := 0, arglen := 0,
    nrost := 0, npool := 0, park := 0 }

/-- The smallest running capsule: one core, one group, the given code image (DESIGN CHOICE, log 10). -/
def bootCapsule (code : List Byte) : Capsule :=
  { inst := 1, queue := none, post := none, parent := none, hdr := bootHeader code.length, origin := 0, merged := false,
    members := [⟨[], 0, 0, 0⟩], exts := [], groups := [⟨0, 1, 1, 1, 0, 0, [0], false, none, [], []⟩], tensors := [],
    segs := [], roster := [], lane := 0, code := code, stage := .running, status := 0, endReqs := [], killed := false,
    holders := [], records := [], recWords := [], recCount := 0, discarded := 0, saveCounter := 0, wasParked := false, parked := [],
    firstLoad := [] }

/-- The core of that capsule: one ready task at pc 0 in slot 0, block 0 in its instruction store (DESIGN CHOICE, log 10). -/
def bootCore : Core :=
  { Core.idle with
    inst := some 1, role := 0, members := [⟨0, 0, false, false, false, 0, false, false⟩], istore := [0],
    slots := (Vector.replicate 8 Slot.fresh).set 0 { Slot.fresh with state := .ready, serial := 1 } }

end Sys2Proof.Machine
end

