-- ==== Sys2Proof/Machine/Crypto.lean ====
section
/-! DEFINITION. The cryptographic functions the spec names by standard: SHA3-512 (FIPS 202), KMAC256 (SP 800-185) with the
customisation string of R197, AES-256 (FIPS 197) in the counter mode of R197, and the keys derived with them (R197-R199,
R223, R354, R365, R367). -/

namespace Sys2Proof.Machine

/-! Keccak on the bit string S of FIPS 202: S is one vector of 1,600 bits, bit z of lane (x, y) is bit 64 (x + 5 y) + z, and a plane is
the 320 bits of one y. A turn of a plane by 64 bits moves each lane to the next x. -/

/-- The state string. -/
abbrev KeccakString := BitVec 1600

/-- Plane y. -/
def plane (s : KeccakString) (y : Nat) : BitVec 320 := s.extractLsb' (320 * y) 320

/-- Bit 0 of each lane of a plane, and of each plane of a string. -/
def laneUnits : Nat := (2 ^ 320 - 1) / (2 ^ 64 - 1)
def planeUnits : Nat := (2 ^ 1600 - 1) / (2 ^ 320 - 1)

/-- Each lane of a plane turned by one bit. -/
def turnLanes (p : BitVec 320) : BitVec 320 :=
  let low := BitVec.ofNat 320 laneUnits
  ((p <<< 1) &&& ~~~low) ||| ((p >>> 63) &&& low)

/-- θ: every plane takes the parities of the columns at x - 1 and, one bit earlier, at x + 1. -/
def keccakTheta (s : KeccakString) : KeccakString :=
  let parity := plane s 0 ^^^ plane s 1 ^^^ plane s 2 ^^^ plane s 3 ^^^ plane s 4
  let effect := parity.rotateLeft 64 ^^^ turnLanes (parity.rotateRight 64)
  s ^^^ BitVec.ofNat 1600 (effect.toNat * planeUnits)

/-- ρ and π: both follow the walk from (1, 0) by (x, y) ↦ (y, 2 x + 3 y): the lane of its step t turns by (t + 1) (t + 2) / 2 bits and
goes to the place of step t + 1. `n` steps are left. -/
def keccakWalk (s : KeccakString) : Nat → Nat → Nat → KeccakString → KeccakString
  | 0, _, _, acc => acc
  | n + 1, x, y, acc =>
    let turned := (s.extractLsb' (64 * (x + 5 * y)) 64).rotateLeft ((24 - n) * (25 - n) / 2)
    let y' := (2 * x + 3 * y) % 5
    keccakWalk s n y y' (acc ||| BitVec.ofNat 1600 (turned.toNat * 2 ^ (64 * (y + 5 * y'))))

/-- χ: a lane changes where the next lane of its plane is 0 and the one after that is 1. -/
def keccakChi (s : KeccakString) : KeccakString :=
  BitVec.ofNat 1600 ((List.range 5).map (fun y =>
    let p := plane s y
    (p ^^^ (~~~p.rotateRight 64 &&& p.rotateRight 128)).toNat * 2 ^ (320 * y))).sum

/-- One step of the register that rc(t) reads: x^8 = x^6 + x^5 + x^4 + 1. -/
def rcStep (r : Nat) : Nat := if r < 128 then 2 * r else (2 * r - 256) ^^^ 0x71

/-- ι: seven steps of the register settle the bits at 2^j - 1 of lane (0, 0). -/
def keccakIota (s : KeccakString) (r : Nat) : KeccakString × Nat :=
  (List.range 7).foldl (fun e j => (e.1 ^^^ BitVec.ofNat 1600 (e.2 % 2 * 2 ^ (2 ^ j - 1)), rcStep e.2)) (s, r)

/-- Keccak-f[1600]: 24 rounds, with the register of rc running on from round to round. -/
def keccakF (s : KeccakString) : KeccakString :=
  ((List.range 24).foldl (fun e _ =>
    let t := keccakTheta e.1
    keccakIota (keccakChi (keccakWalk t 24 1 0 (t &&& BitVec.ofNat 1600 (2 ^ 64 - 1)))) e.2) (s, 1)).1

/-- The message with its suffix and pad10*1, in whole blocks of `rate` bytes. -/
def keccakPad (rate suffix : Nat) (m : List Byte) : List Byte :=
  let n := rate - m.length % rate
  m ++ leBytes n (suffix + 2 ^ (8 * n - 1))

/-- SPONGE: block after block of the padded message goes into the string, and then `out` bytes leave it, `rate` of them per call of
Keccak-f. -/
def sponge (rate suffix out : Nat) (m : List Byte) : List Byte :=
  let p := keccakPad rate suffix m
  let s := (List.range (p.length / rate)).foldl
    (fun s i => keccakF (s ^^^ BitVec.ofNat 1600 (leNat ((p.drop (rate * i)).take rate)))) 0
  ((List.range ((out + rate - 1) / rate)).flatMap fun k => leBytes rate (Nat.repeat keccakF k s).toNat).take out

/-- SHA3-512. -/
def sha3_512 (m : List Byte) : List Byte := sponge 72 0x06 64 m

/-- The big-endian bytes of a number, at least one. -/
def beBytes (v : Nat) : List Byte :=
  let n := if v = 0 then 1 else Nat.log2 v / 8 + 1
  (leBytes n v).reverse

/-- left_encode and right_encode of SP 800-185. -/
def leftEncode (v : Nat) : List Byte := BitVec.ofNat 8 (beBytes v).length :: beBytes v
def rightEncode (v : Nat) : List Byte := beBytes v ++ [BitVec.ofNat 8 (beBytes v).length]

/-- encode_string of SP 800-185. -/
def encodeString (s : List Byte) : List Byte := leftEncode (8 * s.length) ++ s

/-- bytepad of SP 800-185. -/
def bytepad (x : List Byte) (w : Nat) : List Byte :=
  let y := leftEncode w ++ x
  y ++ List.replicate ((w - y.length % w) % w) 0

/-- The ASCII bytes of a string. -/
def ascii (s : String) : List Byte := s.toList.map fun c => BitVec.ofNat 8 c.toNat

/-- KMAC256(K, X) of R197 with an output of `out` bytes. -/
def kmac256 (key x : List Byte) (out : Nat) : List Byte :=
  sponge 136 0x04 out
    (bytepad (encodeString (ascii "KMAC") ++ encodeString (ascii "ALV-C768")) 136 ++
      bytepad (encodeString key) 136 ++ x ++ rightEncode (8 * out))

/-- Multiplication by x in the field of AES. -/
def xtime (b : Nat) : Nat := if 128 ≤ b then (2 * b % 256) ^^^ 0x1B else 2 * b

/-- Product in the field of AES. -/
def gmul : Nat → Nat → Nat → Nat
  | 0, _, _ => 0
  | n + 1, a, b => (if b % 2 = 1 then a else 0) ^^^ gmul n (xtime a) (b / 2)

/-- Power in the field of AES. -/
def gpow (a : Nat) : Nat → Nat
  | 0 => 1
  | n + 1 => gmul 8 a (gpow a n)

/-- The S-box: the inverse (the 254th power) under the affine map of FIPS 197. -/
def sboxOf (b : Nat) : Nat :=
  let i := gpow b 254
  let r := fun k => (i * 2 ^ k % 256) ^^^ (i * 2 ^ k / 256)
  r 0 ^^^ r 1 ^^^ r 2 ^^^ r 3 ^^^ r 4 ^^^ 0x63

/-- The S-box as a table. -/
def sboxTable : Vector Nat 256 := Vector.ofFn fun i => sboxOf i.val

/-- The S-box of a byte. -/
def sbox (b : Nat) : Nat := sboxTable[b % 256]'(by omega)

/-- Exclusive or of two words of four bytes. -/
def xorBytes (a b : List Nat) : List Nat := List.zipWith (· ^^^ ·) a b

/-- The key schedule of AES-256: words newest first, extended to 60. -/
def aesSchedule : Nat → Nat → List (List Nat) → List (List Nat)
  | 0, _, ws => ws
  | n + 1, i, ws =>
    let t := ws.headD []
    let t := if i % 8 = 0 then
        match t with
        | [a, b, c, d] => [sbox b ^^^ (2 ^ (i / 8 - 1)), sbox c, sbox d, sbox a]
        | x => x
      else if i % 8 = 4 then t.map sbox else t
    aesSchedule n (i + 1) (xorBytes (ws.getD 7 []) t :: ws)

/-- The round keys of a 32-byte key, 16 bytes each. -/
def aesRoundKeys (key : List Byte) : List (List Nat) :=
  let k := key.map BitVec.toNat
  let ws0 := (List.range 8).map fun i => (k.drop (4 * i)).take 4
  let ws := (aesSchedule 52 8 ws0.reverse).reverse
  (List.range 15).map fun r => (ws.drop (4 * r)).take 4 |>.flatten

/-- SubBytes and ShiftRows. -/
def subShift (s : List Nat) : List Nat :=
  (List.range 16).map fun i => sbox (s.getD ((i + 4 * (i % 4)) % 16) 0)

/-- MixColumns. -/
def mixColumns (s : List Nat) : List Nat :=
  (List.range 16).map fun i =>
    let c := i / 4 * 4
    let x := fun k => s.getD (c + (i + k) % 4) 0
    gmul 8 2 (x 0) ^^^ gmul 8 3 (x 1) ^^^ x 2 ^^^ x 3

/-- AES-256 of one 16-byte block under its round keys. -/
def aesBlock (rks : List (List Nat)) (block : List Nat) : List Nat :=
  let s0 := xorBytes block (rks.headD [])
  let s := ((rks.drop 1).take 13).foldl (fun s k => xorBytes (mixColumns (subShift s)) k) s0
  xorBytes (subShift s) (rks.getD 14 [])

/-- AES-256 in the counter mode of R197: the 16-byte unit at unit number `n` of the data uses counter value `base + n`. -/
def aesCtr (key : List Byte) (base : Nat) (data : List Byte) : List Byte :=
  let rks := aesRoundKeys key
  (List.range ((data.length + 15) / 16)).flatMap fun n =>
    let ks := aesBlock rks ((leBytes 16 (base + n)).map BitVec.toNat)
    List.zipWith (fun d k => d ^^^ BitVec.ofNat 8 k) ((data.drop (16 * n)).take 16) ks

/-- K_o of an owner, R198. -/
def ownerKey (owner : Nat) : List Byte :=
  kmac256 (leBytes 32 Config.rootKey.toNat) (ascii "owner" ++ leBytes 8 owner) 32

/-- The owner id of a public key, R198. -/
def ownerId (pk : List Byte) : Nat := leNat ((sha3_512 pk).take 8)

/-- The seal of a capsule image without its last 32 bytes, R199. -/
def sealOf (owner : Nat) (body : List Byte) : List Byte := kmac256 (ownerKey owner) (ascii "seal" ++ body) 32

/-- The stock tag of a bank, R156. -/
def stockTag (owner layer bank : Nat) : Nat :=
  leNat ((kmac256 (ownerKey owner) (ascii "stock" ++ leBytes 1 layer ++ leBytes 1 bank) 32).take 8)

/-- The page tag of R429. -/
def pageTag (owner entryAddr version : Nat) (page : List Byte) : List Byte :=
  kmac256 (ownerKey owner) (ascii "page" ++ leBytes 8 entryAddr ++ leBytes 4 version ++ sha3_512 page) 32

/-- K_img of R223: the encryption key and the tag key. -/
def imageKey (owner inst counter : Nat) : List Byte :=
  kmac256 (ownerKey owner) (ascii "image" ++ leBytes 4 inst ++ leBytes 8 counter) 64

/-- The window token of R365. -/
def windowToken (owner base size : Nat) : List Byte :=
  kmac256 (ownerKey owner) (ascii "window" ++ leBytes 8 base ++ leBytes 8 size) 32

/-- The bytes CSEAL writes for a source and a label, R354. -/
def cseal (owner label : Nat) (src : List Byte) : List Byte :=
  let k := kmac256 (ownerKey owner) (ascii "cseal" ++ leBytes 8 label) 64
  let ct := aesCtr (k.take 32) 0 src
  let head := leBytes 8 label ++ leBytes 8 src.length ++ List.replicate 16 0
  ct ++ head ++ kmac256 (k.drop 32) (ct ++ head) 32

end Sys2Proof.Machine
end

