-- ==== Sys2Proof/Machine/Packets.lean ====
section
/-! DEFINITION. The bytes of packets and fault records (R76, R77, R400, R476): what an image, a spill area and the
fault-record area hold. -/

namespace Sys2Proof.Machine

/-- The route header, R476. -/
def routeHeader (src kind cls dest : Nat) : Nat := dest % 2 ^ 15 + cls % 16 * 2 ^ 16 + kind % 16 * 2 ^ 20 + src % 2 ^ 15 * 2 ^ 24

/-- Bytes 8 to 191 of a task packet, R76. -/
def Task.body (t : Task) : List Byte :=
  leBytes 8 t.pc.toNat ++ leBytes 8 t.tsr.toNat ++ leBytes 8 t.tid.toNat ++
    (t.lm.toList.flatMap fun m => leBytes 2 m.toNat) ++ leBytes 1 t.p.toNat ++ leBytes 2 t.gg.toNat ++
    List.replicate 13 0 ++ t.g.toList.flatMap fun r => leBytes 8 r.toNat

/-- A task packet of 192 bytes. -/
def taskPacket (header : Nat) (t : Task) : List Byte := leBytes 8 header ++ t.body

/-- Bits of a list of booleans, lowest first. -/
def packBits (l : List Bool) : Nat := l.foldr (fun b n => (if b then 1 else 0) + 2 * n) 0

/-- A message packet, R77. -/
def messagePacket (header tid member : Nat) (words : List (Word × Bool)) : List Byte :=
  let payload := words.flatMap fun w => leBytes 8 w.1.toNat
  leBytes 8 header ++ leBytes 8 tid ++ leBytes 1 member ++ leBytes 1 words.length ++
    leBytes 2 (packBits (words.map (·.2))) ++ List.replicate 12 0 ++ padTo ((payload.length + 31) / 32 * 32) payload

/-- The packet kind of R476. -/
def PktBody.kind : PktBody → Nat
  | .task _ _ _ => 0
  | .message _ _ _ => 1
  | .faultMessage _ _ _ => 2
  | .fault _ _ => 2
  | .resume _ => 3
  | .barrier _ _ _ => 4
  | .grant _ => 5

/-- A fault record of 256 bytes, R400. -/
def FaultRec.bytes (r : FaultRec) (seq : Nat) : List Byte :=
  leBytes 4 seq ++ leBytes 2 r.info.cls ++ leBytes 2 r.info.detail ++ leBytes 1 r.member ++ leBytes 1 r.disp ++
    leBytes 2 (r.role % 2 ^ 15) ++ leBytes 1 r.slot ++ leBytes 1 r.layer ++ leBytes 2 0 ++ leBytes 8 r.pc ++
    leBytes 8 r.info.addr ++ padTo 16 r.insn ++ leBytes 8 r.info.aux ++ leBytes 8 r.cyc ++
    (match r.frame with
     | some t => if r.slot = 0xFF then List.replicate 192 0 else taskPacket 0 t
     | none => List.replicate 192 0)

/-- The guard bit of a 64-byte line of a record: that of the values it holds (R400). -/
def FaultRec.lineGuard (r : FaultRec) (line : Nat) : Bool :=
  if line = 0 then r.info.guard
  else match r.frame with
  | none => false
  | some t =>
    match line with
    | 1 => decide (bits t.tsr.toNat 8 16 ≠ 0)
    | 2 => decide (bits t.gg.toNat 0 8 ≠ 0)
    | 3 => decide (bits t.gg.toNat 8 8 ≠ 0)
    | _ => false

end Sys2Proof.Machine
end

