-- ==== Sys2Proof/Machine/Discovery.lean ====
section
/-! DEFINITION. The discovery table (R188-R191): header, scope records, defect maps, capacity map, substitution list. Where
the maps lie in the table is the part's own; the model places them behind the records in this order (DESIGN CHOICE, log 21). -/

namespace Sys2Proof.Machine

/-- The repair map of the accepted blob. -/
def State.absentCores (s : State) : List Nat := (s.host.blob.map (·.absent)).getD []
def State.smallCores (s : State) : List Nat := (s.host.blob.map (·.small)).getD []
def State.substitutions (s : State) : SMap Nat := (s.host.blob.map (·.subst)).getD []

/-- Units mapped out: cores, clusters, die layers and chiplets. The blob names cores and clusters only: a layer counts as mapped out
when its 1,536 cores all are, and a chiplet when both its layers are (DESIGN CHOICE, log 85). -/
def State.absentLayers (s : State) : List Nat :=
  (List.range 12).filter fun l => (s.absentCores.filter fun c => layerOf c == l).length == 1536
def State.absentChiplets (s : State) : List Nat :=
  (List.range 6).filter fun c => s.absentLayers.contains (2 * c) && s.absentLayers.contains (2 * c + 1)

/-- Byte offsets of the maps and the list. -/
def discCoreMap : Nat := 640
def discClusterMap : Nat := 2944
def discLayerMap : Nat := 3232
def discChipletMap : Nat := 3240
def discCapacity : Nat := 3248
def discSubst : Nat := 5552

/-- Length of the table in units of 64 bytes, R129. -/
def State.discLen (s : State) : Nat := (discSubst + 8 * s.substitutions.length + 63) / 64

/-- PER, FENCE, BARMSG and LOAD of each scope at stepping B0, R191. -/
def scopeFigures : List (Nat × Nat × Nat × Nat) :=
  [(4, 2, 0, 4), (8, 2, 0, 4), (192, 10, 16, 30), (2, 48, 96, 60), (3, 120, 260, 110), (2, 240, 520, 220),
   (0, 400, 860, 380), (1, 2400, 0, 2200), (1, 1900, 0, 1700)]

/-- PODSZ in a value of ONZID, and as the Onazal block holds it (R371). -/
def podSizeOf (onz : Nat) : Nat := bits onz 32 13
def State.podSize (s : State) : Nat := podSizeOf s.host.onzId

/-- PRESENT of a scope, R189; `onz` is ONZID as a capsule's launch has loaded it (R6). -/
def State.present (s : State) (onz k : Nat) : Nat :=
  match k with
  | 0 => 4 * (18432 - s.absentCores.length)
  | 1 => 18432 - s.absentCores.length
  | 2 => 2304 - s.substitutions.length
  | 3 => 12 - s.absentLayers.length
  | 4 => 6 - s.absentChiplets.length
  | 5 => 2
  | 6 => 1
  | 7 => podSizeOf onz
  | _ => 1

/-- Word `w` of the record of scope `k`, R189. -/
def State.scopeWord (s : State) (onz k w : Nat) : Nat :=
  let (per, fence, barmsg, load) := scopeFigures.getD k (0, 0, 0, 0)
  match w with
  | 0 => s.present onz k * 2 ^ 32 + (if k = 6 then podSizeOf onz else per)
  | 1 => barmsg * 2 ^ 32 + fence
  | 2 => (if k = 1 then discCapacity else 0) * 2 ^ 32 + load
  | 3 => match k with
    | 1 => 18432 * 2 ^ 32 + discCoreMap
    | 2 => 2304 * 2 ^ 32 + discClusterMap
    | 3 => 12 * 2 ^ 32 + discLayerMap
    | 4 => 6 * 2 ^ 32 + discChipletMap
    | _ => 0
  | _ => 0

/-- Word `w` of the header, R188. -/
def State.discHeader (s : State) (onz w : Nat) : Nat :=
  match w with
  | 0 => discSubst * 2 ^ 32 + 9 * 2 ^ 16 + 0xB0 * 2 ^ 8 + 1
  | 1 => podSizeOf onz * 2 ^ 32 + bits onz 0 13
  | 2 => s.substitutions.length
  | _ => 0

/-- A byte of a map whose bit u is set for the listed units. -/
def mapByte (units : List Nat) (byte : Nat) : Byte :=
  (List.range 8).foldl (fun v i => if units.contains (8 * byte + i) then v ||| BitVec.ofNat 8 (2 ^ i) else v) 0

/-- A byte of the discovery table of a capsule launched under a value of ONZID (R6, R188); a byte past its contents reads zero (R477). -/
def State.discByte (s : State) (onz o : Nat) : Byte :=
  let byteOf := fun (w : Nat) => BitVec.ofNat 8 (w / 2 ^ (8 * (o % 8)))
  if o < 64 then byteOf (s.discHeader onz (o / 8))
  else if o < discCoreMap then byteOf (s.scopeWord onz (o / 64 - 1) (o % 64 / 8))
  else if o < discClusterMap then mapByte s.absentCores (o - discCoreMap)
  else if o < discLayerMap then mapByte (s.substitutions.map (·.1)) (o - discClusterMap)
  else if o < discChipletMap then mapByte s.absentLayers (o - discLayerMap)
  else if o < discCapacity then mapByte s.absentChiplets (o - discChipletMap)
  else if o < discSubst then mapByte s.smallCores (o - discCapacity)
  else match s.substitutions[(o - discSubst) / 8]? with
    | some (a, b) => byteOf (b * 2 ^ 32 + a)
    | none => 0

end Sys2Proof.Machine
end

