-- ==== Sys2Proof/Machine/Translate.lean ====
section
/-! DEFINITION. What a home holds for whom (keys, tags, R156, R159, R160), capsule addresses, extents and the checks that an
access makes at issue (R135-R145, R163, R269, R270, R426, R427, R460). -/

namespace Sys2Proof.Machine

/-! What a request finds at an address (R156, R159, R160) -/

/-- What a request carries to a home: the number of the HBM key it is served under (R159), its owner lane (R157) and the capsule
instance it belongs to, if any (R160). -/
structure Bearer where
  key : Nat
  lane : Nat
  inst : Option Nat
  deriving DecidableEq, Repr

/-- The number of an owner's HBM key (R159); 1 is the open key (R367) (DESIGN CHOICE, log 77). -/
def keyOf (owner : Nat) : Nat := owner + 2

/-- What the requests of a capsule carry. -/
def Capsule.bearer (cap : Capsule) : Bearer := ⟨keyOf cap.hdr.owner, cap.lane, some cap.inst⟩

/-- What the requests of an instance carry. -/
def State.bearer (s : State) (inst : Nat) : Bearer :=
  match s.capsule? inst with
  | some cap => cap.bearer
  | none => ⟨keyOf 0, 0, some inst⟩

/-- A line of HBM on this package. -/
def State.isHbm (s : State) (addr : Nat) : Bool := decide (addr < 2 ^ 64 ∧ devSpace addr = 0 ∧ devPkg addr = s.pkgId)

/-- The entry of `hbmKeys` for a key: the keys of the base dies are derived from the package id too (R159, R367). -/
def State.keyNow (s : State) (key : Nat) : Nat := key * 2 ^ 13 + s.pkgId

/-- An HBM line last written under another key reads as unpredictable bytes (R159). -/
def State.foreign (s : State) (key addr : Nat) : Bool :=
  s.isHbm addr && decide (SMap.get 0 s.hbmKeys (addr / 64) ≠ 0 ∧ SMap.get 0 s.hbmKeys (addr / 64) ≠ s.keyNow key)

/-- `n` free bytes (DESIGN CHOICE, log 6). -/
def freeBytes (draw n : Nat) : List Byte := (List.range n).map (Config.freeByte draw)

/-- A scratchpad line carries the residency tag of the reader's instance; a line that nothing has written since its tags were
cleared reads zeros either way (R160). -/
def State.resident (s : State) (b : Bearer) (addr : Nat) : Bool :=
  SMap.get (b.inst.getD (2 ^ 64)) s.stag (addr / 64) == b.inst.getD (2 ^ 64)

/-- The tag of a bank agrees with the tag of a key's owner (R156). -/
def State.tagAgrees (s : State) (key addr : Nat) : Bool :=
  decide (SMap.get 0 s.stock (16 * wsLayer addr + wsBank addr) = stockTag (key - 2) (wsLayer addr) (wsBank addr))

/-- The stock tag or the residency tag of an address of this package differs from the reader's: it reads zeros (R156, R160). -/
def State.hidden (s : State) (b : Bearer) (addr : Nat) : Bool :=
  decide (devPkg addr = s.pkgId) &&
    ((decide (devSpace addr = 1) && !s.tagAgrees b.key addr) || (decide (devSpace addr = 2) && !s.resident b addr))

/-- What a read of `n` bytes within one line finds at a home (R156, R159, R160). -/
def State.readDev (s : State) (b : Bearer) (addr n : Nat) : List Byte :=
  if s.foreign b.key addr then freeBytes s.freeCount n
  else if s.hidden b addr then List.replicate n 0
  else readBytes s.mem addr n

/-- What an access does, for the rights it needs (R144). -/
inductive Use where
  | load | store | atomic
  deriving DecidableEq, Repr

/-- An access reads, writes. -/
def Use.reads : Use → Bool
  | .store => false
  | _ => true
def Use.writes : Use → Bool
  | .load => false
  | _ => true

/-- Where a capsule address leads. -/
structure Target where
  /-- Device address, or 2^64 + the capsule address for the windows above 0xC00000000000. -/
  addr : Nat
  ext : Option Extent
  deriving DecidableEq, Repr

/-- The windows of R135. -/
def scratchWindow : Nat := 0x800000000000
def argWindow : Nat := 0xC00000000000
def discWindow : Nat := 0xC00000100000
def faultWindow : Nat := 0xC00000200000

/-- The window of a capsule address. -/
inductive Window48 where
  | extent | scratch | args | disc | fault | reserved
  deriving DecidableEq, Repr

/-- The window of R135. -/
def windowOf (ca : Nat) : Window48 :=
  if ca < scratchWindow then .extent
  else if ca < argWindow then .scratch
  else if ca < argWindow + 0x80000 then .args
  else if ca < discWindow then .reserved
  else if ca < faultWindow then .disc
  else if ca < faultWindow + 0x100000 then .fault
  else .reserved

/-- Role and offset of a scratchpad window address, R146. -/
def scratchRole (ca : Nat) : Nat := (ca - scratchWindow) / 2 ^ 31
def scratchOff (ca : Nat) : Nat := ca % 2 ^ 31

/-- The capsule address of a scratchpad word, R146. -/
def scratchCa (role off : Nat) : Nat := scratchWindow + role * 2 ^ 31 + off

/-- A task of a member sees an extent, R140. -/
def Extent.seen (e : Extent) (member : Nat) : Bool := e.allm || e.member == member

/-- The extent that covers a capsule address, R142. -/
def Capsule.extentAt? (cap : Capsule) (member ca : Nat) : Option Extent :=
  cap.exts.find? fun e => e.seen member && decide (e.vbase ≤ ca ∧ ca < e.vbase + e.len)

/-- The address of entry n of a sparse extent's page vector, and the entry as the capsule's requests read it, R141, R159. -/
def Extent.entryAddr (e : Extent) (n : Nat) : Nat := e.dbase + 8 * n
def State.pageEntry (s : State) (b : Bearer) (e : Extent) (n : Nat) : Nat := leNat (s.readDev b (e.entryAddr n) 8)
/-- PRESENT and the page's address. -/
def entryPresent (v : Nat) : Bool := decide (v % 2 = 1)
def entryPage (v : Nat) : Nat := v / 2 ^ 21 * 2 ^ 21

/-- Pages of a sparse extent; the record array begins at the next 64-byte boundary after the vector, the tag array at the
next after the records (R141, R428). -/
def Extent.pages (e : Extent) : Nat := e.len / 2 ^ 21
def Extent.recordAddr (e : Extent) (n : Nat) : Nat := alignUp (e.dbase + 8 * e.pages) 64 + 8 * n
def Extent.tagAddr (e : Extent) (n : Nat) : Nat := alignUp (alignUp (e.dbase + 8 * e.pages) 64 + 8 * e.pages) 64 + 32 * n

/-- The core holds the writer capability of an extent, or is the destination of a HANDOVER of it in transit (R145, R426). -/
def State.mayWrite (s : State) (cap : Capsule) (c : Nat) (e : Extent) : Bool :=
  cap.holders.any (fun h => h.member == e.member && h.ext == e.index && h.role == some (s.core c).role) ||
    s.capMoves.any fun m => m.inst == cap.inst && m.member == e.member && m.ext == e.index && m.toCore == c

/-- A device line holds a page vector of a sparse extent of the capsule (R428): the extent and the entry of an address. -/
def Capsule.pageVector? (cap : Capsule) (addr : Nat) : Option (Extent × Nat) :=
  (cap.exts.find? fun e => e.sparse && decide (e.dbase / 64 ≤ addr / 64 ∧ addr / 64 ≤ (e.dbase + 8 * e.pages - 1) / 64)).map
    fun e => (e, (addr - e.dbase) / 8)

/-- Class 8: the checks of R163 for guarded data towards an extent, R460. -/
def State.guardFault (s : State) (cap : Capsule) (e : Extent) (addr ea : Nat) : Option FaultInfo :=
  let aux := e.index + devPkg addr * 2 ^ 16
  if !e.guard then some ⟨8, 1, aux, ea, false⟩
  else if devSpace addr = 4 then some ⟨8, 3, aux, ea, false⟩
  else if devPkg addr ≠ s.pkgId ∧ !cap.roster.contains (devPkg addr) then some ⟨8, 2, aux, ea, false⟩
  else none

/-- Translation of a capsule address that an extent covers; none for an absent page (R142). -/
def State.translate (s : State) (b : Bearer) (e : Extent) (ca : Nat) : Option Nat :=
  let off := ca - e.vbase
  if e.sparse then
    let v := s.pageEntry b e (off / 2 ^ 21)
    if entryPresent v then some (entryPage v + off % 2 ^ 21) else none
  else some (e.dbase + off)

/-- The AUX code of the uncorrectable error that a read of entry n of an extent's page vector meets (R409, R437, R438). -/
def State.vectorError? (s : State) (e : Extent) (n : Nat) : Option Nat :=
  let a := e.entryAddr n
  let code := SMap.get 0 s.bad (a / 64)
  if s.isHbm a && s.failedHomes.contains (9, s.homeCluster (devLocal a)) then some 9
  else if code = 0 ∨ (3 ≤ code ∧ code ≤ 5) then none else some code

/-- The page of a sparse extent that a capsule address lies in; a dense extent has none (R141, R143). -/
def Extent.pageOf? (e : Extent) (ca : Nat) : Option Nat := if e.sparse then some ((ca - e.vbase) / 2 ^ 21) else none

/-- The offset of a capsule address within what a lookaside entry of its extent covers. -/
def Extent.within (e : Extent) (ca : Nat) : Nat := if e.sparse then (ca - e.vbase) % 2 ^ 21 else ca - e.vbase

/-- The entry of a core's lookaside that covers a capsule address of an extent, R143. -/
def Core.lookaside? (k : Core) (member : Nat) (e : Extent) (ca : Nat) : Option Lookaside :=
  k.lookaside.find? fun l => l.member == member && l.ext == e.index && l.page == e.pageOf? ca

/-- The translation of an access of a core: a held lookaside entry decides it; a miss reads the page vector (R142, R143). -/
def State.resolve (s : State) (cap : Capsule) (c member : Nat) (e : Extent) (ca : Nat) : Option Nat :=
  match (s.core c).lookaside? member e ca with
  | some l => some (l.base + e.within ca)
  | none => s.translate cap.bearer e ca

/-- The error that the translation of an access of a core meets in the page vector: a held lookaside entry reads none. -/
def State.resolveError? (s : State) (c member : Nat) (e : Extent) (ca : Nat) : Option Nat :=
  if e.sparse && ((s.core c).lookaside? member e ca).isNone then s.vectorError? e ((ca - e.vbase) / 2 ^ 21) else none

/-- A device address is that of one whole entry of a page vector. -/
def Extent.isEntry (e : Extent) (addr n : Nat) : Bool := decide (n < e.pages ∧ addr = e.entryAddr n)

/-- A combination that R270 marks as no access, or a write of the weight store otherwise than by a stocking capsule through a
WS extent (R154; the class 7 fault of such a store is a DESIGN CHOICE, log 83). -/
def Capsule.noAccess (cap : Capsule) (e : Extent) (use : Use) (a : Nat) : Bool :=
  (use == .atomic && decide (devSpace a = 4)) || (use.writes && decide (devSpace a = 1) && !(cap.hdr.stock && e.ws))

/-- The checks of classes 7 and 8 that look at the device address of a write: none is made for an absent page, which has no
device address; DETAIL 1 of class 8 names the package of DBASE there (DESIGN CHOICE, log 82). -/
def State.addressFault (s : State) (cap : Capsule) (e : Extent) (use : Use) (word guard : Bool) (ea : Nat) (a? : Option Nat) :
    Option FaultInfo :=
  match a? with
  | some a =>
    if cap.noAccess e use a then some ⟨7, 5, e.index, ea, false⟩
    else if use.writes && (match cap.pageVector? a with
        | some (v, n) => !(word && v.isEntry a n)
        | none => false) then some ⟨7, 6, e.index, ea, false⟩
    else if use.writes && guard then s.guardFault cap e a ea
    else none
  | none => if use.writes && guard && !e.guard then some ⟨8, 1, e.index + devPkg e.dbase * 2 ^ 16, ea, false⟩ else none

/-- The memory checks of one access at issue, in the order of R426: class 6, then 7, then 8, then 9. `word` says that the
access is an ST.d or STL.d; `guard` is the guard bit of the data a write carries. A translation that meets an uncorrectable error in
the page vector is a fault of class 16, whose AUX is the level code (R409, R437). -/
def State.checkAccess (s : State) (cap : Capsule) (c member ea size : Nat) (use : Use) (word guard : Bool) :
    Except FaultInfo Target :=
  if 2 ^ 48 ≤ ea then .error ⟨6, 1, 0, ea, false⟩
  else if ea % size ≠ 0 then .error ⟨6, 2, size, ea, false⟩
  else match windowOf ea with
    | .reserved => .error ⟨6, 3, 0, ea, false⟩
    | .scratch =>
      let r := scratchRole ea
      let o := scratchOff ea
      match cap.coreOf? 0 r with
      | none => .error ⟨6, 5, r, ea, false⟩
      | some d =>
        if 2 ^ 17 ≤ o ∨ cap.hdr.scratch < o + size then .error ⟨6, 5, r, ea, false⟩
        else .ok ⟨scratchAddr s.pkgId d o, none⟩
    | .args => if use.writes then .error ⟨7, 4, 0, ea, false⟩ else .ok ⟨2 ^ 64 + ea, none⟩
    | .disc => if use.writes then .error ⟨7, 4, 0, ea, false⟩ else .ok ⟨2 ^ 64 + ea, none⟩
    | .fault =>
      if use.writes ∨ (s.core c).role ≠ cap.hdr.super then .error ⟨7, 4, 0, ea, false⟩ else .ok ⟨2 ^ 64 + ea, none⟩
    | .extent =>
      match cap.extentAt? member ea with
      | none => .error ⟨6, 4, 0, ea, false⟩
      | some e =>
        let a? := s.resolve cap c member e ea
        if use.reads && !e.r then .error ⟨7, 1, e.index, ea, false⟩
        else if use.writes && !e.w then .error ⟨7, 2, e.index, ea, false⟩
        else if use.writes && e.u && !s.mayWrite cap c e then .error ⟨7, 3, e.index, ea, false⟩
        else match s.resolveError? c member e ea, s.addressFault cap e use word guard ea a? with
          | some code, _ => .error ⟨16, 0, code, ea, false⟩
          | none, some f => .error f
          | none, none =>
            match a? with
            | none => .error ⟨9, 1, (ea - e.vbase) / 2 ^ 21 + e.index * 2 ^ 32, ea, false⟩
            | some addr => .ok ⟨addr, some e⟩

/-- The fault of a check. -/
def faultOf {α : Type} : Except FaultInfo α → Option FaultInfo
  | .error f => some f
  | .ok _ => none

/-- Two lookaside entries cover the same extent or page for the same member. -/
def Lookaside.sameRange (a b : Lookaside) : Bool := a.member == b.member && a.ext == b.ext && a.page == b.page

/-- An extent lookaside entry is used, or filled in place of the entry used least recently (R143). -/
def Core.lookUp (k : Core) (e : Lookaside) : Core :=
  { k with lookaside := (e :: k.lookaside.filter fun o => !o.sameRange e).take 16 }

/-- The lookaside entry an access through an extent uses. -/
def Target.lookaside? (t : Target) (member ca : Nat) : Option Lookaside :=
  t.ext.map fun e => ⟨member, e.index, e.pageOf? ca, t.addr - e.within ca⟩

/-! Tensors (R312, R313) -/

/-- Bytes lo to lo + n - 1 of a tensor-table entry, little-endian. -/
def tField (t : BitVec 1024) (lo n : Nat) : Nat := bits t.toNat (8 * lo) (8 * n)
def tBase (t : BitVec 1024) : Nat := tField t 0 8
def tSbase (t : BitVec 1024) : Nat := tField t 8 8
def tFd (t : BitVec 1024) : Nat := tField t 16 4
def tNdim (t : BitVec 1024) : Nat := tField t 20 1
def tScaled (t : BitVec 1024) : Bool := decide (tField t 21 1 % 2 = 1)
def tDim (t : BitVec 1024) (d : Nat) : Nat := tField t (24 + 4 * d) 4
def tStr (t : BitVec 1024) (d : Nat) : Nat := tField t (56 + 8 * (d - 1)) 8
def tSstr (t : BitVec 1024) (d : Nat) : Nat := tField t (104 + 4 * (d - 1)) 4

end Sys2Proof.Machine
end

