-- ==== Sys2Proof/Machine/Home.lean ====
section
/-! DEFINITION. Homes: where a device address is performed, what is read and written there, with its line guard, owner
lane, key and tag, and the effect of each kind of access (R137, R147-R162, R167, R270, R271, R276, R280-R283, R437). -/

namespace Sys2Proof.Machine

/-- The home of a device address, R149, R270. -/
inductive Home where
  | core (c : Nat)
  | slice (cluster : Nat)
  | base (stack : Nat)
  | bank (n : Nat)
  | remote (pkg : Nat)
  | host
  /-- The slice that holds the capsule image. -/
  | image
  deriving DecidableEq, Repr

/-- The home of an address. -/
def State.homeOf (s : State) (addr : Nat) (msa : Bool) : Home :=
  if 2 ^ 64 ≤ addr then .image
  else if devSpace addr = 4 then .host
  else if devPkg addr ≠ s.pkgId then .remote (devPkg addr)
  else if devSpace addr = 2 then .core (scratchCore addr)
  else if devSpace addr = 1 then .bank (16 * wsLayer addr + wsBank addr)
  else if msa then .base (hbmStack (devLocal addr))
  else .slice (s.homeCluster (devLocal addr))

/-- The owner of a capsule instance, and the owner lane it holds. -/
def State.ownerOf (s : State) (inst : Nat) : Nat := ((s.capsule? inst).map (·.hdr.owner)).getD 0
def State.laneOf (s : State) (inst : Nat) : Nat := ((s.capsule? inst).map (·.lane)).getD 0

/-- A read of a foreign line draws a free value. -/
def State.drawRead (s : State) (key addr : Nat) : State :=
  if s.foreign key addr then { s with freeCount := s.freeCount + 1 } else s

/-- A scratchpad line that an instance writes takes its residency tag; what another instance left there is gone, and its
full/empty bits are empty and its guard bit clear (R160). -/
def State.claim (s : State) (b : Bearer) (addr : Nat) : State :=
  let line := addr / 64
  if devSpace addr = 2 then
    let s1 := if s.resident b addr then s
      else { s with
        mem := clearRange s.mem (64 * line) (64 * line + 64)
        full := s.full.filter fun e => e.1 / 8 != line
        sguard := s.sguard.filter fun e => e.1 != line }
    { s1 with stag := SMap.put s1.stag line (b.inst.getD (2 ^ 64)) }
  else s

/-- Store bytes within one line: a foreign line that is not written whole keeps unpredictable bytes (R159, R160) (DEDUCED, log 58). -/
def State.writeDev (s : State) (b : Bearer) (addr : Nat) (data : List Byte) : State :=
  let line := addr / 64
  if s.isHbm addr then
    let part := s.foreign b.key addr && data.length != 64
    let mem := if part then writeBytes s.mem (64 * line) (freeBytes s.freeCount 64) else s.mem
    { s with
      mem := writeBytes mem addr data
      freeCount := if part then s.freeCount + 1 else s.freeCount
      hbmKeys := SMap.put s.hbmKeys line (s.keyNow b.key) }
  else
    let s1 := s.claim b addr
    { s1 with mem := writeBytes s1.mem addr data }

/-- The guard bit of the on-die line at an address, R160-R162: HBM and the weight store store none. -/
def State.lineGuard (s : State) (b : Bearer) (addr : Nat) : Bool :=
  if devSpace addr = 2 then s.resident b addr && SMap.get false s.sguard (addr / 64)
  else s.isHbm addr && s.slice.any fun l => l.line == addr / 64 && l.lane == b.lane && l.guard

/-- The lines of a slice set, most recently used first; the set is the line number modulo 1,024 (R151; DESIGN CHOICE, log 12). -/
def State.sliceSet (s : State) (addr : Nat) (l : List SliceLine) : List SliceLine :=
  l.filter fun o => o.line % 1024 == addr / 64 % 1024 && s.homeCluster (devLocal (64 * o.line)) == s.homeCluster (devLocal addr)

/-- The home slice of a line holds it: 1,024 sets of 16 lines, the line of a full set used least recently being written back and
replaced (R151; DESIGN CHOICE, log 12). A store makes the line dirty and sets its guard bit as R117 sets a granule's. -/
def State.touchSlice (s : State) (lane addr n : Nat) (store guard : Bool) : State :=
  if s.isHbm addr then
    let same := fun (l : SliceLine) => l.line == addr / 64 && l.lane == lane
    let old := (s.slice.find? same).getD ⟨addr / 64, lane, false, false⟩
    let g := if store then (if n = 64 then guard else old.guard || guard) else old.guard
    let rest := s.slice.filter fun l => !same l
    let set := s.sliceSet addr rest
    let kept := match (if set.length < 16 then none else set.getLast?) with
      | some o => rest.filter fun l => l != o
      | none => rest
    { s with slice := ⟨addr / 64, lane, g, old.dirty || store⟩ :: kept }
  else s

/-- The guard bit of the line that a write of `n` bytes leaves, R162, R273. -/
def State.markLine (s : State) (b : Bearer) (addr n : Nat) (msa guard : Bool) : State :=
  if devSpace addr = 2 then
    { s with sguard := SMap.put s.sguard (addr / 64) (if n = 64 then guard else s.lineGuard b addr || guard) }
  else if msa then s else s.touchSlice b.lane addr n true guard

/-- The copies of a line in crossing caches are invalidated (R167). -/
def State.dropCross (s : State) (addr : Nat) : State :=
  { s with cross := s.cross.filter fun l => l.line != addr / 64 }

/-- The home of a line sends invalidations of its crossing-cache copies: each may be returned until its invalidation is
acknowledged, which is before the write is (R167, R168). -/
def State.invalidate (s : State) (addr : Nat) : State :=
  { s with cross := s.cross.map fun l => if l.line = addr / 64 then { l with dying := true } else l }

/-- The invalidations of a line's copies have been acknowledged. -/
def State.dropDying (s : State) (addr : Nat) : State :=
  { s with cross := s.cross.filter fun l => !(l.line == addr / 64 && l.dying) }

/-- The chiplet that holds the home of an address on this package, if it may be cached in a crossing cache (R149). -/
def State.homeChiplet? (s : State) (addr : Nat) (msa : Bool) : Option Nat :=
  match s.homeOf addr msa with
  | .slice cl => some (cl / 384)
  | .bank n => some (n / 32)
  | _ => none

/-- The next chiplet of the route from a chiplet to another, R14. -/
def nextChiplet (near far : Nat) : Nat :=
  if near / 3 ≠ far / 3 then (near + 3) % 6 else if near < far then near + 1 else near - 1

/-- A read by a core of another chiplet leaves a copy in the crossing cache of the first port of its route (R14, R152). -/
def State.fillCross (s : State) (core : Nat) (b : Bearer) (addr : Nat) (msa : Bool) (data : List Byte) : State :=
  match s.homeChiplet? addr msa with
  | none => s
  | some far =>
    let near := chipletOf core
    if near = far then s
    else
      let port := nextChiplet near far
      { s with
        cross := ⟨near, port, addr / 64, b.lane, s.lineGuard b addr, s.serial, false, data⟩ ::
          s.cross.filter fun l => !(l.chiplet == near && l.port == port && l.line == addr / 64 && l.lane == b.lane) }

/-- A write of the core to a line is under way: sent, and not yet acknowledged. -/
def State.ownWrite (s : State) (core line : Nat) : Bool :=
  s.accesses.any fun a => a.core == core && a.addr / 64 == line && (match a.state with
    | .unplaced | .held | .replied => false
    | _ => true) && (match a.op with
    | .store | .amo _ | .red _ | .cas _ | .amof _ | .redf _ => true
    | _ => false)

/-- A copy in the crossing cache of the route's first port that a read by the core may return: of the same line and lane,
and filled after the core's last acquire of chiplet scope or wider (R152). A copy whose invalidation is in progress may be
returned too (R168), but not to a core whose own write invalidates it (R166). -/
def State.crossHit? (s : State) (core lane addr : Nat) (msa : Bool) : Option CrossLine :=
  match s.homeChiplet? addr msa with
  | none => none
  | some far =>
    let near := chipletOf core
    if near = far then none
    else s.cross.find? fun l => l.chiplet == near && l.port == nextChiplet near far && l.line == addr / 64 && l.lane == lane &&
      decide ((s.core core).acquired ≤ l.filled) && !(l.dying && s.ownWrite core (addr / 64))

/-- A read of the line of an address by a core: the line, the guard bit of the on-die line that supplies it, and the state.
A crossing-cache copy may supply it or not (R152; DESIGN CHOICE, log 6: a free choice); otherwise the home does (R149, R151, R156-R159). -/
def State.fetchLine (s : State) (core : Nat) (b : Bearer) (addr : Nat) (msa : Bool) : List Byte × Bool × State :=
  let line := s.readDev b (addr / 64 * 64) 64
  let home := ((s.drawRead b.key addr).touchSlice b.lane addr 0 false false).fillCross core b addr msa line
  if msa then (line, false, s.drawRead b.key addr)
  else match s.crossHit? core b.lane addr msa with
    | some l =>
      if Config.freeBit s.freeCount then (l.data, l.guard, { s with freeCount := s.freeCount + 1 })
      else (line, s.lineGuard b addr, { home with freeCount := home.freeCount + 1 })
    | none => (line, s.lineGuard b addr, home)

/-- The record that stands at an offset of the record area, R400, R401. -/
def Capsule.recordAt? (cap : Capsule) (o : Nat) : Option (FaultRec × Nat) := cap.records.reverse.find? fun r => r.2 % 4096 == o / 256

/-- A byte of the record area: of a record, or as a system capsule has rewritten it (R134, R400). -/
def Capsule.recordByte (cap : Capsule) (o : Nat) : Byte :=
  match cap.recWords.find? fun e => e.1 == o / 8 with
  | some (_, w) => (leBytes 8 w.1.toNat).getD (o % 8) 0
  | none => match cap.recordAt? o with
    | some (r, seq) => (r.bytes seq).getD (o % 256) 0
    | none => 0

/-- The guard bit of a line of the record area, R400. -/
def Capsule.recordGuard (cap : Capsule) (o : Nat) : Bool :=
  (cap.recWords.any fun e => e.1 / 8 == o / 64 && e.2.2) || (match cap.recordAt? o with
    | some (r, _) => r.lineGuard (o % 256 / 64)
    | none => false)

/-- Bytes of the windows at 0xC00000000000 and above, R135, R400, R477. -/
def State.windowByte (s : State) (cap : Capsule) (ca : Nat) : Byte :=
  match windowOf ca with
  | .args => match cap.members[(ca - argWindow) / 2048]? with
    | some m => m.args.getD ((ca - argWindow) % 2048) 0
    | none => 0
  | .disc => s.discByte cap.onzId (ca - discWindow)
  | .fault => cap.recordByte (ca - faultWindow)
  | _ => 0

/-- The guard bit of a line of those windows. -/
def State.windowGuard (cap : Capsule) (ca : Nat) : Bool :=
  match windowOf ca with
  | .fault => cap.recordGuard (ca - faultWindow)
  | _ => false

/-! Full/empty bits (R146, R147) -/

/-- The full/empty bit of the word at a device address, as a request sees it: empty under another residency tag (R160). -/
def State.isFull (s : State) (b : Bearer) (addr : Nat) : Bool := s.resident b addr && SMap.get false s.full (addr / 8)

/-- Set it. -/
def State.setFull (s : State) (b : Bearer) (addr : Nat) (v : Bool) : State :=
  let s1 := s.claim b addr
  { s1 with full := SMap.put s1.full (addr / 8) v }

/-- The lowest empty word of a range, R325. -/
def State.lowestEmpty? (s : State) (b : Bearer) (addr size : Nat) : Option Nat :=
  ((List.range (size / 8)).map (addr / 8 + ·)).find? fun w => !s.isFull b (8 * w)

/-! Atomic operations -/

/-- New value of AMO and RED, R280. -/
def amoValue (fn width old src : Nat) : Nat :=
  match fn with
  | 0 => (old + src) % 2 ^ width
  | 1 => old &&& src
  | 2 => old ||| src
  | 3 => old ^^^ src
  | 4 => if toSigned width old ≤ toSigned width src then old else src
  | 5 => if toSigned width old ≤ toSigned width src then src else old
  | 12 => min old src
  | 13 => max old src
  | _ => src

/-- New value of AMOF and REDF, R282. -/
def amofValue (fn old src : Nat) : Nat :=
  let sp := if fn = 0 then binary32 else bfloat16
  sp.round 0 false (Num.add 0 (sp.value old) (sp.value src))

/-! Performing an access -/

/-- The capsule an access belongs to. -/
def State.capOf? (s : State) (a : Access) : Option Capsule := s.capsule? a.inst

/-- The device address of an access now: a scratchpad address follows its role to the core that holds it (R90, R146). -/
def State.placeOf (s : State) (a : Access) : Nat :=
  if windowOf a.ca = .scratch then
    match (s.capOf? a).bind fun cap => cap.coreOf? 0 (scratchRole a.ca) with
    | some c => scratchAddr s.pkgId c (scratchOff a.ca)
    | none => a.addr
  else a.addr

/-- The home of an access now. -/
def State.homeNow (s : State) (a : Access) : Home := s.homeOf (s.placeOf a) a.msa

/-- An access by number. -/
def State.access? (s : State) (id : Nat) : Option Access := s.accesses.find? fun a => a.id == id

/-- Replace an access; remove one. -/
def State.setAccess (s : State) (a : Access) : State :=
  { s with accesses := s.accesses.map fun b => if b.id = a.id then a else b }
def State.dropAccess (s : State) (id : Nat) : State := { s with accesses := s.accesses.filter fun b => b.id != id }

/-- A value goes to a destination. -/
def AccOp.returns : AccOp → Bool
  | .load | .ldf | .ldfe | .fetst | .amo _ | .cas _ | .amof _ | .fetch => true
  | _ => false

/-- An atomic or reduction. -/
def AccOp.atomic : AccOp → Bool
  | .amo _ | .cas _ | .red _ | .amof _ | .redf _ => true
  | _ => false

/-- Data is written to memory. -/
def AccOp.writes : AccOp → Bool
  | .store | .put | .ste | .stf => true
  | op => op.atomic

/-- The home has performed the access. -/
def AccState.isDone : AccState → Bool
  | .performed | .replied => true
  | _ => false

/-- An earlier word of the same JOIN has not been taken yet: the words are taken in ascending address (R342). -/
def State.joinWaits (s : State) (a : Access) : Bool :=
  a.op == .ldfe && (match a.result with
    | some (r, part) => s.accesses.any fun b => !b.state.isDone && (match b.result with
      | some (q, p) => q == r && decide (p < part)
      | none => false)
    | none => false)

/-- The condition for which a tagged operation or an operand fetch waits at its home, R147, R325, R342. -/
def State.condition (s : State) (a : Access) : Bool :=
  match a.op with
  | .ldf => s.isFull (s.bearer a.inst) (s.placeOf a)
  | .ldfe => s.isFull (s.bearer a.inst) (s.placeOf a) && !s.joinWaits a
  | .ste => !s.isFull (s.bearer a.inst) (s.placeOf a)
  | .fetch => (s.lowestEmpty? (s.bearer a.inst) (s.placeOf a) a.size).isNone
  | _ => true

/-- An access as its home has performed it: its reply takes the next place on class 1 (R85). -/
def Access.performedAt (a : Access) (s : State) : Access := { a with state := .performed, perf := s.serial }

/-- An access is performed and has no value to return. -/
def State.acknowledge (s : State) (a : Access) : State := (s.setAccess (a.performedAt s)).tick

/-- Reply of an access: its bytes and guard bit; the access is performed. -/
def State.replyWith (s : State) (a : Access) (data : List Byte) (guard : Bool) : State :=
  s.acknowledge { a with reply := data, replyGuard := guard }

/-- Every byte of the data of an access is stored. -/
def Access.stored (a : Access) : Bool := (List.range a.size).all fun i => a.mask.getLsbD i

/-- Data laid over old bytes under a byte mask. -/
def mergeMasked (old data : List Byte) (mask : BitVec 64) : List Byte :=
  data.mapIdx fun i b => if mask.getLsbD i then b else old.getD i 0

/-- Store data at the home of an access (R162, R167, R273, R279, R293): a PUT ORs its guard bit with the line's, whatever its
size. -/
def State.storeAt (s : State) (a : Access) (addr : Nat) (data : List Byte) (guard : Bool) : State :=
  let b := s.bearer a.inst
  if a.stored then
    ((s.invalidate addr).writeDev b addr data).markLine b addr (if a.op = .put then 0 else data.length) a.msa guard
  else
    let merged := mergeMasked (s.readDev b addr data.length) data a.mask
    (((s.drawRead b.key addr).invalidate addr).writeDev b addr merged).markLine b addr 0 a.msa guard

/-- The guard bit of the on-die line that supplies an access; a base die supplies none (R158, R162). -/
def State.loadGuard (s : State) (a : Access) (addr : Nat) : Bool := !a.msa && s.lineGuard (s.bearer a.inst) addr

/-- A write that reaches host space is forwarded; its flushing read is still to complete (R176). -/
def State.forwarded (s : State) (addr number inst : Nat) : State :=
  if addr < 2 ^ 64 ∧ devSpace addr = 4 then { s with host := { s.host with flushes := s.host.flushes ++ [(number, inst)] } } else s

/-- A line of the windows above 0xC00000000000 for a load or PREF: its bytes and guard bit. -/
def State.windowLine (s : State) (a : Access) : List Byte × Bool :=
  match s.capOf? a with
  | some cap => ((List.range 64).map fun i => s.windowByte cap (a.ca / 64 * 64 + i), State.windowGuard cap a.ca)
  | none => ([], false)

/-- The new value of a word under an atomic or reduction with operand `src`; none when a CAS fails (R280-R282). -/
def AccOp.newValue? (op : AccOp) (size old src : Nat) : Option Nat :=
  match op with
  | .amo fn | .red fn => some (amoValue fn (8 * size) old src)
  | .cas expect => if old = expect % 2 ^ (8 * size) then some src else none
  | .amof fn | .redf fn => some (amofValue fn old src)
  | _ => none

/-- The home performs an access whose condition holds, except the serving of waiters (R147, R149, R270, R276, R280-R283).
A memory error is handled before (R437). A line that is reached through an MSA extent and through one without MSA is one line of
memory, which holds the value performed last (R271; DESIGN CHOICE, log 103). -/
def State.effect (s : State) (a : Access) : State :=
  let addr := s.placeOf a
  let b := s.bearer a.inst
  let old := s.readDev b addr a.size
  let oldGuard := s.loadGuard a addr
  match a.op with
  | .load =>
    if 2 ^ 64 ≤ addr then
      let (line, g) := s.windowLine a
      s.acknowledge { a with reply := (line.drop (a.ca % 64)).take a.size, replyGuard := g, line := line }
    else
      let (line, guard, s1) := s.fetchLine a.core b addr a.msa
      s1.acknowledge { a with reply := (line.drop (addr % 64)).take a.size, replyGuard := guard, line := line }
  | .fetch =>
    let guard := (granulesOf addr a.size).any fun l => s.lineGuard b (64 * l)
    let bytes := (granulesOf addr a.size).flatMap fun l => s.readDev b (64 * l) 64
    s.replyWith a ((bytes.drop (addr % 64)).take a.size) guard
  | .store | .put => ((s.storeAt a addr a.data a.guard).forwarded addr a.id a.inst).acknowledge a
  | .pref level =>
    if 2 ^ 64 ≤ addr then
      let (line, g) := s.windowLine a
      s.acknowledge { a with line := line, fill := a.fill && level == 0, replyGuard := g }
    else
      if level = 0 then
        -- a line that fills the first-level cache is read as a load reads it (R278)
        let (line, guard, s1) := s.fetchLine a.core b addr a.msa
        s1.acknowledge { a with line := line, replyGuard := guard }
      else
        let line := s.readDev b (addr / 64 * 64) 64
        let s1 := s.acknowledge { a with line := line, fill := false, replyGuard := oldGuard }
        let s2 := (s1.drawRead b.key addr).touchSlice b.lane addr 0 false false
        if level = 2 then s2.fillCross a.core b addr a.msa line else s2
  | .ldf => s.replyWith a old oldGuard
  | .ldfe => (s.setFull b addr false).replyWith a old oldGuard
  | .ste | .stf => ((s.storeAt a addr a.data a.guard).setFull b addr true).acknowledge a
  | .feset => (s.setFull b addr true).acknowledge a
  | .feclr => (s.setFull b addr false).acknowledge a
  | .fetst => s.replyWith a (leBytes 8 (if s.isFull b addr then 1 else 0)) false
  | op =>
    let s1 := s.drawRead b.key addr
    let s2 := match op.newValue? a.size (leNat old) (leNat a.data) with
      | some v => s1.storeAt a addr (leBytes a.size v) a.guard
      | none => s1
    if op.returns then s2.replyWith a old oldGuard else s2.acknowledge a

/-! The waiting operations of a home (R148, R97) -/

/-- The waiting operations at the scratchpad of a core, in the order in which they stand. -/
def State.waitersAt (s : State) (c : Nat) : List Access :=
  (s.accesses.filter fun a => a.state == .waiting && s.homeNow a == .core c).mergeSort fun a b => a.order ≤ b.order

/-- Places among the 32 that are taken: waiters and places reserved for granted tickets. -/
def State.waitPlaces (s : State) (c : Nat) : Nat :=
  (s.waitersAt c).length + ((s.core c).homeTickets.filter (·.granted)).length

/-- While a place is free, the oldest ticket is granted it, and a grant is sent to its holder (R97) (DEDUCED, log 56). -/
def State.grantHome (s : State) (c : Nat) : State :=
  (s.core c).homeTickets.foldl (fun s t =>
    if t.granted ∨ 32 ≤ s.waitPlaces c then s
    else
      let k := s.core c
      let f := fun (u : Ticket) => if u.pkt = t.pkt then { u with granted := true } else u
      let s1 := s.setCore c { k with homeTickets := k.homeTickets.map f }
      match s1.access? t.pkt with
      | some a => (s1.setAccess { a with state := .granted }).sendTicketGrant a.inst c a.core a.id
      | none => s1) s

/-- The ticket of an access at a home is used up. -/
def State.useTicket (s : State) (c id : Nat) : State :=
  s.setCore c { s.core c with homeTickets := (s.core c).homeTickets.filter fun t => t.pkt != id }

/-- Fetches that name the same core, offset and size and wait at the source are served by one read (R326). -/
def State.multicast (s : State) (a : Access) : State :=
  let same := s.accesses.filter fun b =>
    b.state == .waiting && b.op == .fetch && b.ca == a.ca && b.size == a.size && b.inst == a.inst
  same.foldl (fun s b => s.effect b) s

/-- One pass over the waiting operations of a word, in arrival order (R148). A fetch that finds an empty word moves to
the end of the queue of the lowest such word (R325). -/
def State.servePass (s : State) (c word : Nat) : State × Bool :=
  ((s.waitersAt c).filter fun a => a.word == word).foldl (fun (sb : State × Bool) b =>
    let (s, any) := sb
    match s.access? b.id with
    | none => (s, any)
    | some a =>
      if a.state != .waiting then (s, any)
      else if s.condition a then
        let s1 := s.effect a
        (if a.op = .fetch then s1.multicast a else s1, true)
      else match a.op, s.lowestEmpty? (s.bearer a.inst) (s.placeOf a) a.size with
        | .fetch, some w => ((s.setAccess { a with word := w, order := s.serial }).tick, any)
        | _, _ => (s, any)) (s, false)

/-- The home serves the queue of a word until no waiting operation can be performed (R148). -/
def State.serveWord (c word : Nat) : Nat → State → State
  | 0, s => s
  | n + 1, s =>
    let (s1, any) := s.servePass c word
    if any then State.serveWord c word n s1 else s1

/-- After an access at a scratchpad word: when its full/empty bit has changed, the word's queue is served, and freed
places go to tickets. A word of a JOIN that is taken lets the next word of its line be taken (R342). -/
def State.afterChange (s : State) (b : Bearer) (c addr : Nat) (before : Bool) : State :=
  if s.isFull b addr = before then s
  else ((List.range 8).foldl (fun (s : State) i => State.serveWord c (addr / 8 + i) (s.accesses.length + 1) s) s).grantHome c

/-- An access is cancelled: it has no effect, and its result is never written (R218, R442). -/
def State.cancelAccess (s : State) (a : Access) : State :=
  let mine := fun (r : Result) => match a.result with
    | some (id, _) => r.id == id
    | none => false
  { s.dropAccess a.id with results := s.results.filter fun r => !mine r }

/-- The capsule of an access is completing: what could wait without end is cancelled (R218). -/
def State.draining (s : State) (a : Access) : Bool :=
  match s.capOf? a with
  | some cap => cap.stage == .completing
  | none => true

/-! Memory errors (R437, R438) -/

/-- The end of a capsule is sent to the Plaza with a status (R405). -/
def State.endCapsule (s : State) (inst status : Nat) : State :=
  match s.capsule? inst with
  | some cap => s.setCapsule { cap with endReqs := cap.endReqs ++ [status] }
  | none => s

/-- Work of a core meets an uncorrectable error of a level at a capsule address: the class 16 record, for which no chapter states
a DETAIL, and its capsule ends (R405, R409, R437). -/
def State.engineError (s : State) (inst c member pc : Nat) (insn : List Byte) (code ca : Nat) (handler : Bool := false) : State :=
  (s.reportFault inst c member pc insn 2 ⟨16, (Config.freeDetail 16).toNat, code, ca, false⟩ handler).endCapsule inst 5

/-- An instruction or entry meets an error of register space, level code 2. -/
def State.spaceError (s : State) (inst c member pc : Nat) (insn : List Byte) (handler : Bool) : State :=
  s.engineError inst c member pc insn 2 0 handler

/-- The effect of an instruction that reads granules: one that reads a granule in error has none but the class 16 fault. -/
def State.readingSpace (s : State) (x : Cur) (gs : List Nat) (v : Verdict) : Verdict :=
  if x.k.badIn gs then .next (s.spaceError x.cap.inst x.c x.t.member x.pc x.insn (x.k.slot x.n).fromFault) else v

/-- The AUX code of the error that an access of `n` bytes meets, if it is a class 16 fault (DEDUCED, log 79). -/
def State.memError? (s : State) (b : Bearer) (home : Home) (addr n : Nat) (store : Bool) : Option Nat :=
  let code := SMap.get 0 s.bad (addr / 64)
  let failed := match home with
    | .slice cl => if s.failedHomes.contains (9, cl) then some 9 else none
    | .base st => if s.failedHomes.contains (10, st) then some 10 else none
    | _ => none
  match failed with
  | some c => some c
  | none =>
    if code = 0 ∨ (3 ≤ code ∧ code ≤ 5) then none
    -- a scratchpad line under another residency tag reads zeros without the array being read (R160, R437)
    else if code = 1 ∧ s.resident b addr = false then none
    else if store ∧ n = 64 ∧ (code = 1 ∨ code = 8) then none
    else some code

/-- An entry of the device error log, a ring of 1,024; a new uncorrected entry, a refused seal and a lock mismatch send
MSI-X vector 256 (R408). -/
def State.logError (s : State) (e : LogEntry) : State :=
  let l := s.host.errlog
  let same := fun (o : LogEntry) => o.unit = e.unit ∧ o.location = e.location ∧ o.kind = e.kind
  let l' := if l.any fun o => decide (same o) then
      l.map fun o => if same o then { o with count := o.count + 1, cyc := e.cyc } else o
    else (l ++ [e]).drop (l.length + 1 - 1024)
  let due := decide (e.kind = 4 ∨ e.kind = 5) || (e.kind == 1 && !l.any fun o => decide (same o))
  let masked := s.host.msixMask.contains 256
  { s with
    host := { s.host with errlog := l', out := s.host.out ++ if due && !masked then [HostOut.msix 256] else [] }
    plaza := { s.plaza with msixDue := s.plaza.msixDue ++ if due && masked then [256] else [] } }

/-- A device event of the STATUS register sends MSI-X vector 256, or waits while the vector is masked (R368). -/
def State.signalEvent (s : State) : State :=
  if s.host.msixMask.contains 256 then { s with plaza := { s.plaza with msixDue := s.plaza.msixDue ++ [256] } }
  else { s with host := { s.host with out := s.host.out ++ [HostOut.msix 256] } }

/-- CYC of a die layer. -/
def State.layerCyc (s : State) (l : Nat) : Nat := (s.layers[l % 12]'(Nat.mod_lt _ (by decide))).cyc.toNat

/-- The CYC of the die layer of the unit where a level's error stands, 0 outside the die layers (R408): of a scratchpad, a register
space (location 512 × core + granule; log 74), a first-level cache, a cache slice, a bank of the weight store, or a home slice. -/
def State.lineCyc (s : State) (level addr : Nat) : Nat :=
  match level with
  | 1 => s.cycOf (scratchCore addr)
  | 2 => s.cycOf (addr / 512)
  | 3 => match s.cores.find? fun e => e.2.l1.any fun l => l.line == addr / 64 with
    | some (c, _) => s.cycOf c
    | none => 0
  | 5 | 6 => s.layerCyc (clusterLayer (s.homeCluster (devLocal addr)))
  | 7 => s.layerCyc (wsLayer addr)
  | 9 => s.layerCyc (clusterLayer addr)
  | _ => 0

/-- A line of a core's first-level cache is in error (R437). -/
def State.l1Bad (s : State) (core addr : Nat) : Bool :=
  SMap.get 0 s.bad (addr / 64) == 3 && (s.core core).l1.any fun l => l.line == addr / 64

/-- A core meets a line of its first-level cache in error: the line is dropped, to be refilled, and logged as corrected (R437). -/
def State.dropL1Bad (s : State) (core addr : Nat) : State :=
  if s.l1Bad core addr then
    let k := s.core core
    ({ s with bad := SMap.put s.bad (addr / 64) 0 }.setCore core { k with l1 := k.l1.filter fun l => l.line != addr / 64 }).logError
      ⟨3, addr, 0, 1, s.cycOf core⟩
  else s

/-- The state of a line after an access of a core has met its error at its home: copies in a crossing cache and clean slice lines are
refilled, a dirty slice line is invalidated and HBM keeps an older value (DESIGN CHOICE, log 6), a line written whole is good
again (R437). -/
def State.afterError (s : State) (addr n core : Nat) (store : Bool) : State :=
  let line := addr / 64
  let code := SMap.get 0 s.bad line
  let clear := { s with bad := SMap.put s.bad line 0 }
  match code with
  | 0 => s
  | 3 => s
  | 4 => if s.cross.any fun l => l.line == line && l.chiplet == chipletOf core then (clear.dropCross addr).logError ⟨4, addr, 0, 1, 0⟩ else s
  | 5 => clear
  | 6 => { clear with
      mem := writeBytes s.mem (64 * line) (freeBytes s.freeCount 64)
      freeCount := s.freeCount + 1
      slice := s.slice.filter fun l => l.line != line }
  | _ => if store ∧ n = 64 ∧ code ≠ 7 then clear else s

/-- A class 16 fault of the capsule that issued an access: the record, and the capsule ends (R405, R437). The access
is dropped with its result. -/
def State.memFault (s : State) (a : Access) (code : Nat) : State :=
  (s.engineError a.inst a.core a.member a.pc a.insn code a.ca).dropAccess a.id

end Sys2Proof.Machine
end

