-- ==== Sys2Proof/Machine/Operands.lean ====
section
/-! DEFINITION. Operand forms: register groups and their checks (R61, R235, R416), immediates and offsets (R238), and the
marks and pending bits that an operand must be clear of (R82, R83, R415, R240). -/

namespace Sys2Proof.Machine

/-- The registers of a group: base and width code, R61. -/
def groupOf (base w : Nat) : List Nat := (List.range (2 ^ w)).map (base + ·)

/-- 4/1: a group whose base breaks its alignment. -/
def misaligned (base w : Nat) : Option FaultInfo := failIf (base % 2 ^ w ≠ 0) 4 1 base

/-- 4/4: a read of a general register marked by the task's own slot (R415). -/
def readMarked (x : Cur) (regs : List Nat) : Option FaultInfo :=
  match regs.find? fun r => ((x.k.slot x.n).mark).getLsbD r with
  | some r => some ⟨4, 4, r, 0, false⟩
  | none => none

/-- 4/5: a write of a general register marked by the task's own slot. -/
def writeMarked (x : Cur) (regs : List Nat) : Option FaultInfo :=
  match regs.find? fun r => ((x.k.slot x.n).mark).getLsbD r with
  | some r => some ⟨4, 5, r, 0, false⟩
  | none => none

/-- A granule marked by the task's own slot: the fault of the given detail. -/
def granMarked (x : Cur) (detail : Nat) (gs : List Nat) : Option FaultInfo :=
  match gs.find? fun g => match x.k.markOf? g with
      | some p => p.slot == x.n
      | none => false with
  | some g => some ⟨4, detail, 0x100 + g, 0, false⟩
  | none => none

/-- A granule whose pending bit records a different slot: the instruction does not issue (R83). -/
def granBlocked (x : Cur) (gs : List Nat) : Option BlockWhy :=
  match gs.find? fun g => match x.k.pendOf? g with
      | some p => p.slot != x.n
      | none => false with
  | some g => some (.granules g 1)
  | none => none

/-- The value and guard bit of a general register of the executing task. -/
def Cur.reg (x : Cur) (r : BitVec 4) : Word := x.t.reg r.toNat
def Cur.guard (x : Cur) (r : BitVec 4) : Bool := x.t.regGuard r.toNat

/-- The words of a group, lowest register first. -/
def Cur.regs (x : Cur) (base w : Nat) : List Word := (groupOf base w).map x.t.reg

/-- The little-endian bytes of a group. -/
def Cur.groupBytes (x : Cur) (base w : Nat) : List Byte := (x.regs base w).flatMap fun v => leBytes 8 v.toNat

/-- The OR of the guard bits of a group. -/
def Cur.groupGuard (x : Cur) (base w : Nat) : Bool := (groupOf base w).any x.t.regGuard

end Sys2Proof.Machine

namespace Sys2Proof

open Sys2Proof.Machine

/-- The immediate of format I, R238. -/
def FmtI.value (f : FmtI) : Word := f.imm.signExtend 64

/-- The offset of formats M and ML, R238. -/
def FmtM.offset (f : FmtM) : Word := f.off.signExtend 64

/-- The address of format M: A plus OFF, or A plus B (R235). -/
def FmtM.ea (f : FmtM) (x : Cur) : Word := if f.x = 1 then x.reg f.a + x.reg f.b else x.reg f.a + f.offset

/-- The address registers of format M. -/
def FmtM.addrRegs (f : FmtM) : List Nat := if f.x = 1 then [f.a.toNat, f.b.toNat] else [f.a.toNat]

/-- Format ML as format M with a list. -/
def FmtML.toM (f : FmtML) : FmtM := ⟨f.d, f.dw, f.a, f.b, f.x, f.sz, f.sc, f.fn, f.off⟩

/-- The branch target of format B: the transfer's own offset plus 4 × OFF, exact (R8, R238, R262). -/
def FmtB.target (f : FmtB) (pc : Nat) : Int := pc + 4 * f.off.toInt

/-- The role operand of formats T and W: the index RI, or general register B (R235). -/
def FmtT.roleIndex (f : FmtT) (x : Cur) : Nat := if f.rx = 1 then (x.reg f.b).toNat else f.ri.toNat

/-- The guard bit of the register that gives the index of a role operand. -/
def FmtT.roleGuard (f : FmtT) (x : Cur) : Bool := decide (f.rx = 1) && x.guard f.b

end Sys2Proof

namespace Sys2Proof.Machine

/-- An effect that writes one general register of the executing task. -/
def Cur.setReg (x : Cur) (s : State) (d : Nat) (v : Word) (guard : Bool) : State :=
  s.setTask x.c x.n (x.t.setReg d v guard)

/-- Set the pending bits and unswitched marks of general registers (R82, R415). -/
def State.pendRegs (s : State) (c n : Nat) (regs : List Nat) : State :=
  let sl := s.slot c n
  s.setSlot c n { sl with
    pend := regs.foldl (fun v r => setBit16 v r true) sl.pend
    mark := regs.foldl (fun v r => setBit16 v r true) sl.mark }

/-- A variable-latency result whose value is already known: it is pending until written (R82, R251). -/
def State.pendValue (s : State) (x : Cur) (d : Nat) (v : Word) (guard : Bool) : State :=
  let s1 := s.pendRegs x.c x.n [d]
  let r : Result :=
    { id := s1.serial, inst := x.cap.inst, core := x.c, slot := x.n, slotSerial := (s1.slot x.c x.n).serial, dst := .regs d 1 8 false,
      parts := [some (leBytes 8 v.toNat, guard)], grans := [], dropped := false }
  { s1 with serial := s1.serial + 1, results := s1.results ++ [r] }

end Sys2Proof.Machine
end

