-- ==== Sys2Proof/Machine/Tensor.lean ====
section
/-! DEFINITION. Tensors, boxes and the byte runs that copies and matrix entries read and write (R42, R43, R171, R312, R313,
R321, R347, R349, R352), with the checks of those runs at issue (R315, R347, R420, R426). -/

namespace Sys2Proof.Machine

/-- A run of capsule addresses: the first and the count of bytes. -/
abbrev Run := Nat × Nat

/-- Two runs share a byte. -/
def runsMeet (a b : Run) : Bool := decide (a.1 < b.1 + b.2 ∧ b.1 < a.1 + a.2 ∧ 0 < a.2 ∧ 0 < b.2)

/-- Elements of a scaled block, R42. -/
def fdBlock (fd : Nat) : Nat := if fdContainer fd = 16 then 16 else 32

/-- The extent of a dimension; dimensions at or above NDIM hold 1 (R312). -/
def tSize (t : BitVec 1024) (d : Nat) : Nat := if d < tNdim t then tDim t d else 1

/-- The container width of a tensor's elements. -/
def tBits (t : BitVec 1024) : Nat := fdContainer (tFd t)

/-- A tensor-table entry as the table keeps it: the reserved fields (bits [8:0] of FD, TFLAGS [7:1], bytes 22 to 23 and 52 to 55)
read as zero, whatever was written (R5, R312; DESIGN CHOICE, log 80). -/
def tKept (t : BitVec 1024) : BitVec 1024 :=
  t &&& ~~~(BitVec.ofNat 1024 ((2 ^ 9 - 1) * 2 ^ 128 + (2 ^ 7 - 1) * 2 ^ 169 + (2 ^ 16 - 1) * 2 ^ 176 + (2 ^ 32 - 1) * 2 ^ 416))

/-- A tensor entry is defined, R313. -/
def tDefined (t : BitVec 1024) : Bool :=
  let n := tNdim t
  let upper := (List.range 6).map (· + 1) |>.filter fun d => decide (d < n)
  decide (1 ≤ n ∧ n ≤ 7) && fdValid (tFd t) && decide (fdKind (tFd t) ≤ 6) && decide (tBase t % 32 = 0) &&
    upper.all (fun d => decide (tStr t d % 32 = 0)) &&
    (!tScaled t || (decide (fdKind (tFd t) ≠ 5 ∧ tDim t 0 % fdBlock (tFd t) = 0 ∧ tSbase t % 32 = 0) &&
      upper.all fun d => decide (tSstr t d % 32 = 0)))

/-- Σ over dimensions 1 to 6 of coordinate times stride, below NDIM. -/
def strideSum (t : BitVec 1024) (str : Nat → Nat) (c : List Nat) : Nat :=
  ((List.range 6).map fun i => if i + 1 < tNdim t then c.getD (i + 1) 0 * str (i + 1) else 0).sum

/-- The byte that holds the first bit of an element, R313. -/
def elemByte (t : BitVec 1024) (c : List Nat) : Nat := tBase t + c.getD 0 0 * tBits t / 8 + strideSum t (tStr t) c

/-- The bit within its first byte at which an element begins. -/
def elemPhase (t : BitVec 1024) (c : List Nat) : Nat := c.getD 0 0 * tBits t % 8

/-- The bytes that hold `n` elements from `c` on. -/
def elemsRun (t : BitVec 1024) (c : List Nat) (n : Nat) : Run := (elemByte t c, (elemPhase t c + n * tBits t + 7) / 8)

/-- The codes of `n` elements in the bytes of their run. -/
def elemCodes (t : BitVec 1024) (c : List Nat) (n : Nat) (l : List Byte) : List Nat :=
  (List.range n).map fun i => bits (leNat l) (elemPhase t c + i * tBits t) (tBits t)

/-- Codes laid into the bytes of their run; the bits of other elements keep the old value. -/
def layCodes (t : BitVec 1024) (c : List Nat) (old : List Byte) (codes : List Nat) : List Byte :=
  leBytes old.length ((codes.zipIdx).foldl (fun v x => setBits v (elemPhase t c + x.2 * tBits t) (tBits t) x.1) (leNat old))

/-- The address of an element's scale, R313. -/
def scaleByte (t : BitVec 1024) (c : List Nat) : Nat :=
  tSbase t + 2 * (c.getD 0 0 / fdBlock (tFd t)) + strideSum t (tSstr t) c

/-- The highest coordinates of a tensor. -/
def lastCoord (t : BitVec 1024) : List Nat := (List.range 7).map fun d => tSize t d - 1

/-- The footprint of a tensor: the smallest range that holds every byte of its arrays, R171. -/
def footprint (t : BitVec 1024) : Nat × Nat :=
  let last := lastCoord t
  let elems := (tBase t, tBase t + (tSize t 0 * tBits t + 7) / 8 + strideSum t (tStr t) last)
  if tScaled t then (min elems.1 (tSbase t), max elems.2 (scaleByte t last + 2)) else elems

/-- The coordinates that a register pair holds, R321; the same layout gives box sizes (R347). -/
def pairCoords (g0 g1 : Nat) : List Nat :=
  [bits g0 0 32, bits g0 32 32, bits g1 0 12, bits g1 12 12, bits g1 24 12, bits g1 36 12, bits g1 48 12]

/-- The container of element `k` counted from the first bit of a list of bytes (R28). -/
def containerAt (l : List Byte) (cb k : Nat) : Nat := bits (leNat l) (k * cb) cb

/-! Copies -/

/-- Offsets along dimensions 1 to 6 of row `k` of a box, in box order (R347). -/
def rowOffsets : List Nat → Nat → List Nat
  | [], _ => []
  | n :: l, k => k % n :: rowOffsets l (k / n)

/-- The page dimension of a gather or scatter, R352. -/
def CopyEntry.pageDim (e : CopyEntry) : Nat :=
  match e.kind with
  | .cgath => tNdim e.ts - 1
  | .cscat => tNdim e.td - 1
  | _ => 7

/-- Rows of the box: every combination of offsets along dimensions 1 to 6. A paged copy of one dimension has its pages
along dimension 0, each element being a row. -/
def CopyEntry.rows (e : CopyEntry) : Nat := if e.pageDim = 0 then e.box.getD 0 0 else ((e.box.drop 1).foldl (· * ·) 1)

/-- Elements of a row. -/
def CopyEntry.rowElems (e : CopyEntry) : Nat := if e.pageDim = 0 then 1 else e.box.getD 0 0

/-- The offsets of row `k`, dimension 0 first. -/
def CopyEntry.offsets (e : CopyEntry) (k : Nat) : List Nat :=
  if e.pageDim = 0 then [k] else 0 :: rowOffsets (e.box.drop 1) k

/-- Coordinates of the first element of row `k` on one side; `pages` replaces the coordinate along the page dimension. -/
def CopyEntry.coords (e : CopyEntry) (start : List Nat) (paged : Bool) (k : Nat) : List Nat :=
  let off := e.offsets k
  (List.range 7).map fun d =>
    if paged && d == e.pageDim then e.indexes.getD (off.getD d 0) 0 else start.getD d 0 + off.getD d 0

/-- Source and destination coordinates of row `k`. -/
def CopyEntry.srcCoords (e : CopyEntry) (k : Nat) : List Nat := e.coords e.sc (e.kind == .cgath) k
def CopyEntry.dstCoords (e : CopyEntry) (k : Nat) : List Nat := e.coords e.dc (e.kind == .cscat) k

/-- Bytes of a row in the destination and in the source. -/
def CopyEntry.dstRow (e : CopyEntry) : Nat := e.rowElems * tBits e.td / 8
def CopyEntry.srcRow (e : CopyEntry) : Nat := (e.rowElems * tBits e.ts + 7) / 8

/-- Destination bytes of the copy in box order, R347, R354. -/
def CopyEntry.bytes (e : CopyEntry) : Nat := e.rows * e.rowElems * tBits e.td / 8 + (if e.kind = .cseal then 64 else 0)

/-- The part of rows that bytes lo to hi - 1 of a box take up: runs from each row's start. -/
def rowRuns (start : Nat → Nat) (rowBytes lo hi : Nat) : List Run :=
  if rowBytes = 0 ∨ hi ≤ lo then []
  else (List.range ((hi - 1) / rowBytes - lo / rowBytes + 1)).map fun i =>
    let k := lo / rowBytes + i
    let a := max lo (k * rowBytes)
    let b := min hi ((k + 1) * rowBytes)
    (start k + (a - k * rowBytes), b - a)

/-- Scale runs of the box on one side (R347). -/
def CopyEntry.scaleRuns (e : CopyEntry) (t : BitVec 1024) (coords : Nat → List Nat) : List Run :=
  if tScaled t then
    (List.range e.rows).map fun k => (scaleByte t (coords k), 2 * ((e.rowElems + fdBlock (tFd t) - 1) / fdBlock (tFd t)))
  else []

/-- The whole of the page dimension on one side, the other dimensions as in the box (R352). -/
def CopyEntry.pagedRuns (e : CopyEntry) (t : BitVec 1024) (start : List Nat) : List Run :=
  let h := e.pageDim
  let wide : CopyEntry :=
    { e with kind := .copy
             box := e.box.set h (tSize t h) }
  let from_ := start.set h 0
  let c := fun (k : Nat) => wide.coords from_ false k
  ((List.range wide.rows).map fun k => (elemByte t (c k), (wide.rowElems * tBits t + 7) / 8)) ++ wide.scaleRuns t c

/-- Runs of the source box; for CGATH, of every page it may name (R352). -/
def CopyEntry.srcBox (e : CopyEntry) : List Run :=
  if e.kind = .cgath then e.pagedRuns e.ts e.sc
  else ((List.range e.rows).map fun k => (elemByte e.ts (e.srcCoords k), e.srcRow)) ++ e.scaleRuns e.ts e.srcCoords

/-- Runs of the index elements of a paged copy, R352. -/
def CopyEntry.indexRuns (e : CopyEntry) : List Run :=
  match e.kind with
  | .cgath | .cscat => [(tBase e.ti + 4 * e.ge, 4 * e.box.getD e.pageDim 0)]
  | _ => []

/-- Runs of the source box and, for a paged copy, of the index elements: the CR access (R170, R352). -/
def CopyEntry.crRuns (e : CopyEntry) : List Run := e.srcBox ++ e.indexRuns

/-- The destination bytes of chunk `b` (R349). -/
def CopyEntry.chunkRuns (e : CopyEntry) (b : Nat) : List Run :=
  let top := min (512 * b + 512) e.bytes
  if e.kind = .cseal then [(elemByte e.td e.dc + 512 * b, top - 512 * b)]
  else if e.pageDim = 0 then
    (List.range ((top - 512 * b) * 8 / tBits e.td)).map fun i =>
      (elemByte e.td (e.dstCoords (512 * b * 8 / tBits e.td + i)), (tBits e.td + 7) / 8)
  else rowRuns (fun k => elemByte e.td (e.dstCoords k)) e.dstRow (512 * b) top

/-- Runs of the CW access of chunk `b`; the scales go with the chunk that holds the last byte, R349. -/
def CopyEntry.cwRuns (e : CopyEntry) (b : Nat) : List Run :=
  let scales := if b + 1 = e.chunks then e.scaleRuns e.td e.dstCoords else []
  if e.kind = .cscat ∧ !e.begun then e.pagedRuns e.td e.dc else e.chunkRuns b ++ scales

/-- The chunks not yet written. -/
def CopyEntry.undone (e : CopyEntry) : List Nat := (List.range e.chunks).filter fun b => !e.done.contains b

/-- Runs of every chunk not yet written. -/
def CopyEntry.dstRuns (e : CopyEntry) : List Run := e.undone.flatMap e.cwRuns

/-- Runs of the whole destination box (R170). -/
def CopyEntry.boxRuns (e : CopyEntry) : List Run := (List.range e.chunks).flatMap e.cwRuns

/-! Matrix entries -/

/-- Elements of one 32-byte row of an operand tile. -/
def tileElems (t : BitVec 1024) : Nat := 256 / tBits t

/-- Coordinates of row `r` of a tile at coordinates `c`. -/
def tileRow (c : List Nat) (r : Nat) : List Nat := c.set 1 (c.getD 1 0 + r)

/-- The part of row `r` of an operand tile that lies in the tensor: its run (R321). -/
def tileRun (t : BitVec 1024) (c : List Nat) (r : Nat) : Run :=
  if tSize t 1 ≤ c.getD 1 0 + r then (0, 0)
  else (elemByte t (tileRow c r), (min (tileElems t) (tSize t 0 - c.getD 0 0) * tBits t + 7) / 8)

/-- The scales of the two blocks of row `r` that lie in the tensor (R321). -/
def tileScaleRun (t : BitVec 1024) (c : List Nat) (r : Nat) : Run :=
  let b0 := c.getD 0 0 / fdBlock (tFd t)
  if tSize t 1 ≤ c.getD 1 0 + r then (0, 0)
  else (scaleByte t (tileRow c r), 2 * min 2 (tSize t 0 / fdBlock (tFd t) - b0))

/-- The part of row `i` of an accumulator tile that lies in the tensor (R322). -/
def accRun (t : BitVec 1024) (c : List Nat) (i : Nat) : Run :=
  if tSize t 1 ≤ c.getD 1 0 + i then (0, 0)
  else elemsRun t (tileRow c i) (min 16 (tSize t 0 - c.getD 0 0))

/-- The rows of a tile. -/
def rows16 (f : Nat → Run) : List Run := (List.range 16).map f

/-- MMAT: i0, j0, k0 and M, N, K (R327). -/
def QmEntry.blockOf (e : QmEntry) : Nat × Nat × Nat × Nat × Nat × Nat :=
  let g := fun (i : Nat) => e.g.getD i 0
  (g 0, g 1, g 2, bits (g 3) 0 16, bits (g 3) 16 16, bits (g 3) 32 16)

/-- K of one tile for the container widths of the operands (R318). -/
def tileK (a b : Nat) : Nat := if a = 16 then 16 else if a = 8 ∧ b = 8 then 32 else 64

/-- K of one tile of an MMAT (R327). -/
def QmEntry.matK (e : QmEntry) : Nat := tileK (tBits e.t2) (tBits e.t3)

/-- A block of rows of a tensor: `n` rows from `r0`, `m` elements from `c0`, taken in tiles of `kt` elements. The scales of each tile are
those of two blocks, where the tensor has them (R321, R328). -/
def blockRuns (t : BitVec 1024) (kt r0 n c0 m : Nat) : List Run :=
  (List.range n).flatMap fun i =>
    let c := [c0, r0 + i]
    let before := (m - kt) / fdBlock (tFd t)
    elemsRun t c m ::
      (if tScaled t then [(scaleByte t c, 2 * (before + min 2 (tSize t 0 / fdBlock (tFd t) - c0 / fdBlock (tFd t) - before)))] else [])

/-- Runs of the memory reads of a qm entry (MR); the operand fetch of MMAR counts at the scratchpad window (R146). -/
def QmEntry.mrRuns (e : QmEntry) : List Run :=
  let c := pairCoords (e.g.getD 0 0) (e.g.getD 1 0)
  match e.op with
  | .mld => rows16 (tileRun e.t1 c)
  | .mldSc => rows16 (tileScaleRun e.t1 c)
  | .mmar => [(scratchCa e.role (bits (e.g.getD 1 0) 0 17), if e.wideB then 1024 else 512)]
  | .mmat =>
    let (i0, j0, k0, m, n, k) := e.blockOf
    blockRuns e.t2 e.matK i0 m k0 k ++ blockRuns e.t3 e.matK j0 n k0 k ++
      (if bits e.f.fn.toNat 0 1 = 1 then blockRuns e.t1 e.matK i0 m j0 n else [])
  | _ => []

/-- The operands of MMAT that are the 8-bit half of a mixed pair (R318, R327). -/
def QmEntry.matWideA (e : QmEntry) : Bool := tDefined e.t2 && tDefined e.t3 && decide (tBits e.t2 = 8 ∧ tBits e.t3 = 4)
def QmEntry.matWideB (e : QmEntry) : Bool := tDefined e.t2 && tDefined e.t3 && decide (tBits e.t2 = 4 ∧ tBits e.t3 = 8)

/-- The granules that a qm entry writes (R314, R320-R334). -/
def QmEntry.writes (k : Core) (e : QmEntry) : List Nat :=
  let tiles := fun (n : BitVec 5) (wide : Bool) => granulesOf (k.mOff n.toNat) (if wide then 1024 else 512)
  let acc := granulesOf (k.aOff e.f.ad.toNat) 1024
  let vec := fun (n : BitVec 7) (m : Nat) => granulesOf (k.vOff n.toNat) (64 * m)
  match e.op with
  | .mzero | .mma | .mmas | .macc => acc
  | .mld => tiles e.f.ma false
  | .mldSc => vec e.f.vsa 1
  | .mst | .mcode => []
  | .mmar => acc ++ tiles e.f.mb e.wideB
  | .mmat => acc ++ tiles e.f.ma e.matWideA ++ tiles e.f.mb e.matWideB ++
      (if tScaled e.t2 || tScaled e.t3 then vec e.f.vsa 1 ++ vec e.f.vsb 1 else [])
  | .mtrn => tiles e.f.mb false
  | .tqry => vec e.f.vsa 2

/-- Runs of the memory writes of a qm entry (MW). -/
def QmEntry.mwRuns (e : QmEntry) : List Run :=
  match e.op with
  | .mst => rows16 (accRun e.t1 (pairCoords (e.g.getD 0 0) (e.g.getD 1 0)))
  | .mmat =>
    let (i0, j0, _, m, n, _) := e.blockOf
    blockRuns e.t1 e.matK i0 m j0 n
  | _ => []

/-! Checks at issue -/

/-- A run cut at 64-byte boundaries. -/
def unitsOf (r : Run) : List Run :=
  (List.range ((r.1 + r.2 - 1) / 64 - r.1 / 64 + 1)).filterMap fun i =>
    let u := r.1 / 64 + i
    let a := max r.1 (64 * u)
    let b := min (r.1 + r.2) (64 * u + 64)
    if r.2 = 0 then none else some (a, b - a)

/-- The order of the memory checks: a failure of a lower class comes first, and within a class one of a lower DETAIL (R412, R426). -/
def firstByClass (l : List FaultInfo) : Option FaultInfo :=
  [6, 7, 8].findSome? fun c => (List.range 8).findSome? fun d => l.find? fun f => f.cls == c && f.detail == d

/-- The check of every byte of some runs, in units; an absent page is no fault at issue (R427), and the
engine meets an error of the page vector when it translates. -/
def State.checkRuns (s : State) (cap : Capsule) (c member : Nat) (use : Use) (guard : Bool) (runs : List Run) :
    List FaultInfo :=
  (runs.flatMap unitsOf).filterMap fun u =>
    match s.checkAccess cap c member u.1 1 use false guard with
    | .error f => if f.cls = 9 ∨ f.cls = 16 then none else some f
    | .ok _ => none

end Sys2Proof.Machine
end

