-- ==== Sys2Proof/Machine/Access.lean ====
section
/-! DEFINITION. The LSU of a core: the issue, holding and sending of accesses and sends, completion at a scope, the
acquire action, the first-level cache, and the writing of results (R150, R164-R181, R357). -/

namespace Sys2Proof.Machine

/-- The runs of the bytes under a mask among the lowest `n`: the active bytes of a vector store (R289). -/
def maskRuns (mask : BitVec 64) : Nat → List Run
  | 0 => []
  | n + 1 =>
    let l := maskRuns mask n
    if mask.getLsbD n then
      match l.getLast? with
      | some r => if r.1 + r.2 = n then l.dropLast ++ [(r.1, r.2 + 1)] else l ++ [(n, 1)]
      | none => [(n, 1)]
    else l

/-- The bytes that an access reads or writes, as runs from an address on: a masked store writes no others (R170, R289, R293). -/
def Access.bytesFrom (a : Access) (from_ : Nat) : List Run :=
  if a.op = .store ∧ a.stored = false then (maskRuns a.mask a.size).map fun r => (from_ + r.1, r.2) else [(from_, a.size)]

/-- Capsule addresses of an access. -/
def Access.bytes (a : Access) : List Run := a.bytesFrom a.ca

/-- The capsule addresses by which ranges see an access: those of the whole vector access it is an element of (R294). -/
def Access.runs (a : Access) : List Run := if a.span.isEmpty then a.bytes else a.span

/-- Not an access of an engine (R172). -/
def Access.isLsu (a : Access) : Bool := a.entry.isNone

/-- The home of an access is the core's own scratchpad. -/
def State.ownScratch (s : State) (a : Access) : Bool := s.homeNow a == .core a.core

/-- A numbered access, entry or post has been sent: it is no longer held at its LSU. -/
def Access.isSent (a : Access) : Bool :=
  match a.state with
  | .unplaced | .held => false
  | _ => true

/-- An access was issued by the capsule that the core belongs to: a parked role's accesses keep the number of its last core. -/
def State.ofCore (s : State) (c : Nat) (a : Access) : Bool := a.core == c && (s.core c).inst == some a.inst

/-- A numbered access or engine entry of a core is complete at a scope, R165. A parked role's entries are in its image. At system
scope a write to host space is complete only once its flushing read is (R176). -/
def State.completeAt (s : State) (c scope id : Nat) : Bool :=
  match s.access? id with
  | none => !(s.core c).hasEntry id && !(s.capsules.any fun k => k.parked.any fun p => p.saved.hasEntry id) &&
      !(decide (8 ≤ scope) && s.host.flushes.any fun f => f.1 == id)
  | some a =>
    match a.op with
    | .store => decide (scope ≤ 1) && a.isSent && (a.state == .performed || !s.ownScratch a)
    | .red _ | .redf _ => decide (scope ≤ 1) && a.isSent
    | .ldf | .ldfe | .fetst => a.state == .replied
    | _ => false

/-- A prefetch, which has no kind and is never ordered (R164). -/
def AccOp.isPref : AccOp → Bool
  | .pref _ => true
  | _ => false

/-- A tagged operation, a JOIN word or an MMAR fetch. -/
def AccOp.tagged : AccOp → Bool
  | .ldf | .ldfe | .ste | .fetch => true
  | _ => false

/-! Holding (R164, R173, R175, R178, R179, R224, R357) -/

/-- The bit of a kind in a mask, R64: R W A F CR CW MR MW. -/
def Kind.bit : Kind → Nat
  | .r => 0 | .w => 1 | .a => 2 | .f => 3 | .cr => 4 | .cw => 5 | .mr => 6 | .mw => 7

/-- A fence of the same task issued before number `id` holds a later access of a kind over some runs; a send has no runs. -/
def Fence.holds (fe : Fence) (c slot serial id : Nat) (kind : Kind) (runs : List Run) : Bool :=
  fe.core == c && fe.slot == slot && fe.slotSerial == serial && decide (fe.id < id) &&
    (if fe.isLda then
       match fe.ranges with
       | none => true
       | some l => runs.any fun r => l.any fun t => runsMeet r (t.1, t.2 - t.1)
     else fe.succ.getLsbD kind.bit)

/-- A fence or LDA holds an access or send. -/
def State.fenced (s : State) (c slot serial id : Nat) (kind : Kind) (runs : List Run) : Bool :=
  s.fences.any fun fe => fe.holds c slot serial id kind runs

/-- A fence or LDA holds an engine entry until its acquire action has been performed; a FENCE orders no entry after another, so that
its acquire action, as far as entries wait for it, follows on its LSU accesses (R175, R178, R284) (DEDUCED, log 59). -/
def State.entryFenced (s : State) (c slot serial id : Nat) (kind : Kind) (runs : List Run) : Bool :=
  s.fences.any fun fe => fe.holds c slot serial id kind runs && !fe.entriesFree

/-- The range scoreboard, R173: an access waits for the incomplete engine accesses issued before it. -/
def State.scoreboard (s : State) (a : Access) : Bool :=
  let k := s.core a.core
  let dest := fun (l : List Run) => l.any fun r => a.bytes.any (runsMeet r)
  let writes := a.op.writes
  !a.op.isPref && ((k.copies.any fun e => decide (e.id < a.id) && (dest e.dstRuns || (writes && dest e.crRuns))) ||
    k.qm.any fun e => decide (e.id < a.id) && (dest e.mwRuns || (writes && dest e.mrRuns)))

/-- A writer capability that moves to the core is still in transit for the extent that an access writes (R357). -/
def State.inTransit (s : State) (inst c id ext : Nat) (sees : Nat → Bool) : Bool :=
  s.capMoves.any fun m => m.inst == inst && m.toCore == c && decide (m.id < id) && sees m.member && m.ext == ext

/-- The extent of a capability move is the one an access writes: its index, and a member whose view the task shares (R140). -/
def State.writeInTransit (s : State) (a : Access) : Bool :=
  a.op.writes && (match a.ext, s.capOf? a with
    | some i, some cap => match cap.exts.find? fun e => e.index == i && e.seen a.member with
      | some e => s.inTransit a.inst a.core a.id i fun m => m == e.member
      | none => false
    | _, _ => false)

/-- The scratchpad that an access names belongs to a parked role: it waits at its sender (R224). -/
def State.destParked (s : State) (a : Access) : Bool :=
  windowOf a.ca == .scratch && (match s.capOf? a with
    | some cap => cap.isParked (scratchRole a.ca)
    | none => false)

/-- The instruction is a vector load or store, made of element accesses (R172, R293). -/
def Access.isElement (a : Access) : Bool :=
  let op := bits (leNat (a.insn.take 2)) 3 8
  decide (0x60 ≤ op ∧ op ≤ 0x65)

/-- CLASSMODE of an instance's capsule: it governs every packet and PUT that the capsule sends (R126). -/
def State.modeOf (s : State) (inst : Nat) : BitVec 24 := BitVec.ofNat 24 (((s.capsule? inst).map (·.hdr.classmode)).getD 0)

/-- The class of a packet or PUT is ordered, R85, R126. -/
def classOrdered (mode : BitVec 24) (cls : Nat) : Bool :=
  decide (cls < 4) || decide (bits mode.toNat (2 * (cls - 4)) 2 ≠ 2)

/-- The route header of a PUT, R476. -/
def State.putHeader (s : State) (a : Access) : Nat := routeHeader a.core 6 a.cls (scratchCore (s.placeOf a))

/-- The device addresses of an access: a scratchpad address where its role now is. -/
def State.bytesAt (s : State) (a : Access) : List Run := a.bytesFrom (s.placeOf a)

/-- Two accesses share a byte of one device address. -/
def State.meets (s : State) (a b : Access) : Bool := (s.bytesAt a).any fun r => (s.bytesAt b).any (runsMeet r)

/-- Requests of class 0 that the LSU keeps in their order; PREF is never ordered (R164, R169). -/
def inOrder (b a : Access) : Bool := b.cls == 0 && a.cls == 0 && !b.op.isPref && !a.op.isPref

/-- A tagged operation of the core, issued before an access, waits at its home for a bit to change. -/
def State.tagWaits (s : State) (b : Access) : Bool :=
  s.accesses.any fun w => s.ofCore b.core w && decide (w.id < b.id) && w.isSent && !w.state.isDone && (match w.op with
    | .ldf | .ldfe | .ste => true
    | _ => false)

/-- What an unsent access that a FENCE, LDA or STL holds keeps behind it: R175 and R179 hold no access but those they name. An access
to a byte of its own stays behind it whatever holds it (R166), unless both are tagged and a tagged operation waits at its home for
what the later one may bring; a later access of the STL's task to its home stays behind an STL (R186), unless it is tagged. -/
def State.keepsAside (s : State) (b a : Access) : Bool :=
  inOrder b a &&
    ((s.meets b a && !(b.kind == .f && a.kind == .f && s.tagWaits b)) ||
      (b.stl.isSome && !s.fenced b.core b.slot b.slotSerial b.id b.kind b.runs && b.slot == a.slot && b.slotSerial == a.slotSerial &&
        s.homeNow b == s.homeNow a && a.kind != .f))

/-- The unsent LSU accesses of a core, in order of issue. -/
def State.unsentOf (s : State) (c : Nat) : List Access := s.accesses.filter fun b => s.ofCore c b && b.isLsu && !b.isSent

/-- The unsent accesses of a core that a FENCE, LDA or STL holds, or that one of these keeps behind it. -/
def State.asideOf (s : State) (c : Nat) : List Access :=
  (s.unsentOf c).foldl (fun (l : List Access) b =>
    if b.stl.isSome || s.fenced b.core b.slot b.slotSerial b.id b.kind b.runs || l.any (s.keepsAside · b) then l ++ [b] else l) []

/-- An unsent access `b`, issued earlier on the core, keeps `a` behind it (R166, R169, R294) (DEDUCED, log 81). An unsent element
access keeps every later access. A request of class 0 stays behind every earlier one, of whatever task and to whatever home, but
for those that are held aside. PUTs of one ordered class to one core keep their order. -/
def State.keeps (s : State) (aside : List Access) (b a : Access) : Bool :=
  b.isElement || (if aside.any fun q => q.id == b.id then s.keepsAside b a else inOrder b a) ||
    (b.op == .put && a.op == .put && b.cls == a.cls && classOrdered (s.modeOf a.inst) a.cls && s.homeNow b == s.homeNow a)

/-- The unsent accesses that stay with the image of an evicted core (R473, R478): those that a FENCE, LDA or STL holds, those that
wait for LSU places, tagged operations, which are reissued after the restore, and what one of these keeps behind it (DEDUCED, log 71). -/
def State.imageHeld (s : State) (c : Nat) : List Access :=
  let aside := s.asideOf c
  (s.unsentOf c).foldl (fun (l : List Access) b =>
    if b.state == .unplaced || b.op.tagged || (aside.any fun q => q.id == b.id) || l.any (s.keeps aside · b) then l ++ [b] else l) []

/-- An unsent access for which the image of an evicted core waits: of a result that is due, or to the core's own scratchpad (R473). -/
def State.imageDue (s : State) (a : Access) : Bool := a.result.isSome || s.ownScratch a

/-- The engines of an evicted core are stopped at a chunk or step boundary (R224), but not before an access for which the image waits
has passed the range scoreboard (R173, R473) (DEDUCED, log 71). -/
def State.engineStopped (s : State) (c : Nat) : Bool :=
  (s.core c).evicting &&
    (let rest := (s.unsentOf c).filter fun a => !(s.imageHeld c).any fun q => q.id == a.id
     !(rest.any s.imageDue && rest.any s.scoreboard))

/-- An access may be sent from its LSU. A tagged operation that is unsent when its core is evicted stays with the image. -/
def State.canSend (s : State) (a : Access) : Bool :=
  a.state == .held && a.stl.isNone && !s.destParked a && !((s.core a.core).evicting && a.op.tagged) &&
    !(!a.op.isPref && s.fenced a.core a.slot a.slotSerial a.id a.kind a.runs) &&
    !s.scoreboard a && !s.writeInTransit a &&
    !(s.unsentOf a.core).any fun b => decide (b.id < a.id) && s.keeps (s.asideOf a.core) b a

/-! Sending and the first-level cache (R150, R152, R169) -/

/-- The key of a first-level cache line. -/
def Access.line64 (a : Access) : Nat := a.addr / 64

/-- An address that a first-level cache may hold, R149. -/
def State.cacheable (s : State) (addr : Nat) (msa : Bool) : Bool :=
  match s.homeOf addr msa with
  | .slice _ | .bank _ | .image => true
  | _ => false

/-- Loads of the line that are under way no longer fill the cache. -/
def State.stopFills (s : State) (core line : Nat) : State :=
  let f := fun (b : Access) => if b.core = core ∧ b.line64 = line then { b with fill := false } else b
  { s with accesses := s.accesses.map f }

/-- Sets of 64 lines, 4 ways: a line is put in front, and the line of its set used least recently goes (R150; DESIGN CHOICE, log 13 for
the set index). -/
def l1Put (l1 : List L1Line) (x : L1Line) : List L1Line :=
  let rest := l1.filter fun l => l.line != x.line
  let set := rest.filter fun l => l.line % 64 == x.line % 64
  if set.length < 4 then x :: rest
  else match set.getLast? with
    | some old => x :: rest.filter fun l => l.line != old.line
    | none => x :: rest

/-- Invalidate a line of a core's first-level cache. -/
def State.l1Drop (s : State) (core line : Nat) : State :=
  let k := s.core core
  s.setCore core { k with l1 := k.l1.filter fun l => l.line != line }

/-- Invalidate the lines that some device-address runs touch. -/
def State.l1DropRun (s : State) (core lo n : Nat) : State :=
  let k := s.core core
  let gone := fun (l : L1Line) => decide (lo / 64 ≤ l.line ∧ l.line ≤ (lo + n - 1) / 64 ∧ 0 < n)
  let f := fun (b : Access) => if b.core = core ∧ lo / 64 ≤ b.line64 ∧ b.line64 ≤ (lo + n - 1) / 64 then { b with fill := false } else b
  { s.setCore core { k with l1 := k.l1.filter fun l => !gone l } with accesses := s.accesses.map f }

/-- Bytes of a line replaced from an offset. -/
def spliceBytes (line : List Byte) (o : Nat) (data : List Byte) : List Byte := line.take o ++ data ++ line.drop (o + data.length)

/-- The copies of a line in the crossing cache at the issuing core's port, R152. -/
def State.dropOwnPort (s : State) (a : Access) : State :=
  match s.homeChiplet? a.addr a.msa with
  | none => s
  | some far =>
    let near := chipletOf a.core
    { s with cross := s.cross.filter fun l => !(l.chiplet == near && l.port == nextChiplet near far && l.line == a.line64) }

/-- The Onazal port by which a request reaches another package, among the m ports enabled and up; none when no port is (R369). An
ordered class takes the one at position (destination package id + source cluster) mod m; an adaptive one spreads its packets over
all, here by a free value of the packet's number (DESIGN CHOICE, log 6). -/
def State.onzPort? (s : State) (core pkg : Nat) (spread : Option Nat := none) : Option Nat :=
  let up := (List.range 18).filter fun i => match s.host.onzPorts[i]? with
    | some p => p.up && s.host.onzCtl.testBit 0 && s.host.onzCtl.testBit (8 + i)
    | none => false
  up[(match spread with
    | none => pkg + clusterOf core
    | some id => Config.spreadPort id) % up.length]?

/-- The number by which an access of an adaptive class is spread. -/
def State.spreadOf (s : State) (a : Access) : Option Nat := if classOrdered (s.modeOf a.inst) a.cls then none else some a.id

/-- A request `id` of a core towards another package of the pod leaves by its port, with its owner id (R369). -/
def State.leaveBy (s : State) (owner core id pkg addr : Nat) (spread : Option Nat := none) : State :=
  match (if pkg < s.podSize then s.onzPort? core pkg spread else none) with
  | some p => { s with host := { s.host with out := s.host.out ++ [HostOut.onazal p id pkg addr owner] } }
  | none => s

/-- An access to a home on another package leaves by its port (R369). -/
def State.leave (s : State) (a : Access) : State :=
  match s.homeNow a with
  | .remote pkg => s.leaveBy (s.ownerOf a.inst) a.core a.id pkg a.addr (s.spreadOf a)
  | _ => s

/-- An access is sent. A load that hits the first-level cache is performed there (R150); a line of it in error is dropped, and the load
goes to the home (R437). -/
def State.send (s : State) (a : Access) : State :=
  let cached := s.cacheable a.addr a.msa
  let s := ((if cached && (a.op == .load || a.op == .store) then s.dropL1Bad a.core a.addr else s).leave a).tick
  let a := { a with state := AccState.sent, order := s.serial - 1 }
  let k := s.core a.core
  match a.op with
  | .load =>
    match (if cached then k.l1.find? fun l => l.line == a.line64 else none) with
    | some l =>
      let a' : Access :=
        { a with
          state := .performed
          reply := (l.data.drop (a.addr % 64)).take a.size
          replyGuard := l.guard }
      (s.setCore a.core { k with l1 := l1Put k.l1 l }).setAccess a'
    | none => s.setAccess { a with fill := cached }
  | .pref level => s.setAccess { a with fill := cached && level == 0 }
  | .store =>
    let new := fun (l : L1Line) =>
      { l with
        data := spliceBytes l.data (a.addr % 64) (mergeMasked (l.data.drop (a.addr % 64)) a.data a.mask)
        guard := if a.data.length = 64 ∧ a.stored then a.guard else l.guard || a.guard }
    let s1 := s.setAccess a
    let l1 := match k.l1.find? fun l => l.line == a.line64 with
      | some l => l1Put k.l1 (new l)
      | none => k.l1
    if cached then ((s1.setCore a.core { k with l1 := l1 }).stopFills a.core a.line64).dropOwnPort a else s1
  | op =>
    let s1 := s.setAccess a
    if op.atomic && cached then ((s1.l1Drop a.core a.line64).stopFills a.core a.line64).dropOwnPort a else s1

/-- The send of a packet is held by a fence, or its destination is parked (R164, R224). -/
def State.packetFenced (s : State) (p : Packet) : Bool := s.fenced p.src p.slot p.slotSerial p.id .w []

/-- A packet held at its sender may be sent. -/
def State.packetFree (s : State) (p : Packet) : Bool :=
  p.state == .held && (s.core p.src).inst == some p.inst && !(s.core p.src).evicting && !s.packetFenced p

/-- What is held at a core's LSU, accesses and sends, by number and so in order of issue. -/
def State.heldAt (s : State) (c : Nat) : List Nat :=
  let accs := (s.accesses.filter fun a => s.ofCore c a && a.state == .held).map (·.id)
  let pkts := (s.packets.filter fun p => p.state == .held && p.src == c).map (·.id)
  if pkts.isEmpty then accs else (accs ++ pkts).insertionSort (· ≤ ·)

/-- Everything at a core's LSU that may now be sent is sent, in issue order (R169, R175). -/
def State.pump (s : State) (c : Nat) : State :=
  (s.heldAt c).foldl (fun (s : State) id => match s.access? id, s.packet? id with
    | some a, _ => if s.canSend a then s.send a else s
    | none, some p => if s.packetFree p then (s.setPacket { p with state := .moving, order := s.serial }).tick else s
    | none, none => s) s

/-! LSU places (R97, R172, R458) -/

/-- A ticket of the LSU still stands: its slot holds the task that was refused, and the task has not been stopped. -/
def Core.ticketLive (k : Core) (t : LsuTicket) : Bool :=
  let sl := k.slot t.slot
  sl.serial == t.slotSerial && (sl.state == .blocked .lsuPlace || sl.state == .ready)

/-- LSU places taken, R172: accesses of a kind between issue and completion at cluster scope, and places reserved for granted
tickets. -/
def State.lsuPlaces (s : State) (c : Nat) : Nat :=
  (s.accesses.filter fun a => s.ofCore c a && a.isLsu && !a.op.isPref && a.state != .unplaced && !s.completeAt c 2 a.id).length +
    (((s.core c).lsuTickets.filter fun t => t.granted && (s.core c).ticketLive t).map (·.need)).sum

/-- The element accesses of a core that wait for a place, oldest first. -/
def State.unplacedOf (s : State) (c : Nat) : List Access :=
  s.accesses.filter fun a => s.ofCore c a && a.state == .unplaced

/-- The tickets of a core's LSU that wait for places, oldest first. -/
def Core.placeTickets (k : Core) : List LsuTicket := k.lsuTickets.filter fun t => !t.granted && k.ticketLive t

/-- The ticket that the instruction of a slot holds at its LSU. -/
def Core.lsuTicket? (k : Core) (n : Nat) : Option LsuTicket :=
  k.lsuTickets.find? fun t => t.slot == n % 8 && t.slotSerial == (k.slot n).serial

/-- Access of an instruction to LSU places (R172, R458) (DEDUCED, log 27): it goes on when its ticket is granted, or when places are
free and nothing waits for one; otherwise it is refused with a ticket, and its task waits in its slot and tries again. -/
def withPlace (x : Cur) (s : State) (need : Nat) (go : State → Verdict) : Verdict :=
  let k := s.core x.c
  match k.lsuTicket? x.n with
  | some t =>
    if t.granted then go (s.setCore x.c { k with lsuTickets := k.lsuTickets.filter fun u => u != t }) else .block .lsuPlace
  | none =>
    if k.placeTickets.isEmpty && (s.unplacedOf x.c).isEmpty && decide (s.lsuPlaces x.c + need ≤ 256) then go s
    else
      let t : LsuTicket := { slot := x.n % 8, slotSerial := (k.slot x.n).serial, need := need, issued := s.serial, granted := false }
      .leave (((s.setCore x.c { k with lsuTickets := k.lsuTickets ++ [t] }).tick).endTurn x.c x.n (.blocked .lsuPlace))

/-- An access enters the LSU of its core. An element access takes a place if one is free and none is waited for (R172, R294). -/
def State.addAccess (s : State) (a : Access) : State :=
  let full := !(s.unplacedOf a.core).isEmpty || !(s.core a.core).placeTickets.isEmpty || decide (256 ≤ s.lsuPlaces a.core)
  let st := if a.isLsu && a.isElement && full then AccState.unplaced else .held
  { s with serial := s.serial + 1, accesses := s.accesses ++ [{ a with id := s.serial, state := st }] }

/-- An access of the executing instruction, not yet added. -/
def Cur.access (x : Cur) (s : State) (op : AccOp) (kind : Kind) (ca : Nat) (tgt : Target) (size : Nat) (data : List Byte)
    (guard : Bool) (result : Option (Nat × Nat)) : Access :=
  { id := 0, core := x.c, slot := x.n, slotSerial := (x.k.slot x.n).serial, inst := x.cap.inst, member := x.t.member,
    pc := x.pc, insn := x.insn, kind := kind, op := op, ca := ca, addr := tgt.addr, size := size, span := [], data := data,
    mask := BitVec.allOnes 64, guard := guard, ext := tgt.ext.map (·.index), extGuard := (tgt.ext.map (·.guard)).getD false,
    msa := (tgt.ext.map (·.msa)).getD false, lane := s.laneOf x.cap.inst, cls := 0, stl := none, result := result,
    entry := none, state := .held, order := 0, perf := 0, word := tgt.addr / 8, fill := false, line := [], reply := [],
    replyGuard := false }

/-- A result of `parts` accesses, not yet in. -/
def Cur.result (x : Cur) (s : State) (dst : Dst) (parts : Nat) (grans : List Nat) : Result :=
  { id := s.serial, inst := x.cap.inst, core := x.c, slot := x.n, slotSerial := (x.k.slot x.n).serial, dst := dst,
    parts := List.replicate parts none, grans := grans, dropped := false }

/-- Add a result; its number is the serial. -/
def State.addResult (s : State) (r : Result) : State :=
  { s with serial := s.serial + 1, results := s.results ++ [{ r with id := s.serial }] }

/-- A lookaside hit of an access at issue moves its entry to the front; a miss begins a fill (R143). -/
def State.lookHit (s : State) (x : Cur) (tgt : Target) (ca : Nat) : State :=
  match tgt.lookaside? x.t.member ca with
  | some e =>
    let k := s.core x.c
    if k.lookaside.any e.sameRange then s.setCore x.c (k.lookUp e)
    else if k.fills.any e.sameRange then s
    else s.setCore x.c { k with fills := k.fills ++ [e] }
  | none => s

/-- A fault of a check at issue: held with its task, but one of class 16, which an error of the page vector is, ends the capsule (R405,
R409, R437). -/
def State.accessFault (s : State) (x : Cur) (f : FaultInfo) : Verdict :=
  if f.cls = 16 then
    let s1 := match x.cap.extentAt? x.t.member f.addr with
      | some e => s.afterError (e.entryAddr ((f.addr - e.vbase) / 2 ^ 21)) 8 x.c false
      | none => s
    .next (s1.engineError x.cap.inst x.c x.t.member x.pc x.insn f.aux f.addr (x.k.slot x.n).fromFault)
  else .raise f

/-! Fences -/

/-- The acquire action of a scope, R176 (DEDUCED, log 78). -/
def State.acquire (s : State) (c scope : Nat) : State :=
  if scope < 2 then s
  else
    let k := s.core c
    let f := fun (b : Access) => if b.core = c then { b with fill := false } else b
    let k' := { k with l1 := [], acquired := if 4 ≤ scope then s.serial + 1 else k.acquired }
    { (s.setCore c k').tick with accesses := s.accesses.map f }

/-- The ranges of a tracker list, captured at issue: items of R237, at most `n` (R170, R171). -/
def Core.listRanges (k : Core) : Nat → Nat → List (Nat × Nat)
  | 0, _ => []
  | n + 1, v =>
    let item := bits v 0 9
    let r := if bits item 8 1 = 1 then footprint (SMap.get 0 k.tensors (bits item 0 8))
      else
        let t := k.trackers[item % 16]'(Nat.mod_lt _ (by decide))
        if t.bound then (t.base, t.limit) else (0, 0)
    r :: Core.listRanges k n (v / 2 ^ 9)

/-- Runs fall in the ranges of a list; an absent list takes in everything (R170, R175). -/
def inRanges (ranges : Option (List (Nat × Nat))) (runs : List Run) : Bool :=
  match ranges with
  | none => true
  | some l => runs.any fun r => l.any fun t => runsMeet r (t.1, t.2 - t.1)

/-- The numbers of the earlier LSU accesses of a core that a mask and ranges take in (R170, R175, R179, R294). -/
def State.coveredAccesses (s : State) (c : Nat) (mask : Kind → Bool) (ranges : Option (List (Nat × Nat))) : List Nat :=
  (s.accesses.filter fun a => s.ofCore c a && a.isLsu && !a.op.isPref && mask a.kind && inRanges ranges a.runs).map (·.id)

/-- The numbers of the engine entries of a core that a mask and ranges take in: a copy counts by its source and destination boxes,
a qm entry by the runs it reads or writes (R170). -/
def State.coveredEntries (s : State) (c : Nat) (mask : Kind → Bool) (ranges : Option (List (Nat × Nat))) : List Nat :=
  let k := s.core c
  let hit := inRanges ranges
  ((k.copies.filter fun e => (mask .cr && hit e.crRuns) || (mask .cw && hit e.boxRuns)).map (·.id)) ++
    ((k.qm.filter fun e => (mask .mr && !e.mrRuns.isEmpty && hit e.mrRuns) || (mask .mw && !e.mwRuns.isEmpty && hit e.mwRuns)).map (·.id))

/-- Both. -/
def State.covered (s : State) (c : Nat) (mask : Kind → Bool) (ranges : Option (List (Nat × Nat))) : List Nat :=
  s.coveredAccesses c mask ranges ++ s.coveredEntries c mask ranges

/-! Results (R82, R117, R264) -/

/-- Fill one part of a result. -/
def State.fillPart (s : State) (r part : Nat) (data : List Byte) (guard : Bool) : State :=
  let f := fun (q : Result) => if q.id = r then { q with parts := q.parts.set part (some (data, guard)) } else q
  { s with results := s.results.map f }

/-- Bytes of a granule written under a byte mask (R117); `half` says that of some byte only one 4-bit container is written. A granule
in error is good again once it is written whole (R409). -/
def Core.writeMasked (k : Core) (n : Nat) (bytes : List (Option Byte)) (guard : Bool) (half : Bool := false) : Core :=
  let g := k.granule n
  let old := fun (i : Nat) => (BitVec.ofNat 8 (g.data.toNat / 2 ^ (8 * i)) : Byte)
  let new := (List.range 64).map fun i => ((bytes.getD i none).getD (old i))
  let whole := ((List.range 64).all fun i => (bytes.getD i none).isSome) && !half
  let any := bytes.any (·.isSome)
  if any then
    { k with
      regs := SMap.put k.regs n ⟨BitVec.ofNat 512 (leNat new), if whole then guard else g.guard || guard⟩
      badGrans := if whole then k.badGrans.filter fun b => b != n else k.badGrans }
  else k

/-- The bytes that a list of parts brings to a granule, and the OR of the guard bits of the parts that supply it (R295). -/
def granuleParts (cells : List (Nat × BitVec 64)) (parts : List (List Byte × Bool)) (n : Nat) : List (Option Byte) × Bool :=
  let hits := (cells.zip parts).filter fun p => decide (p.1.1 / 64 = n)
  ((List.range 64).map fun i =>
    (hits.find? fun p => decide (p.1.1 % 64 ≤ i) && p.1.2.getLsbD (i - p.1.1 % 64)).bind fun p => p.2.1[i - p.1.1 % 64]?,
   hits.any fun p => p.2.2)

/-- Register words of a result: its parts in order, cut into pieces of `size` bytes. -/
def regWords (parts : List (List Byte × Bool)) (size : Nat) (sx : Bool) : List (Word × Bool) :=
  parts.flatMap fun p => (List.range (p.1.length / size)).map fun i =>
    let v := leNat ((p.1.drop (i * size)).take size)
    (BitVec.ofInt 64 (if sx then toSigned (8 * size) v else v), p.2)

/-- A result is written to its destination and its pending bits clear; the marks stay until a switch point (R415). -/
def State.writeResult (s : State) (r : Result) : State :=
  let parts := r.parts.filterMap id
  let s := { s with results := s.results.filter fun q => q.id != r.id }
  let k := s.core r.core
  match r.dst with
  | .regs first count size sx =>
    let sl := k.slot r.slot
    if sl.serial = r.slotSerial ∧ r.dropped = false then
      let words := (regWords parts size sx).take count
      let t := (words.zipIdx).foldl (fun (t : Task) w => t.setReg (first + w.2) w.1.1 w.1.2) sl.task
      let sl' := { sl with
        task := t
        pend := (List.range count).foldl (fun v i => setBit16 v (first + i) false) sl.pend }
      s.setCore r.core (k.setSlot r.slot sl')
    else s
  | .space cells =>
    let k' := r.grans.foldl (fun (k : Core) n =>
      let (bytes, guard) := granuleParts cells parts n
      k.writeMasked n bytes guard) k
    s.setCore r.core (k'.unpendGranules r.grans r.id)
  | .none => s

/-! Events -/

/-- The instances whose page vectors the marks of the slices guard: of the launched capsules of an owner lane, that of the request
first (R428). -/
def State.markedBy (s : State) (lane : Nat) (inst : Option Nat) : List Capsule :=
  let l := s.capsules.filter fun c => c.lane == lane && (c.stage == .running || c.stage == .completing)
  l.filter (fun c => some c.inst == inst) ++ l.filter fun c => some c.inst != inst

/-- A line is marked in its home slice as one that holds a page vector: the capsule, its extent and the entry of an address (R428)
(DEDUCED, log 62). -/
def State.marked? (s : State) (lane : Nat) (inst : Option Nat) (addr : Nat) : Option (Capsule × Extent × Nat) :=
  if s.isHbm addr then (s.markedBy lane inst).findSome? fun c => (c.pageVector? addr).map fun (e, n) => (c, e, n) else none

/-- The entry of a page vector that a store of one whole entry to a marked line writes, with the capsule whose vector it is and the old
and new values (R430) (DEDUCED, log 62). -/
def State.vectorStore? (s : State) (a : Access) : Option (Capsule × Extent × Nat × Nat × Nat) :=
  if a.op = .store ∧ a.size = 8 ∧ a.msa = false then
    (s.marked? a.lane (some a.inst) (s.placeOf a)).bind fun (cap, e, n) =>
      if e.isEntry (s.placeOf a) n then some (cap, e, n, s.pageEntry cap.bearer e n, leNat a.data) else none
  else none

/-- The store of a page-vector entry needs a procedure of its own: an eviction, a return, or both (R430). -/
def State.isEviction (s : State) (a : Access) : Bool :=
  match s.vectorStore? a with
  | some (_, _, _, old, new) => entryPresent old && (!entryPresent new || entryPage old != entryPage new)
  | none => false
def State.isReturn (s : State) (a : Access) : Bool :=
  match s.vectorStore? a with
  | some (_, _, _, old, new) => !entryPresent old && entryPresent new
  | none => false

/-- An access was translated through a page of an extent (R431, R435). -/
def Access.usesPage (b : Access) (cap : Capsule) (e : Extent) (page : Nat) : Bool :=
  b.inst == cap.inst && b.ext == some e.index && e.seen b.member &&
    decide (e.vbase + page * 2 ^ 21 ≤ b.ca ∧ b.ca < e.vbase + (page + 1) * 2 ^ 21)

/-- An eviction store that is at its home waits for an access that was translated through its page, which so arrives before it is
performed though it was sent later (R431, R435). -/
def State.evictionWaits (s : State) (b a : Access) : Bool :=
  match s.vectorStore? b with
  | some (cap, e, n, _, _) => s.isEviction b && a.usesPage cap e n
  | none => false

/-- An earlier request of the same core, on the same ordered class, to the same home is still under way; for a PUT, an earlier
message too (R85, R169). -/
def State.overtakes (s : State) (a : Access) : Bool :=
  a.op != .fetch && classOrdered (s.modeOf a.inst) a.cls &&
    ((s.accesses.any fun b => b.core == a.core && b.state == .sent && b.cls == a.cls && b.op != .fetch &&
        decide (b.order < a.order) && s.homeNow b == s.homeNow a && !s.evictionWaits b a) ||
      s.packets.any fun p => p.src == a.core && p.state == .moving && p.cls == a.cls && decide (p.order < a.order) &&
        s.homeNow a == .core p.dest)

/-- An earlier reply from the same home to the same core is still under way on class 1 (R14, R85). -/
def State.replyOvertakes (s : State) (a : Access) : Bool :=
  s.accesses.any fun b => b.core == a.core && b.state == .performed && b.op != .fetch && b.perf != 0 && decide (b.perf < a.perf) &&
    s.homeNow b == s.homeNow a

/-- A bank is in its refresh window: the first 3,040 cycles of its slot of 7,600 (R128), or its window has not yet been
seen to end. -/
def Layer.refreshing (l : Layer) (bank : Nat) : Bool :=
  decide (l.wsPos / 7600 % 16 = bank ∧ l.wsPos % 7600 < 3040) || l.wsBusy == some bank

/-- The bank of an address is in its refresh window (R155). -/
def State.refreshing (s : State) (addr : Nat) : Bool :=
  decide (addr < 2 ^ 64 ∧ devSpace addr = 1 ∧ devPkg addr = s.pkgId) && (s.layer (wsLayer addr)).refreshing (wsBank addr)

/-- The bank of an address is in its refresh window, or accesses that waited there are still to be performed, ahead of any that
arrive later (R155). -/
def State.bankBusy (s : State) (addr : Nat) : Bool :=
  s.refreshing addr || (decide (addr < 2 ^ 64 ∧ devSpace addr = 1) &&
    s.accesses.any fun a => a.state == .waiting && s.homeNow a == s.homeOf addr false)

/-- The slice refuses a write to a marked line that is not a store of one whole entry. The LSU finds such a write at issue in the
capsule whose vector it is; of another capsule of the owner, the home finds it (R426, R428). -/
def State.sliceRefuses (s : State) (a : Access) : Bool :=
  a.op.writes && !a.msa && (s.marked? a.lane (some a.inst) (s.placeOf a)).isSome && (s.vectorStore? a).isNone

/-- A write that its home slice refuses: the class 7 record, as of work dropped, and no effect but the reply (R426, R428; DESIGN
CHOICE, log 105). -/
def State.refuseWrite (s : State) (a : Access) : State :=
  let old := s.readDev (s.bearer a.inst) (s.placeOf a) a.size
  (s.reportFault a.inst a.core a.member a.pc a.insn 1 ⟨7, 6, a.ext.getD 0, a.ca, false⟩).replyWith a old (s.loadGuard a (s.placeOf a))

/-- A tagged operation or fetch of a core that is being evicted is cancelled at its home: it has had no effect, and it is held
at its core until it is reissued (R224, R225, R473). -/
def State.takeBack (s : State) (a : Access) : State :=
  if a.op = .fetch then
    let k := s.core a.core
    let f := fun (q : QmEntry) => if a.entry = some q.id then { q with begun := false } else q
    (s.setCore a.core { k with qm := k.qm.map f }).dropAccess a.id
  else s.setAccess { a with state := .held }

/-- An access arrives at its home, which performs it, makes it wait, or refuses it (R148, R149, R155); `served`: it waited at its
bank, whose window has ended. A PREF that meets an error is discarded (R278). -/
def State.arriveHome (s : State) (a : Access) (served : Bool := false) : State :=
  let addr := s.placeOf a
  let home := s.homeNow a
  let b := s.bearer a.inst
  let store := (a.op == .store || a.op == .put) && a.stored
  match s.memError? b home addr a.size store with
  | some code => if a.op.isPref then s.dropAccess a.id else (s.afterError addr a.size a.core store).memFault a code
  | none =>
    if !served && s.bankBusy addr then (s.setAccess { a with state := .waiting, word := addr / 8, order := s.serial }).tick
    else if s.sliceRefuses a then s.refuseWrite a
    else if s.condition a then
      let s1 := (s.afterError addr a.size a.core store).effect a
      match home with
      | .core c => ((s1.useTicket c a.id).afterChange b c addr (s.isFull b addr)).grantHome c
      | _ => s1
    else match home with
      | .core c =>
        let k := s.core c
        let word := match a.op with
          | .fetch => (s.lowestEmpty? b addr a.size).getD (addr / 8)
          | _ => addr / 8
        let wait := ({ a with state := AccState.waiting, word := word, order := s.serial } : Access)
        if (s.core a.core).evicting && (s.core a.core).inst == some a.inst then s.takeBack a
        else if s.draining a then ((s.useTicket c a.id).cancelAccess a).grantHome c
        else if k.homeTickets.any (fun t => t.pkt == a.id && t.granted) then ((s.useTicket c a.id).setAccess wait).tick
        else if k.homeTickets.isEmpty && decide (s.waitPlaces c < 32) then (s.setAccess wait).tick
        else if k.homeTickets.length < 64 then
          (s.setCore c { k with homeTickets := k.homeTickets ++ [⟨a.id, false⟩] }).setAccess { a with state := .ticketed }
        else s.setAccess { a with state := .refused (s.cycOf a.core) }
      | _ => s

/-- The owner lane of an owner; a request whose owner holds none carries a lane that no line carries (R157). -/
def State.laneOfOwner (s : State) (owner : Nat) : Nat :=
  match s.plaza.lanes.find? fun l => l.2 == owner && owner != 0 with
  | some (lane, _) => lane
  | none => 4096

/-- What a request from another package carries. -/
def State.remoteBearer (s : State) (q : RemoteReq) : Bearer := ⟨keyOf q.owner, s.laneOfOwner q.owner, some q.inst⟩

/-- The write of a request from another package: the line takes the lane of its owner, and its guard bit (R151, R162, R369). The
weight store is written by stocking capsules only (R154). -/
def State.remoteWrite (s : State) (q : RemoteReq) (data : List Byte) : State :=
  let b := s.remoteBearer q
  if devSpace q.addr = 1 ∧ q.stock = false then s
  -- the slice refuses a write to a line that holds a page vector (R428; DESIGN CHOICE, log 105)
  else if !q.msa && (s.marked? b.lane none q.addr).isSome then s
  else ((s.invalidate q.addr).writeDev b q.addr data).markLine b q.addr data.length q.msa q.guard

/-- A request from another package has been performed: the bytes of its reply, or the level of the error that it has met (R409). -/
def State.remoteDone (s : State) (q : RemoteReq) (reply : List Byte × Nat) : State :=
  { s with host := { s.host with remote := s.host.remote.map fun r => if r.id = q.id then { r with reply := some reply } else r } }

/-- A request from another package arrives at its home and is performed there, carrying the lane of its owner; one through an MSA
extent at the base die, with no cache (R149, R158, R369). A request that meets an uncorrectable error is answered with no data, for
its own package to fault (R409; DESIGN CHOICE, log 84). -/
def State.performRemote (s : State) (q : RemoteReq) : State :=
  let b := s.remoteBearer q
  let store := q.op == .store
  let old := s.readDev b q.addr q.size
  match s.memError? b (s.homeOf q.addr q.msa) q.addr q.size store with
  | some code => (s.afterError q.addr q.size 0 store).remoteDone q ([], code)
  | none =>
    let s := s.afterError q.addr q.size 0 store
    match q.op with
    | .load =>
      let s1 := s.drawRead b.key q.addr
      (if q.msa then s1 else s1.touchSlice b.lane q.addr 0 false false).remoteDone q (old, 0)
    | .store => (s.remoteWrite q q.store).remoteDone q ([], 0)
    | .atomic op =>
      let s1 := match op.newValue? q.size (leNat old) (leNat q.store) with
        | some v => (s.drawRead b.key q.addr).remoteWrite q (leBytes q.size v)
        | none => s.drawRead b.key q.addr
      s1.remoteDone q (if op.returns then old else [], 0)

/-! Pieces of inbound requests (R364-R367) -/

/-- A piece of an inbound request by number. -/
def State.piece? (s : State) (id : Nat) : Option (Inbound × LinePiece) :=
  s.host.inbound.findSome? fun w => (w.pieces.find? fun p => p.id == id).map fun p => (w, p)

/-- Replace a piece of an inbound request. -/
def State.setPiece (s : State) (p : LinePiece) : State :=
  let f := fun (w : Inbound) => { w with pieces := w.pieces.map fun q => if q.id = p.id then p else q }
  { s with host := { s.host with inbound := s.host.inbound.map f } }

/-- The key of a window's accesses: its owner's, or the open key (R366, R367). -/
def portKey (owner : Nat) : Nat := if owner = 0 then 1 else keyOf owner

/-- What the accesses of a window carry: its owner's key and lane, or the open key (R366, R367). -/
def State.portBearer (s : State) (owner : Nat) : Bearer := ⟨portKey owner, s.laneOfOwner owner, none⟩

/-- A piece is performed at its home as one indivisible access, R397. No bad data is ever delivered: a read that meets an
uncorrectable error brings no bytes, and its read is answered with Unsupported Request (R409; DESIGN CHOICE, log 84). A write to a
line that holds a page vector of the window's owner is refused by the slice (R428; DESIGN CHOICE, log 105). -/
def State.performPiece (s : State) (w : Inbound) (p : LinePiece) : State :=
  let b := s.portBearer w.owner
  match s.memError? b (s.homeOf p.addr false) p.addr p.size (!w.read && p.size == 64) with
  | some code =>
    ((s.afterError p.addr p.size 0 (!w.read)).logError ⟨code, p.addr, 1, 1, s.lineCyc code p.addr⟩).setPiece
      { p with state := PieceState.performed, data := [], failed := true }
  | none =>
    let s1 := s.afterError p.addr p.size 0 (!w.read)
    if w.read || (s.marked? b.lane none p.addr).isSome then
      ((s1.drawRead b.key p.addr).touchSlice b.lane p.addr 0 false false).setPiece
        { p with state := PieceState.performed, data := s.readDev b p.addr p.size }
    else
      (((s1.invalidate p.addr).writeDev b p.addr p.data).touchSlice b.lane p.addr p.size true false).setPiece
        { p with state := PieceState.performed }

/-- A piece of the same requester and home was sent earlier and is not yet performed (class 0 is ordered, R85, R364). -/
def State.pieceOvertakes (s : State) (w : Inbound) (p : LinePiece) : Bool :=
  s.host.inbound.any fun v => v.rid == w.rid && v.pieces.any fun q =>
    q.state == .sent && decide (q.order < p.order) && s.homeOf q.addr false == s.homeOf p.addr false

/-- An earlier request of the same core of another package to the same home is still to be performed: class 0 is ordered, over the
link too (R85, R369). -/
def State.remoteOvertakes (s : State) (q : RemoteReq) : Bool :=
  s.host.remote.any fun r => r.core == q.core && r.pkg == q.pkg && decide (r.id < q.id) && r.reply.isNone &&
    s.homeOf r.addr r.msa == s.homeOf q.addr q.msa

/-- A piece of an inbound request, or a request from another package, is performed; a request that meets a bank in its refresh window
waits for it, behind what waits there (R155) (DESIGN CHOICE, log 24). -/
def performOther (id : Nat) (s : State) : Host.Outcome State Fault Refusal :=
  match s.piece? id with
  | some (w, p) =>
    eventAt (p.state == .sent && !s.pieceOvertakes w p) (addrExists p.addr) (fun s => s.performPiece w p) s
  | none =>
    match s.host.remote.find? fun q => q.id == id with
    | some q =>
      eventAt (q.reply.isNone && !s.remoteOvertakes q && !s.bankBusy q.addr) (addrExists q.addr) (fun s => s.performRemote q) s
    | none => .next s

/-- A package id of the peer table, R370. -/
def isPeer (pkg : Nat) : Bool := decide (6144 ≤ pkg)

/-- The link that a device address needs is up: a port of the Onazal link for another package of the pod (R369). -/
def State.linkUp (s : State) (addr : Nat) : Bool :=
  match s.homeOf addr false with
  | .remote pkg => isPeer pkg || (s.onzPort? 0 pkg).isSome
  | _ => true

/-- A device address is there to be reached: on this package it exists; on another, its package is one of the pod (R136, R369). -/
def State.reachable (s : State) (addr : Nat) : Bool :=
  decide (2 ^ 64 ≤ addr) || (addrExists addr && decide (devSpace addr = 4 ∨ devPkg addr = s.pkgId ∨ devPkg addr < s.podSize))

/-- The link that an access needs is there: none on this package; a port enabled and up towards another (R369). -/
def State.linkReady (s : State) (a : Access) : Bool :=
  match s.homeNow a with
  | .remote pkg => (s.onzPort? a.core pkg).isSome
  | _ => true

/-- A home performs an access in arrival order, R149. -/
def execHomeAccessPerform (acc : Nat) (s : State) : Host.Outcome State Fault Refusal :=
  match s.access? acc with
  | some a =>
    eventAt (a.state == .sent && a.op != .fetch && !s.overtakes a && !s.destParked a && s.linkReady a && !s.isEviction a &&
        !s.isReturn a) (s.reachable (s.placeOf a)) (fun s => s.arriveHome a) s
  | none => performOther acc s

/-- A read of the same line by the core was sent after an access and is still to fill the cache: its copy is the newer (R166). -/
def State.newerFill (s : State) (a : Access) : Bool :=
  s.accesses.any fun b => b.core == a.core && b.line64 == a.line64 && b.fill && decide (a.order < b.order) && b.state != .replied

/-- A first-level cache that is filled with a line holds it without error: the error of a line that it held before is gone (R437). -/
def State.l1Filled (s : State) (line core : Nat) : State :=
  if SMap.get 0 s.bad line = 3 ∧ (s.cores.any fun e => e.1 != core && e.2.l1.any fun l => l.line == line) = false then
    { s with bad := SMap.put s.bad line 0 }
  else s

/-- A line that a load or PREF fetched fills the first-level cache (R150), unless a newer copy is on its way. -/
def State.fillL1 (s : State) (a : Access) : State :=
  let k := s.core a.core
  if a.fill && !s.newerFill a then
    ((s.setCore a.core { k with l1 := l1Put k.l1 ⟨a.line64, a.line, a.replyGuard⟩ }).stopFills a.core a.line64).l1Filled a.line64 a.core
  else s

/-- An owner lane that nothing holds any more is freed: its slice lines are written back and every line tagged with it is
invalidated (R157). A piece of an inbound request that is still outstanding when its window is disabled holds the lane of the window's
owner until it is acknowledged, which R24 and R157 leave open (DESIGN CHOICE, log 104). -/
def State.freeLane (s : State) (owner : Nat) : State :=
  let used := s.capsules.any (fun c => c.hdr.owner == owner) || (s.host.windows.any fun w => w.2.en && w.2.owner == owner) ||
    s.host.remote.any (fun q => q.owner == owner) || s.host.inbound.any fun w => w.owner == owner
  if used then s
  else match s.plaza.lanes.find? fun l => l.2 == owner with
    | none => s
    | some (lane, _) =>
      { s with
        plaza := { s.plaza with lanes := SMap.erase s.plaza.lanes lane }
        slice := s.slice.filter fun l => l.lane != lane
        cross := s.cross.filter fun l => l.lane != lane }

/-- A reply or acknowledgement reaches the LSU, R165: a returned value goes to its part of the result, and an access
without one is complete. -/
def State.replyArrive (s : State) (a : Access) : State :=
  if a.op.returns then
    match a.result with
    | some (r, part) =>
      (((s.fillL1 a).setAccess { a with state := .replied }).fillPart r part a.reply
        (a.replyGuard || (a.ext.isSome && a.extGuard))).pump a.core
    | none => ((s.fillL1 a).dropAccess a.id).pump a.core
  else (((s.fillL1 a).dropAccess a.id).pump a.core)

/-- The reply or acknowledgement of an access arrives; the invalidations that a write sent have been acknowledged before it
leaves (R167). -/
def State.answer (s : State) (a : Access) : State := (if a.op.writes then s.dropDying (s.placeOf a) else s).replyArrive a

/-- An acknowledgement of a piece reaches the I/O die, which drops it; a read leaves once every piece is in (R364). The invalidations
that a written piece sent have been acknowledged before (R167). -/
def State.ackPiece (s : State) (w : Inbound) (p : LinePiece) : State :=
  let s := if w.read then s else s.dropDying p.addr
  let pieces := w.pieces.map fun q => if q.id = p.id then { q with state := PieceState.answered } else q
  let done := pieces.all fun q => q.state == .answered
  let rest := s.host.inbound.filter fun v => !(v.pieces.any fun q => q.id == p.id)
  let out := if w.read && done then
      [if pieces.any (·.failed) then HostOut.unsupported w.rid w.addr else .readData w.rid w.addr (pieces.flatMap (·.data))] else []
  if done then { s with host := { s.host with inbound := rest, out := s.host.out ++ out } }.freeLane w.owner
  else s.setPiece { p with state := PieceState.answered }

/-- An acknowledgement of an inbound piece, a reply to another package, or the completion of the flushing read behind a write that
the I/O die has forwarded to the host (R176). -/
def replyOther (id : Nat) (s : State) : Host.Outcome State Fault Refusal :=
  match s.piece? id with
  | some (w, p) => event (p.state == .performed) (fun s => s.ackPiece w p) s
  | none =>
    match s.host.remote.find? fun q => q.id == id with
    | some q =>
      match q.reply with
      | none => .next s
      | some (data, code) =>
        let s1 := if q.op == .load then s else s.dropDying q.addr
        let answer := if code = 0 then HostOut.remoteReply q.id data else .remoteError q.id code
        .next ({ s1 with host := { s1.host with
          remote := s1.host.remote.filter fun r => r.id != q.id
          out := s1.host.out ++ [answer] } }.freeLane q.owner)
    | none => .next { s with host := { s.host with flushes := s.host.flushes.filter fun f => f.1 != id } }

/-- A reply or acknowledgement reaches the LSU, or leaves for another package (R157, R165, R369). -/
def execAccessReplyArrive (acc : Nat) (s : State) : Host.Outcome State Fault Refusal :=
  match s.access? acc with
  | some a => event (a.state == .performed && a.op != .fetch && !s.replyOvertakes a) (fun s => s.answer a) s
  | none => replyOther acc s

/-- A variable-latency result whose value is in is written; its accesses are complete (R82, R165). -/
def execPendingResultWrite (id : Nat) (s : State) : Host.Outcome State Fault Refusal :=
  match s.results.find? fun r => r.id == id with
  | none => .next s
  | some r =>
    let mine := fun (a : Access) => match a.result with
      | some (q, _) => q == id
      | none => false
    let f := fun (s : State) =>
      let s1 := s.writeResult r
      let s2 := { s1 with accesses := s1.accesses.filter fun a => !mine a }
      (s2.pump r.core).sendHeld r.core
    event (r.parts.all (·.isSome)) f s

/-- A place is granted to the element access that waits for one. -/
def State.placeElement (s : State) (core : Nat) (a : Access) : State := (s.setAccess { a with state := .held }).pump core

/-- A ticket is granted its places, which stay reserved until its task tries again. -/
def State.placeTicket (s : State) (core : Nat) (t : LsuTicket) : State :=
  let k := s.core core
  s.setCore core { k with lsuTickets := k.lsuTickets.map fun u => if u = t then { u with granted := true } else u }

/-- Freed LSU places go to what has waited longest, an element access or a ticket (R172). -/
def execLsuPlaceGrant (core : Nat) (s : State) : Host.Outcome State Fault Refusal :=
  let left := 256 - s.lsuPlaces core
  let one := fun (a : Access) => event (decide (1 ≤ left)) (fun s => s.placeElement core a) s
  let ticket := fun (t : LsuTicket) => event (decide (t.need ≤ left)) (fun s => s.placeTicket core t) s
  match (s.unplacedOf core).head?, (s.core core).placeTickets.head? with
  | none, none => .next s
  | some a, none => one a
  | none, some t => ticket t
  | some a, some t => if a.id < t.issued then one a else ticket t

/-- The fill in progress of a core for a member's extent, and for a sparse extent its page (R143). A dense extent's entry has no
page: its operand is ignored. -/
def Core.fill? (k : Core) (member ext page : Nat) : Option Lookaside :=
  k.fills.find? fun l => l.member == member && l.ext == ext && (l.page.isNone || l.page == some page)

/-- A lookaside fill ends: it reads the capsule image and, for a sparse page, the page's vector entry; an absent page is never
held (R143, R435). -/
def execLookasideFill (core member ext page : Nat) (s : State) : Host.Outcome State Fault Refusal :=
  match s.capsuleOf? core, (s.core core).fill? member ext page with
  | some cap, some l =>
    let rest := { s.core core with fills := (s.core core).fills.filter fun o => o != l }
    match cap.exts.find? fun e => e.seen member && e.index == ext with
    | none => .next (s.setCore core rest)
    | some e => match s.resolveError? core member e (e.vbase + (l.page.getD 0) * 2 ^ 21),
          s.translate cap.bearer e (e.vbase + (l.page.getD 0) * 2 ^ 21) with
      | none, some base => .next (s.setCore core (rest.lookUp { l with base := base }))
      | _, _ => .next (s.setCore core rest)
  | _, _ => .next s

/-- A fence by number (DEDUCED, log 59). -/
def State.fence? (s : State) (c id : Nat) : Option Fence := s.fences.find? fun fe => fe.core == c && fe.id == id

/-- The fence's core is not parked. -/
def State.fenceHere (s : State) (fe : Fence) : Bool := (s.core fe.core).inst == some fe.inst

/-- A fence whose LSU accesses are complete, engine entries still being incomplete, performs its acquire action and holds engine entries
no longer, which it orders after no other entry (R175, R284). -/
def State.freeEntries (s : State) (fe : Fence) : State :=
  { s with fences := s.fences.map fun (o : Fence) => if o.id = fe.id then { o with entriesFree := true } else o }.acquire fe.core fe.scope

/-- A fence whose accesses are complete performs its acquire action and releases what it held (R175, R178). -/
def State.endFence (s : State) (fe : Fence) : State :=
  (({ s with fences := s.fences.filter fun o => o.id != fe.id }).acquire fe.core fe.scope).pump fe.core

/-- The earlier fences of a fence's task that are not complete. -/
def State.fencesBefore (s : State) (fe : Fence) : List Fence :=
  s.fences.filter fun o => !o.isLda && o.core == fe.core && o.slot == fe.slot && o.slotSerial == fe.slotSerial && decide (o.id < fe.id)

/-- The fenced accesses are complete, and the earlier fences of the task are, R175. While only engine entries are still incomplete, the
event is the fence's acquire action before the entries that it holds, behind that of the earlier fences (R284; DEDUCED, log 59). -/
def execFenceComplete (core fence : Nat) (s : State) : Host.Outcome State Fault Refusal :=
  match s.fence? core fence with
  | none => .next s
  | some fe =>
    let before := s.fencesBefore fe
    let lsu := !fe.isLda && s.fenceHere fe && fe.waits.all fun id => s.completeAt core fe.scope id
    if lsu && before.isEmpty && fe.entries.all fun id => s.completeAt core fe.scope id then .next (s.endFence fe)
    else event (lsu && !fe.entriesFree && before.all (·.entriesFree)) (fun s => s.freeEntries fe) s

/-- The load of an LDA is complete, R178. -/
def execLdaComplete (core fence : Nat) (s : State) : Host.Outcome State Fault Refusal :=
  match s.fence? core fence with
  | none => .next s
  | some fe => event (fe.isLda && s.fenceHere fe && fe.waits.all fun id => s.completeAt core fe.scope id) (fun s => s.endFence fe) s

/-- The earlier accesses that an STL covers are complete, and it is sent, R179. -/
def execStlRelease (acc : Nat) (s : State) : Host.Outcome State Fault Refusal :=
  match s.access? acc with
  | none => .next s
  | some a =>
    match a.stl with
    | none => .next s
    | some (scope, waits) =>
      event (waits.all fun id => s.completeAt a.core scope id) (fun s => (s.setAccess { a with stl := none }).pump a.core) s

/-- A bank enters its refresh window, R128. -/
def execWsRefreshStart (layer : Nat) (s : State) : Host.Outcome State Fault Refusal :=
  let l := s.layer layer
  event (decide (layer < 12 ∧ l.wsPos % 7600 < 3040) && l.wsBusy.isNone)
    (fun s => s.setLayer layer { l with wsBusy := some (l.wsPos / 7600 % 16) }) s

/-- The reads and writes that wait at the banks of a layer, in arrival order. -/
def State.bankWaiters (s : State) (layer : Nat) : List Access :=
  (s.accesses.filter fun a => a.state == .waiting && (match s.homeNow a with
    | .bank n => n / 16 == layer
    | _ => false)).mergeSort fun a b => a.order ≤ b.order

/-- A refresh window ends: what waits at a bank that does not refresh is performed in arrival order, R155. -/
def execWsRefreshEnd (layer : Nat) (s : State) : Host.Outcome State Fault Refusal :=
  let l := s.layer layer
  let ended := match l.wsBusy with
    | some b => !(l.wsPos / 7600 % 16 == b && decide (l.wsPos % 7600 < 3040))
    | none => true
  let f := fun (s : State) =>
    let s1 := s.setLayer layer { l with wsBusy := none }
    (s1.bankWaiters layer).foldl (fun s a => if s.refreshing (s.placeOf a) then s else s.arriveHome a true) s1
  event (decide (layer < 12) && ended) f s

end Sys2Proof.Machine
end

