-- ==== Sys2Proof/Machine/Engine.lean ====
section
/-! DEFINITION. The memory accesses of the copy engines and the matrix engine: where a run leads, what stops it, reading and
writing at the homes, and the conditions under which an entry may go on (R145, R155, R173-R175, R224, R314-R316, R434,
R437). Each engine step reads and writes whole (DESIGN CHOICE, log 23). -/

namespace Sys2Proof.Machine

/-- Where a capsule address leads for an engine access, whose checks were made at issue (R145, R314). -/
inductive EngTarget where
  | at (addr : Nat) (ext : Option Extent)
  /-- The page is absent: the extent's index and the page. -/
  | absent (ext page : Nat)
  | nowhere
  deriving DecidableEq, Repr

/-- The target of a capsule address for a member's engine access. The engines read the page vector at every translation: the
lookaside is the LSU's (R143) (DEDUCED, log 86). -/
def State.engAt (s : State) (cap : Capsule) (member ca : Nat) : EngTarget :=
  match windowOf ca with
  | .scratch => match cap.coreOf? 0 (scratchRole ca) with
    | some d => .at (scratchAddr s.pkgId d (scratchOff ca)) none
    | none => .nowhere
  | .reserved => .nowhere
  | .extent => match cap.extentAt? member ca with
    | none => .nowhere
    | some e => match s.translate cap.bearer e ca with
      | some a => .at a (some e)
      | none => .absent e.index ((ca - e.vbase) / 2 ^ 21)
  | _ => .at (2 ^ 64 + ca) none

/-- The address is served by the base die (R158). -/
def msaOf (ext : Option Extent) : Bool := (ext.map (·.msa)).getD false

/-- What stops an engine access for now. -/
inductive Obstacle where
  | page (ext page : Nat)
  /-- A bank in its refresh window, or the scratchpad of a parked role (R155, R224). -/
  | wait
  /-- A memory error: the AUX code and the capsule address (R437). -/
  | error (code ca : Nat)
  /-- A write to a line that its home slice guards as holding a page vector (R428): the extent's index and the capsule address. -/
  | marked (ext ca : Nat)
  deriving DecidableEq, Repr

/-- The error that the engines' translation of a capsule address meets in a page vector (R409, R437). -/
def State.engError? (s : State) (cap : Capsule) (member ca : Nat) : Option Nat :=
  match windowOf ca, cap.extentAt? member ca with
  | .extent, some e => if e.sparse then s.vectorError? e ((ca - e.vbase) / 2 ^ 21) else none
  | _, _ => none

/-- The device line where an engine access of a capsule address meets its error: of the page vector, or of the target. -/
def State.errorAt? (s : State) (cap : Capsule) (member ca : Nat) : Option Nat :=
  match s.engError? cap member ca, cap.extentAt? member ca with
  | some _, some e => some (e.entryAddr ((ca - e.vbase) / 2 ^ 21))
  | _, _ => match s.engAt cap member ca with
    | .at addr _ => some addr
    | _ => none

/-- The line that an engine access has met in error is as R437 leaves it. -/
def State.afterEngError (s : State) (cap : Capsule) (core member ca : Nat) : State :=
  match s.errorAt? cap member ca with
  | some a => s.afterError a 1 core false
  | none => s

/-- The obstacle of one unit. -/
def State.unitObstacle (s : State) (cap : Capsule) (member : Nat) (store : Bool) (u : Run) : Option Obstacle :=
  if let some code := s.engError? cap member u.1 then some (.error code u.1)
  else match s.engAt cap member u.1 with
  | .absent e p => some (.page e p)
  | .nowhere => none
  | .at addr ext =>
    if 2 ^ 64 ≤ addr then none
    else if windowOf u.1 = .scratch ∧ cap.isParked (scratchRole u.1) then some .wait
    else if s.bankBusy addr || !s.linkUp addr then some .wait
    else match s.memError? cap.bearer (s.homeOf addr (msaOf ext)) addr u.2 store with
      | some code => some (.error code u.1)
      | none =>
        if store && !msaOf ext && (s.marked? cap.lane (some cap.inst) addr).isSome then some (.marked ((ext.map (·.index)).getD 0) u.1)
        else none

/-- The device addresses of some runs exist (R136, R369). -/
def State.runsExist (s : State) (cap : Capsule) (member : Nat) (runs : List Run) : Bool :=
  (runs.flatMap unitsOf).all fun u => match s.engAt cap member u.1 with
    | .at addr _ => s.reachable addr || isPeer (devPkg addr)
    | _ => true

/-- The first obstacle of some runs. -/
def State.obstacle? (s : State) (cap : Capsule) (member : Nat) (store : Bool) (runs : List Run) : Option Obstacle :=
  (runs.flatMap unitsOf).findSome? (s.unitObstacle cap member store)

/-- The guard bit that memory supplies to a read of a unit as it stands: of the extent and of the on-die line (R162). -/
def State.unitGuarded (s : State) (cap : Capsule) (member : Nat) (u : Run) : Bool :=
  match s.engAt cap member u.1 with
  | .at addr ext =>
    if 2 ^ 64 ≤ addr then State.windowGuard cap u.1
    else (!msaOf ext && s.lineGuard cap.bearer addr) || (ext.map (·.guard)).getD false
  | _ => ((cap.extentAt? member u.1).map (·.guard)).getD false

/-- The OR over the units of some runs. -/
def State.runsGuarded (s : State) (cap : Capsule) (member : Nat) (runs : List Run) : Bool :=
  (runs.flatMap unitsOf).any (s.unitGuarded cap member)

/-- The OR of the GUARD bits of the extents in which the units of some runs lie (R350). -/
def Capsule.extsGuarded (cap : Capsule) (member : Nat) (runs : List Run) : Bool :=
  (runs.flatMap unitsOf).any fun u => ((cap.extentAt? member u.1).map (·.guard)).getD false

/-- What an engine read brings. -/
structure EngRead where
  bytes : List Byte
  guard : Bool
  s : State

/-- A request towards another package leaves by its port (R369). -/
def State.engLeave (s : State) (owner core id addr : Nat) : State :=
  match s.homeOf addr false with
  | .remote pkg => s.leaveBy owner core id pkg addr
  | _ => s

/-- Read one unit: its bytes and the OR of the extent's and the line's guard bits (R162, R316). -/
def State.engReadUnit (s : State) (cap : Capsule) (core member : Nat) (u : Run) : EngRead :=
  match s.engAt cap member u.1 with
  | .at addr ext =>
    if 2 ^ 64 ≤ addr then ⟨(List.range u.2).map fun i => s.windowByte cap (u.1 + i), State.windowGuard cap u.1, s⟩
    else
      let s := s.afterError addr u.2 core false
      let (line, guard, s1) := s.fetchLine core cap.bearer addr (msaOf ext)
      ⟨(line.drop (addr % 64)).take u.2, guard || (ext.map (·.guard)).getD false, s1⟩
  | _ => ⟨List.replicate u.2 0, false, s⟩

/-- Read some runs, in order. -/
def State.engRead (s : State) (cap : Capsule) (core member : Nat) (runs : List Run) : EngRead :=
  (runs.flatMap unitsOf).foldl (fun (r : EngRead) u =>
    let q := r.s.engReadUnit cap core member u
    ⟨r.bytes ++ q.bytes, r.guard || q.guard, q.s⟩) ⟨[], false, s⟩

/-- A unit of an engine's write at its home: `whole` counts the bytes that replace the line's guard bit (R117, R162, R167). Copies of
the line in crossing caches are invalidated, and may be returned until their invalidation is acknowledged (R168). A unit in host
space is forwarded (R176). -/
def State.engPut (s : State) (cap : Capsule) (core id addr : Nat) (ext : Option Extent) (data : List Byte) (whole : Nat)
    (guard : Bool) : State :=
  let s1 := ((s.engLeave cap.hdr.owner core id addr).afterError addr data.length core true).invalidate addr
  ((s1.writeDev cap.bearer addr data).markLine cap.bearer addr whole (msaOf ext) guard).forwarded addr id cap.inst

/-- Write bytes from a capsule address on for entry `id`, unit by unit, each with the guard bit that `guard` gives it (R163, R316). -/
def State.engWrite (s : State) (cap : Capsule) (core id member ca : Nat) (data : List Byte) (guard : Nat → Bool) : State :=
  (unitsOf (ca, data.length)).foldl (fun (s : State) u =>
    match s.engAt cap member u.1 with
    | .at addr ext => s.engPut cap core id addr ext ((data.drop (u.1 - ca)).take u.2) u.2 (guard (u.1 / 64))
    | _ => s) s

/-- The device addresses of the units of some runs. -/
def State.unitAddrs (s : State) (cap : Capsule) (member : Nat) (runs : List Run) : List Nat :=
  (runs.flatMap unitsOf).filterMap fun u => match s.engAt cap member u.1 with
    | .at addr _ => some addr
    | _ => none

/-- Copies of the lines of some runs are being invalidated: a write there is not yet acknowledged (R167). -/
def State.invalidating (s : State) (cap : Capsule) (member : Nat) (runs : List Run) : Bool :=
  let addrs := s.unitAddrs cap member runs
  s.cross.any fun l => l.dying && addrs.any fun a => a / 64 == l.line

/-- Those invalidations have been acknowledged. -/
def State.dropDyings (s : State) (cap : Capsule) (member : Nat) (runs : List Run) : State :=
  (s.unitAddrs cap member runs).foldl State.dropDying s

/-- Every invalidation in progress is acknowledged. -/
def State.dropAllDying (s : State) : State := { s with cross := s.cross.filter fun l => !l.dying }

/-- The lines of the core's first-level cache within a completed destination are invalidated (R173). -/
def State.dropRuns (s : State) (cap : Capsule) (core member : Nat) (runs : List Run) : State :=
  (runs.flatMap unitsOf).foldl (fun (s : State) u =>
    match s.engAt cap member u.1 with
    | .at addr _ => s.l1DropRun core addr u.2
    | _ => s) s

/-! When an entry may go on -/

/-- A queue is named by a join: bit 0 q0, 1 q1, 2 qm, 3 qn (R174). -/
def joinBit (queue : Nat) : Nat :=
  match queue with
  | 0 => 0
  | 1 => 1
  | 2 => 3
  | _ => 2

/-- The joining entries hold an entry of a queue: it was issued after a QFENCE that names the queue, and an entry issued
before it into a named queue is incomplete (R174). -/
def Core.joined (k : Core) (queue id : Nat) : Bool :=
  k.joins.any fun j => decide (j.1 < id) && j.2.getLsbD (joinBit queue) &&
    (k.copies.any (fun e => j.2.getLsbD (joinBit e.queue) && decide (e.id < j.1)) ||
      (j.2.getLsbD (joinBit 3) && k.qm.any fun e => decide (e.id < j.1)))

/-- Joining entries that hold nothing any more are dropped. -/
def Core.dropJoins (k : Core) : Core :=
  let live := fun (j : Nat × BitVec 4) => k.copies.any (fun e => j.2.getLsbD (joinBit e.queue) && decide (e.id < j.1)) ||
    (j.2.getLsbD (joinBit 3) && k.qm.any fun e => decide (e.id < j.1))
  { k with joins := k.joins.filter live }

/-- An earlier LSU access of the core overlaps the source or destination of an entry and is incomplete at cluster scope
(R173, third order). -/
def State.entryHeld (s : State) (c id : Nat) (runs : List Run) : Bool :=
  s.accesses.any fun a => s.ofCore c a && a.isLsu && decide (a.id < id) && !a.op.isPref && a.bytes.any fun r => runs.any (runsMeet r)

/-- A writer capability that an entry needs is still in transit to its core (R357). -/
def State.entryInTransit (s : State) (cap : Capsule) (c id member : Nat) (runs : List Run) : Bool :=
  (runs.flatMap unitsOf).any fun r => match cap.extentAt? member r.1 with
    | some e => e.u && s.inTransit cap.inst c id e.index fun m => m == e.member
    | none => false

/-- An entry of a task may read and write: no fence or LDA of its task holds its kinds (R284), no overlapping access precedes it, its
capabilities are there, and the core is not stopped (R173, R175, R224, R357). -/
def State.entryFree (s : State) (cap : Capsule) (c slot serial id member : Nat) (rk wk : Kind) (reads writes : List Run) : Bool :=
  !s.engineStopped c && !s.entryHeld c id (reads ++ writes) && !s.entryInTransit cap c id member writes &&
    !(!reads.isEmpty && s.entryFenced c slot serial id rk reads) && !(!writes.isEmpty && s.entryFenced c slot serial id wk writes)

/-! What engine work leaves behind -/

/-- After an entry of a core is complete: joins are dropped, held accesses are sent, and held tasks report (R82, R173,
R411). -/
def State.afterEntry (s : State) (c : Nat) : State :=
  ((s.setCore c (s.core c).dropJoins).pump c).sendHeld c

/-- The class 9 record of an entry that meets an absent page: queue, chunk or step, page (R434). -/
def State.pageRecord (s : State) (inst c member pc : Nat) (insn : List Byte) (queue step page : Nat) (handler : Bool) : State :=
  s.reportFault inst c member pc insn 0 ⟨9, 2, queue % 4 + step % 2 ^ 12 * 2 ^ 4 + page % 2 ^ 32 * 2 ^ 32, 0, false⟩ handler

/-- The class 9 record of an entry that meets an absent page while its capsule completes: the entry is cancelled (R218). -/
def State.drainRecord (s : State) (inst c member pc : Nat) (insn : List Byte) (queue step page : Nat) (handler : Bool) : State :=
  s.reportFault inst c member pc insn 1 ⟨9, 3, queue % 4 + step % 2 ^ 12 * 2 ^ 4 + page % 2 ^ 32 * 2 ^ 32, 0, false⟩ handler

end Sys2Proof.Machine
end

