-- ==== Sys2Proof/Machine/Image.lean ====
section
/-! DEFINITION. The capsule image: its sections read from bytes (R138, R192-R196, R312), and the checks that the Plaza makes
of a capsule or a template (R139, R193-R196, R444). -/

namespace Sys2Proof.Machine

/-- Bytes lo to lo + n - 1 of an image as a number. -/
def fieldAt (b : List Byte) (lo n : Nat) : Nat := leNat ((b.drop lo).take n)

/-- `n` little-endian fields of `w` bytes each. -/
def fieldsAt (b : List Byte) (lo w n : Nat) : List Nat := (List.range n).map fun i => fieldAt b (lo + w * i) w

/-- The header, R193. -/
def headerOf (b : List Byte) : Header :=
  { magic := fieldAt b 0 4, version := fieldAt b 4 2, length := fieldAt b 6 2, codeid := (b.drop 8).take 64,
    owner := fieldAt b 72 8, prio := fieldAt b 80 1 % 64, prioRsv := fieldAt b 80 1 / 64, fclass := fieldAt b 81 1,
    flags := fieldAt b 82 2, regs := fieldAt b 84 4, scratch := fieldAt b 88 4, overflow := fieldAt b 92 4,
    part := fieldsAt b 96 2 6, super := fieldAt b 108 2, xext := fieldAt b 110 1, next := fieldAt b 111 1,
    entry := fieldAt b 112 4, codelen := fieldAt b 116 4, codeaddr := fieldAt b 120 8, compl := fieldAt b 128 8,
    views := fieldsAt b 136 4 3, fmts := fieldsAt b 148 4 4, classmode := fieldAt b 164 4, hdls := fieldsAt b 168 4 16,
    ngroup := fieldAt b 232 2, ntens := fieldAt b 234 2, nseg := fieldAt b 236 2, arglen := fieldAt b 238 2,
    nrost := fieldAt b 240 2, npool := fieldAt b 242 2, park := fieldAt b 248 8 }

/-- The offsets of the sections, R192. -/
def Header.extOff (_ : Header) : Nat := 256
def Header.groupOff (h : Header) : Nat := 256 + 32 * h.next
def Header.tensOff (h : Header) : Nat := h.groupOff + 16 * h.ngroup
def Header.segOff (h : Header) : Nat := h.tensOff + 128 * h.ntens
def Header.poolOff (h : Header) : Nat := h.segOff + 16 * h.nseg
def Header.rostOff (h : Header) : Nat := h.poolOff + 2 * h.npool
def Header.argOff (h : Header) : Nat := alignUp (h.rostOff + 2 * h.nrost) 32
def Header.sealOff (h : Header) : Nat := alignUp (h.argOff + h.arglen) 32

/-- An extent entry, R138. -/
def extentOf (b : List Byte) (off index : Nat) : Extent :=
  let w0 := fieldAt b off 8
  let w1 := fieldAt b (off + 8) 8
  let w3 := fieldAt b (off + 24) 8
  let bit := fun (n : Nat) => decide (bits w3 n 1 = 1)
  { index := index, allm := decide (bits w0 56 1 = 1), member := bits w0 48 8, vbase := bits w0 6 42 * 64, wrole := bits w1 48 15,
    len := bits w1 6 42 * 64, dbase := fieldAt b (off + 16) 8 / 64 * 64, sparse := bit 7, ws := bit 6, msa := bit 5, guard := bit 4,
    u := bit 3, x := bit 2, w := bit 1, r := bit 0 }

/-- A group descriptor, R194, not yet bound. -/
def groupAt (b : List Byte) (off : Nat) : Group :=
  { shape := fieldAt b off 1, scope := fieldAt b (off + 1) 1, a := fieldAt b (off + 2) 2, b := fieldAt b (off + 4) 2,
    lext := fieldAt b (off + 6) 1, laddr := fieldAt b (off + 8) 8, cores := [], broken := false, complete := none, counted := [] }

/-- The member count of a descriptor, R68, R194. -/
def Group.members (g : Group) : Nat :=
  match g.shape with
  | 0 | 1 => g.a * g.b
  | 2 | 3 => g.a
  | _ => 0

/-- A segment map entry with its replicas from the pool, R195. -/
def segmentAt (b : List Byte) (off poolOff : Nat) : Segment :=
  { start := fieldAt b off 4, len := fieldAt b (off + 4) 4,
    roles := fieldsAt b (poolOff + 2 * fieldAt b (off + 8) 2) 2 (fieldAt b (off + 10) 2) }

/-- A capsule image taken apart. -/
structure CapImage where
  hdr : Header
  exts : List Extent
  groups : List Group
  tensors : SMap (BitVec 1024)
  segs : List Segment
  pool : List Nat
  roster : List Nat
  args : List Byte

/-- The sections of an image, R192. -/
def imageOf (b : List Byte) : CapImage :=
  let h := headerOf b
  let entry := fun (i : Nat) => (BitVec.ofNat 1024 (fieldAt b (h.tensOff + 128 * i) 128) : BitVec 1024)
  { hdr := h, exts := (List.range h.next).map fun i => extentOf b (h.extOff + 32 * i) i,
    groups := (List.range h.ngroup).map fun i => groupAt b (h.groupOff + 16 * i),
    tensors := ((List.range h.ntens).map fun i => (i, entry i)).filter fun e => e.2 != 0,
    segs := (List.range h.nseg).map fun i => segmentAt b (h.segOff + 16 * i) h.poolOff,
    pool := fieldsAt b h.poolOff 2 h.npool, roster := (fieldsAt b h.rostOff 2 h.nrost).map fun v => v % 8192,
    args := (b.drop h.argOff).take h.arglen }

/-! Checks -/

/-- A device address in space 0x0 or 0x4. -/
def openSpace (a : Nat) : Bool := devSpace a == 0 || devSpace a == 4

/-- Check 1 of R444: MAGIC, VERSION and LENGTH. -/
def Header.framed (h : Header) : Bool :=
  decide (h.magic = 0xA1A7C768 ∧ h.version = 1 ∧ 352 ≤ h.length ∧ h.length ≤ 16384 ∧ h.length % 32 = 0)

/-- COMPL names a place that may be written, R193, R445. -/
def Header.complOk (h : Header) : Bool := decide (h.compl % 64 = 0) && openSpace h.compl

/-- A view's launch value, R115. -/
def viewOk (v size count regs : Nat) : Bool :=
  let n := bits v 16 8
  decide (bits v 24 8 = 0 ∧ bits v 15 1 = 0 ∧ bits v 0 15 % size = 0 ∧ 1 ≤ n ∧ n ≤ count ∧ bits v 0 15 + n * size ≤ regs)

/-- The fields of the header, R193, R67, but COMPL. A set MERGED bit (FLAGS bit 4) in a posted capsule is accepted and has no effect,
and NPOOL other than 0 without PROM is refused (DESIGN CHOICE, log 92). -/
def Header.fieldsOk (h : Header) (reserved : Nat) : Bool :=
  decide (h.prioRsv = 0 ∧ h.fclass < 4 ∧ h.flags < 32 ∧ reserved = 0 ∧ h.super < 2 ^ 15) &&
    decide (h.regs % 64 = 0 ∧ h.regs ≤ 32768 ∧ h.scratch % 64 = 0 ∧ h.scratch ≤ 131072 ∧ h.overflow % 64 = 0 ∧ h.overflow ≤ 65536) &&
    decide (1 ≤ h.next ∧ h.next ≤ 64 ∧ 1 ≤ h.ngroup ∧ h.ngroup ≤ 256 ∧ h.ntens ≤ 256 ∧ h.arglen ≤ 2048 ∧ h.nrost ≤ 64) &&
    decide (h.entry % 4 = 0 ∧ h.codelen % 32 = 0) && (h.xext != 0xFF || openSpace h.codeaddr) &&
    decide (h.park % 4096 = 0) && openSpace h.park &&
    viewOk (h.views.getD 0 0) 64 128 h.regs && viewOk (h.views.getD 1 0) 512 32 h.regs &&
    viewOk (h.views.getD 2 0) 1024 16 h.regs &&
    ((List.range 12).all fun c => bits h.classmode (2 * c) 2 != 3) && decide (h.classmode < 2 ^ 24) &&
    (if h.prom then decide (1 ≤ h.nseg) else h.nseg == 0 && h.npool == 0) && decide (h.sealOff + 32 = h.length)

/-- The reserved bits of an extent entry are zero, R138. -/
def extentRsv (b : List Byte) (off : Nat) : Bool :=
  let w0 := fieldAt b off 8
  let w1 := fieldAt b (off + 8) 8
  decide (bits w0 57 7 = 0 ∧ bits w0 0 6 = 0 ∧ bits w1 63 1 = 0 ∧ bits w1 0 6 = 0 ∧ fieldAt b (off + 16) 8 % 64 = 0 ∧
    fieldAt b (off + 24) 8 < 256)

/-- An extent is well formed by itself, R139. -/
def Extent.wellFormed (e : Extent) (stock : Bool) : Bool :=
  decide (0 < e.len ∧ e.vbase + e.len ≤ 2 ^ 47) && (!e.u || e.w) &&
    (!e.ws || (decide (devSpace e.dbase = 1 ∧ wsLayer e.dbase < 12 ∧ bits e.dbase 32 15 = 0 ∧
        e.dbase % 2 ^ 28 + e.len ≤ 2 ^ 28) && !e.msa && !e.sparse && (!e.w || stock))) &&
    (!e.msa || devSpace e.dbase == 0) && (!e.sparse || decide (e.vbase % 2 ^ 21 = 0 ∧ e.len % 2 ^ 21 = 0))

/-- Two extents overlap for some member that sees both, R139. -/
def Extent.clash (a b : Extent) : Bool :=
  (a.allm || b.allm || a.member == b.member) && decide (a.vbase < b.vbase + b.len ∧ b.vbase < a.vbase + a.len)

/-- The extents of a capsule satisfy R139. -/
def extentsOk (l : List Extent) (stock : Bool) : Bool :=
  l.all (fun e => e.wellFormed stock) && l.all fun a => l.all fun b => a.index == b.index || !a.clash b

/-- A group descriptor, R68, R194. A list of no member is refused: R68 gives the n of a list no lower bound (DESIGN CHOICE, log 107). -/
def Group.descriptorOk (g : Group) (next : Nat) : Bool :=
  decide (g.scope ≤ 8) &&
    match g.shape with
    | 0 | 1 => decide (1 ≤ g.a ∧ g.a ≤ 32 ∧ 1 ≤ g.b ∧ g.b ≤ 48 ∧ g.scope ≤ 3 ∧ g.laddr = 0)
    | 2 => decide (2 ≤ g.a ∧ g.b = 0 ∧ g.laddr = 0)
    | 3 => decide (1 ≤ g.a ∧ g.b = 0 ∧ g.lext < next ∧ g.laddr % 4 = 0)
    | 7 => decide (g.b = 0 ∧ g.laddr = 0)
    | _ => false

/-- A segment map entry, R195. -/
def segmentOk (b : List Byte) (off npool : Nat) : Bool :=
  decide (fieldAt b off 4 % 32 = 0 ∧ fieldAt b (off + 4) 4 % 32 = 0 ∧ fieldAt b (off + 4) 4 ≤ 16384 ∧
    1 ≤ fieldAt b (off + 10) 2 ∧ fieldAt b (off + 8) 2 + fieldAt b (off + 10) 2 ≤ npool ∧ fieldAt b (off + 12) 4 = 0)

/-- The replica lists of a PROM capsule together name each of the `m` roles once, R94, R195. -/
def replicasOk (npool m : Nat) (segs : List Segment) : Bool :=
  let named := segs.flatMap (·.roles)
  npool == m && named.length == m && (List.range m).all fun r => named.contains r

/-- Check 3 of R444 but for R205 and COMPL: the header fields, the sections and their counts, and R139 (DEDUCED, log 43). -/
def imageOk (b : List Byte) : Bool :=
  let im := imageOf b
  let h := im.hdr
  let m := (im.groups.headD (groupAt [] 0)).members
  h.fieldsOk (fieldAt b 244 4) && decide (b.length = h.length) &&
    (List.range h.next).all (fun i => extentRsv b (h.extOff + 32 * i)) && extentsOk im.exts h.stock &&
    (match im.groups.head? with
     | some g => decide (g.shape ≤ 3)
     | none => false) && im.groups.all (fun g => g.descriptorOk h.next) &&
    ((List.range h.ngroup).all fun i => fieldAt b (h.groupOff + 16 * i + 7) 1 == 0) && decide (h.super < m) &&
    ((List.range h.nseg).all fun i => segmentOk b (h.segOff + 16 * i) h.npool) &&
    (!h.prom || replicasOk h.npool m im.segs) &&
    (fieldsAt b h.rostOff 2 h.nrost).all fun v => decide (v < 8192)

end Sys2Proof.Machine
end

