-- ==== Sys2Proof/Machine/Memory.lean ====
section
/-! DEFINITION. Memory, atomic and ordering instructions (R268-R287). -/

namespace Sys2Proof.Machine

open Sys2Proof

/-- The checks of an instruction's access at issue, after the checks of classes 4 and 11, then the LSU places that it takes, and then
its effect (R172, R412, R420). -/
def withPlaces (x : Cur) (s : State) (places : Nat) (l : List (Option FaultInfo)) (ea size : Nat) (use : Use) (word guard : Bool)
    (k : State → Target → Verdict) : Verdict :=
  match firstFault l with
  | some f => .raise f
  | none =>
    match s.checkAccess x.cap x.c x.t.member ea size use word guard with
    | .error f => s.accessFault x f
    | .ok t => withPlace x s places fun s => k s t

/-- The same for one access. -/
def withTarget (x : Cur) (s : State) (l : List (Option FaultInfo)) (ea size : Nat) (use : Use) (word guard : Bool)
    (k : State → Target → Verdict) : Verdict := withPlaces x s 1 l ea size use word guard k

/-- Send a new access: a lookaside hit is noted, and the LSU sends what it may (R169). -/
def State.issueAccess (s : State) (x : Cur) (tgt : Target) (a : Access) : State := ((s.lookHit x tgt a.ca).addAccess a).pump x.c

/-- A load of one access into registers: the destinations are pending (R82, R272). -/
def loadRegs (x : Cur) (s : State) (op : AccOp) (kind : Kind) (ea size : Nat) (tgt : Target) (d count rsize : Nat) (sx : Bool)
    (data : List Byte) (guard : Bool) : State :=
  let s1 := s.pendRegs x.c x.n ((List.range count).map (d + ·))
  let r := x.result s1 (.regs d count rsize sx) 1 []
  let s2 := s1.addResult r
  s2.issueAccess x tgt (x.access s2 op kind ea tgt size data guard (some (s1.serial, 0)))

/-- An access without a result. -/
def sendAccess (x : Cur) (s : State) (op : AccOp) (kind : Kind) (ea size : Nat) (tgt : Target) (data : List Byte)
    (guard : Bool) : State :=
  s.issueAccess x tgt (x.access s op kind ea tgt size data guard none)

/-- 4/6 of LD and ST: a group needs SZ = 3 (R272). -/
def groupSize6 (f : FmtM) : Option FaultInfo := failIf (f.dw ≠ 0 ∧ f.sz ≠ 3) 4 6 f.dw.toNat

/-- Load of one register or a group, R272. -/
def execLd (h : Head) (f : FmtM) : State → Host.Outcome State Fault Refusal :=
  issue h 8 fun x s =>
    let d := f.d.toNat
    let count := 2 ^ f.dw.toNat
    let bytes := 2 ^ f.sz.toNat
    let sx := f.fn.getLsbD 0
    withTarget x s
      [misaligned d f.dw.toNat, readMarked x f.addrRegs, writeMarked x (groupOf d f.dw.toNat), groupSize6 f,
       failIf (sx && (f.dw ≠ 0 || f.sz == 3)) 4 6 f.fn.toNat]
      (f.ea x).toNat (bytes * count) .load false false
      fun s t => .next (loadRegs x s .load .r (f.ea x).toNat (bytes * count) t d count bytes sx [] false)

/-- The data of a store: the low bytes of a register, or whole registers of a group (R272). -/
def storeBytes (x : Cur) (d dw sz : Nat) : List Byte :=
  if dw = 0 then leBytes (2 ^ sz) (x.t.reg d).toNat else x.groupBytes d dw

/-- Store of one register or a group, R272, R273. -/
def execSt (h : Head) (f : FmtM) : State → Host.Outcome State Fault Refusal :=
  issue h 8 fun x s =>
    let d := f.d.toNat
    let size := 2 ^ f.sz.toNat * 2 ^ f.dw.toNat
    let guard := x.groupGuard d f.dw.toNat
    withTarget x s
      [misaligned d f.dw.toNat, readMarked x (f.addrRegs ++ groupOf d f.dw.toNat), groupSize6 f]
      (f.ea x).toNat size .store (decide (f.dw = 0 ∧ f.sz = 3)) guard
      fun s t => .next (sendAccess x s .store .w (f.ea x).toNat size t (storeBytes x d f.dw.toNat f.sz.toNat) guard)

/-- 4/10: a list item that names an undefined tensor (R171). -/
def listFault (k : Core) (l : BitVec 39) : Option FaultInfo :=
  ((List.range (listCount l)).map (listItem l)).findSome? fun item =>
    if 256 ≤ item ∧ tDefined (SMap.get 0 k.tensors (item % 256)) = false then some ⟨4, 10, item % 256, 0, false⟩ else none

/-- The ranges of a list as they stand at issue; none for an absent list (R170, R171, R275). -/
def listRanges (k : Core) (l : BitVec 39) : Option (List (Nat × Nat)) :=
  if listCount l = 0 then none else some (k.listRanges (listCount l) (l.toNat / 8))

/-- Acquire load, R178, R275. -/
def execLda (h : Head) (f : FmtML) : State → Host.Outcome State Fault Refusal :=
  issue h 16 fun x s =>
    let m := f.toM
    let d := f.d.toNat
    let size := 2 ^ f.sz.toNat
    withTarget x s
      [readMarked x m.addrRegs, writeMarked x [d], failIf (f.dw ≠ 0) 4 6 f.dw.toNat, listFault x.k f.list]
      (m.ea x).toNat size .load false false
      fun s t =>
        let s1 := loadRegs x s .load .r (m.ea x).toNat size t d 1 size false [] false
        let fe : Fence :=
          { id := s1.serial, inst := x.cap.inst, core := x.c, slot := x.n, slotSerial := (x.k.slot x.n).serial, isLda := true,
            scope := f.sc.toNat, succ := 0, ranges := listRanges x.k f.list, waits := [s.serial + 1], entries := [] }
        .next { s1 with serial := s1.serial + 1, fences := s1.fences ++ [fe] }

/-- The opcode of the instruction that made an access. -/
def Access.opcode (a : Access) : Nat := bits (leNat (a.insn.take 2)) 3 8

/-- Release store, R179, R275. -/
def execStl (h : Head) (f : FmtML) : State → Host.Outcome State Fault Refusal :=
  issue h 16 fun x s =>
    let m := f.toM
    let d := f.d.toNat
    let size := 2 ^ f.sz.toNat
    let guard := x.t.regGuard d
    withTarget x s
      [readMarked x (m.addrRegs ++ [d]), failIf (f.dw ≠ 0) 4 6 f.dw.toNat, listFault x.k f.list]
      (m.ea x).toNat size .store (f.sz == 3) guard
      fun s t =>
        let own := (s.accesses.filter fun a => a.core == x.c && a.slot == x.n && a.opcode == 0x43 &&
          a.slotSerial == (x.k.slot x.n).serial).map (·.id)
        let waits := s.covered x.c (fun _ => true) (listRanges x.k f.list) ++ own
        let a := x.access s .store .w (m.ea x).toNat t size (leBytes size (x.t.reg d).toNat) guard none
        .next (s.issueAccess x t { a with stl := some (f.sc.toNat, waits) })

/-- A tagged operation, R276: a load leaves its destination pending, the others have none. -/
def tagged (op : AccOp) (f : FmtM) (load data : Bool) (x : Cur) (s : State) : Verdict :=
  let d := f.d.toNat
  let ea := (f.ea x).toNat
  let bad := windowOf ea != .scratch || decide (2 ^ 48 ≤ ea ∨ ea % 8 ≠ 0)
  withTarget x s
    [readMarked x (f.addrRegs ++ if data then [d] else []), if load then writeMarked x [d] else none,
     failIf (f.sz ≠ 3) 4 6 f.sz.toNat, failIf (f.dw ≠ 0) 4 6 f.dw.toNat,
     heldBy (f.addrRegs.any x.t.regGuard) (failIf bad 4 13 ea ea)]
    ea 8 (if load then .load else .store) false false
    fun s t =>
      if load then .next (loadRegs x s op .f ea 8 t d 1 8 false [] false)
      else .next (sendAccess x s op .f ea 8 t (if data then leBytes 8 (x.t.reg d).toNat else []) (data && x.t.regGuard d))

/-- Wait until the word is full, then read it, R276. -/
def execLdf (h : Head) (f : FmtM) : State → Host.Outcome State Fault Refusal := issue h 8 (tagged .ldf f true false)

/-- Wait until the word is full, read it and leave it empty, R276. -/
def execLdfe (h : Head) (f : FmtM) : State → Host.Outcome State Fault Refusal := issue h 8 (tagged .ldfe f true false)

/-- Wait until the word is empty, write it and set it full, R276. -/
def execSte (h : Head) (f : FmtM) : State → Host.Outcome State Fault Refusal := issue h 8 (tagged .ste f false true)

/-- Write the word and set it full, R276. -/
def execStf (h : Head) (f : FmtM) : State → Host.Outcome State Fault Refusal := issue h 8 (tagged .stf f false true)

/-- Set the bit to full, R276. -/
def execFeset (h : Head) (f : FmtM) : State → Host.Outcome State Fault Refusal := issue h 8 (tagged .feset f false false)

/-- Set the bit to empty, R276. -/
def execFeclr (h : Head) (f : FmtM) : State → Host.Outcome State Fault Refusal := issue h 8 (tagged .feclr f false false)

/-- Read the bit, R276. -/
def execFetst (h : Head) (f : FmtM) : State → Host.Outcome State Fault Refusal := issue h 8 (tagged .fetst f true false)

/-- A line that PREF fetches: not in the scratchpad window, not of MSA, host space or another package (R278). -/
def State.prefTarget (s : State) (t : Target) : Bool := s.cacheable t.addr ((t.ext.map (·.msa)).getD false)

/-- Prefetch of a line; it never faults on its address, R278. -/
def execPref (h : Head) (f : FmtM) : State → Host.Outcome State Fault Refusal :=
  issue h 8 fun x s =>
    checked [readMarked x f.addrRegs, failIf (f.fn.toNat % 4 = 3 ∨ 4 ≤ f.fn.toNat) 4 6 f.fn.toNat]
      (match s.checkAccess x.cap x.c x.t.member (f.ea x).toNat 1 .load true false with
       | .error _ => .next s
       | .ok t =>
         if s.prefTarget t then .next (sendAccess x s (.pref f.fn.toNat) .r (f.ea x).toNat 1 t [] false) else .next s)

/-- 4/14 of a role operand: AUX holds the index, read from a register of guard bit `guard`, and the group (R416). -/
def roleFault (group index : Nat) (bound : Bool) (guard : Bool := false) : Option FaultInfo :=
  heldBy guard (failIf (!bound) 4 14 (index % 2 ^ 15 + group * 2 ^ 16))

/-- Store to the scratchpad of the core bound to a role, R279. -/
def execPut (h : Head) (f : FmtT) : State → Host.Outcome State Fault Refusal :=
  issue h 8 fun x s =>
    let d := f.d.toNat
    let size := 8 * 2 ^ f.dw.toNat
    let o := (x.reg f.a).toNat
    let i := f.roleIndex x
    let core := x.cap.coreOf? f.rk.toNat i
    checked
      [misaligned d f.dw.toNat,
       readMarked x ([f.a.toNat] ++ (if f.rx = 1 then [f.b.toNat] else []) ++ groupOf d f.dw.toNat),
       failIf (f.cls.toNat < 4) 4 6 f.cls.toNat,
       heldBy (x.guard f.a) (failIf (o % size ≠ 0 ∨ x.cap.hdr.scratch < o + size) 4 11 o),
       roleFault f.rk.toNat i core.isSome (f.roleGuard x)]
      (withPlace x s 1 fun s => match core with
       | none => .next s
       | some c =>
         let t : Target := ⟨scratchAddr s.pkgId c o, none⟩
         let a := x.access s .put .w (scratchCa (x.cap.roleOfCore c) o) t size (x.groupBytes d f.dw.toNat)
           (x.groupGuard d f.dw.toNat) none
         .next (s.issueAccess x t { a with cls := f.cls.toNat }))

/-- 4/6 of the atomics: X, SZ, DW and FN (R269, R280-R282). -/
def atomicFault (f : FmtM) (sz fn : Bool) : List (Option FaultInfo) :=
  [failIf (f.x = 1) 4 6 1, failIf (!sz) 4 6 f.sz.toNat, failIf (f.dw ≠ 0) 4 6 f.dw.toNat, failIf (!fn) 4 6 f.fn.toNat]

/-- Class 11 in a DET capsule (R104, R419). -/
def detFault (x : Cur) (detail op : Nat) : Option FaultInfo := failIf x.cap.hdr.det 11 detail op

/-- An atomic or reduction: `returns` gives the destination D, R280-R283. -/
def atomic (op : AccOp) (f : FmtM) (returns : Bool) (src : Nat) (guard : Cur → Bool) (l : Cur → List (Option FaultInfo))
    (x : Cur) (s : State) : Verdict :=
  let ea := (x.reg f.a + f.offset).toNat
  let size := 2 ^ f.sz.toNat
  let data := leBytes size (x.t.reg src).toNat
  withTarget x s (l x) ea size .atomic false (guard x)
    fun s t =>
      if returns then .next (loadRegs x s op .a ea size t f.d.toNat 1 size false data (guard x))
      else .next (sendAccess x s op .a ea size t data (guard x))

/-- Atomic read-modify-write that returns the old value, R280. -/
def execAmo (h : Head) (f : FmtM) : State → Host.Outcome State Fault Refusal :=
  issue h 8 (atomic (.amo f.fn.toNat) f true f.b.toNat (fun x => x.guard f.b)
    fun x => [readMarked x [f.a.toNat, f.b.toNat], writeMarked x [f.d.toNat]] ++
      atomicFault f (2 ≤ f.sz.toNat) (f.fn.toNat ≤ 6 || f.fn == 12 || f.fn == 13) ++ [detFault x 1 0x50])

/-- Compare and swap, R281. -/
def execCas (h : Head) (f : FmtM) : State → Host.Outcome State Fault Refusal :=
  issue h 8 fun x =>
    atomic (.cas (x.reg f.d).toNat) f true f.b.toNat (fun x => x.guard f.b || x.guard f.d)
      (fun x => [readMarked x [f.a.toNat, f.b.toNat, f.d.toNat], writeMarked x [f.d.toNat]] ++
        atomicFault f (2 ≤ f.sz.toNat) true ++ [detFault x 1 0x51]) x

/-- Integer reduction, R280. -/
def execRed (h : Head) (f : FmtM) : State → Host.Outcome State Fault Refusal :=
  issue h 8 (atomic (.red f.fn.toNat) f false f.d.toNat (fun x => x.guard f.d)
    fun x => [readMarked x [f.a.toNat, f.d.toNat]] ++
      atomicFault f (2 ≤ f.sz.toNat) (f.fn.toNat ≤ 5 || f.fn == 12 || f.fn == 13))

/-- The size a floating type requires, R282. -/
def floatSize (f : FmtM) : Bool := (f.fn == 0 && f.sz == 2) || (f.fn == 1 && f.sz == 1)

/-- Floating add that returns the old value, R282. -/
def execAmof (h : Head) (f : FmtM) : State → Host.Outcome State Fault Refusal :=
  issue h 8 (atomic (.amof f.fn.toNat) f true f.b.toNat (fun x => x.guard f.b)
    fun x => [readMarked x [f.a.toNat, f.b.toNat], writeMarked x [f.d.toNat]] ++
      atomicFault f (floatSize f || 2 ≤ f.fn.toNat) (f.fn.toNat ≤ 1) ++ [detFault x 1 0x53])

/-- Floating add without a result, R282. -/
def execRedf (h : Head) (f : FmtM) : State → Host.Outcome State Fault Refusal :=
  issue h 8 (atomic (.redf f.fn.toNat) f false f.d.toNat (fun x => x.guard f.d)
    fun x => [readMarked x [f.a.toNat, f.d.toNat]] ++
      atomicFault f (floatSize f || 2 ≤ f.fn.toNat) (f.fn.toNat ≤ 1) ++ [detFault x 2 0x54])

/-- Fence: the later accesses of its successor kinds are held until the earlier ones it names are complete, R175, R284. -/
def execFence (h : Head) (f : FmtF) : State → Host.Outcome State Fault Refusal :=
  issue h 12 fun x s =>
    checked [listFault x.k f.list]
      (let fe : Fence :=
        { id := s.serial, inst := x.cap.inst, core := x.c, slot := x.n, slotSerial := (x.k.slot x.n).serial, isLda := false,
          scope := f.sc.toNat, succ := f.sm, ranges := none,
          waits := s.coveredAccesses x.c (fun kind => f.pm.getLsbD kind.bit) (listRanges x.k f.list),
          entries := s.coveredEntries x.c (fun kind => f.pm.getLsbD kind.bit) (listRanges x.k f.list) }
       .next { s with serial := s.serial + 1, fences := s.fences ++ [fe] })

/-- Write a tracker, R285. -/
def Core.setTracker (k : Core) (n : Nat) (t : Tracker) : Core :=
  { k with trackers := k.trackers.set (n % 16) t (Nat.mod_lt _ (by decide)) }

/-- Bind a tracker to a range, R285. -/
def execTrack (h : Head) (f : FmtA) : State → Host.Outcome State Fault Refusal :=
  issue h 8 fun x s =>
    checked [readMarked x [f.a.toNat, f.b.toNat]]
      (.next (s.setCore x.c (x.k.setTracker f.d.toNat
        ⟨true, false, 0, bits (x.reg f.a).toNat 0 48, bits (x.reg f.b).toNat 0 48⟩)))

/-- Bind a tracker to a tensor's footprint, R171, R285. -/
def execTrackt (h : Head) (f : FmtA) : State → Host.Outcome State Fault Refusal :=
  issue h 8 fun x s =>
    let t := SMap.get 0 x.k.tensors f.fn.toNat
    let r := footprint t
    checked [failIf (!tDefined t) 4 10 f.fn.toNat]
      (.next (s.setCore x.c (x.k.setTracker f.d.toNat ⟨true, true, f.fn.toNat, r.1, r.2⟩)))

/-- Unbind a tracker, R285. -/
def execUntrack (h : Head) (f : FmtA) : State → Host.Outcome State Fault Refusal :=
  issue h 8 fun x s => .next (s.setCore x.c (x.k.setTracker f.d.toNat ⟨false, false, 0, 0, 0⟩))

/-- A joining entry in the named queues, R174, R286. -/
def execQfence (h : Head) (f : FmtN) : State → Host.Outcome State Fault Refusal :=
  issue h 8 fun x s =>
    let named := (List.range 4).filter fun i => f.imm.getLsbD i
    checked [failIf (named.length < 2) 4 6 f.imm.toNat]
      (.next { s.setCore x.c { x.k with joins := x.k.joins ++ [(s.serial, f.imm.extractLsb' 0 4)] } with
        serial := s.serial + 1 })

end Sys2Proof.Machine
end

