-- ==== Sys2Proof/Machine/Chain.lean ====
section
/-! DEFINITION. Chaining: CPOST and the queueing of children (R184, R215, R356), HANDOVER and the arrival of a writer capability
(R145, R217, R357), and their refusals (R462). -/

namespace Sys2Proof.Machine

open Sys2Proof

/-- A core of a capsule is parked: what it had issued is in its image. -/
def Capsule.coreParked (cap : Capsule) (core : Nat) : Bool := cap.parked.any fun p => cap.coreOf? 0 p.role == some core

/-- A CPOST or HANDOVER refused: a class 18 record of disposition C (R462). -/
def State.chainRefuse (s : State) (inst core member pc : Nat) (insn : List Byte) (detail aux addr : Nat) (handler : Bool) : State :=
  s.reportFault inst core member pc insn 1 ⟨18, detail, aux, addr, false⟩ handler

/-- Post a template, R356: the Plaza reads it once the earlier accesses of the core are complete. -/
def execCpost (h : Head) (f : FmtT) : State → Host.Outcome State Fault Refusal :=
  issue h 8 fun x s =>
    let a := (x.reg f.a).toNat
    let p : Post :=
      { id := s.serial, inst := x.cap.inst, core := x.c, slot := x.n, slotSerial := (x.k.slot x.n).serial, member := x.t.member,
        pc := x.pc, insn := x.insn, addr := a, waits := s.covered x.c (fun _ => true) none, image := [], prio := 0, after := false,
        queued := false, taken := false, queuedAt := 0, barred := [], handler := (x.k.slot x.n).fromFault }
    checked [readMarked x [f.a.toNat], heldBy (x.guard f.a) (failIf (a % 32 ≠ 0) 4 11 a)]
      (.next { s with serial := s.serial + 1, plaza := { s.plaza with posts := s.plaza.posts ++ [p] } })

/-! The template (R215) -/

/-- An extent `c` is attenuated from an extent `p`, R215. -/
def Extent.attenuated (c p : Extent) : Bool :=
  decide (c.sparse = p.sparse ∧ c.ws = p.ws ∧ c.msa = p.msa) &&
    (if c.sparse then decide (c.dbase = p.dbase ∧ c.len ≤ p.len)
     else decide (p.dbase ≤ c.dbase ∧ c.dbase + c.len ≤ p.dbase + p.len)) &&
    (!c.r || p.r) && (!c.w || p.w) && (!c.x || p.x) && (!(p.u && c.w) || c.u) && (c.guard || !p.guard)

/-- The runs of a template: LENGTH bytes from its address. -/
def State.templateLength (s : State) (cap : Capsule) (member addr : Nat) : Nat :=
  let byte := fun (i : Nat) => match s.engAt cap member (addr + i) with
    | .at a _ => if 2 ^ 64 ≤ a then 0 else leNat (s.readDev cap.bearer a 1)
    | _ => 0
  byte 6 + 256 * byte 7

/-- Every byte of a run lies in extents that the member sees with R, on pages that are present. -/
def State.readable (s : State) (cap : Capsule) (member : Nat) (r : Run) : Bool :=
  (unitsOf r).all fun u => match windowOf u.1, cap.extentAt? member u.1 with
    | .extent, some e => e.r && (s.translate cap.bearer e u.1).isSome
    | _, _ => false

/-- What the Plaza reads of a template, under the posting task's extents. -/
def State.templateRead (s : State) (cap : Capsule) (core member addr : Nat) : EngRead :=
  s.engRead cap core member [(addr, s.templateLength cap member addr)]

/-- Children posted and not yet launched, R215. -/
def State.childCount (s : State) (inst : Nat) : Nat :=
  (s.plaza.posts.filter fun p => p.inst == inst && p.queued && !p.taken).length +
    (s.capsules.filter fun c => c.parent == some inst && c.stage != .running && c.stage != .completing).length

/-- The child's part of R215: owner, priority, roster and attenuation. The own package `pkg` is on every roster (R196). -/
def Capsule.mayPost (cap : Capsule) (pkg member : Nat) (im : CapImage) : Bool :=
  decide (im.hdr.owner = cap.hdr.owner ∧ im.hdr.prio ≤ cap.hdr.prio) && (im.roster.all fun r => r == pkg || cap.roster.contains r) &&
    im.exts.all fun c => cap.exts.any fun p => p.seen member && c.attenuated p

/-- Why a template is refused, R462 (DEDUCED, log 42). -/
def State.templateFault (s : State) (cap : Capsule) (p : Post) (r : EngRead) : Option (Nat × Nat) :=
  let im := imageOf r.bytes
  if !(s.readable cap p.member (p.addr, 8)) || !(s.readable cap p.member (p.addr, s.templateLength cap p.member p.addr)) then
    some (1, p.addr)
  else if !(im.hdr.framed && im.hdr.complOk && imageOk r.bytes) then some (1, p.addr)
  else if !cap.mayPost s.pkgId p.member im then some (2, p.addr)
  else if r.guard then some (3, p.addr)
  else if 64 ≤ s.childCount cap.inst then some (4, 64)
  else none

/-- Change a post. -/
def State.setPost (s : State) (p : Post) : State :=
  let f := fun (q : Post) => if q.id = p.id then p else q
  { s with plaza := { s.plaza with posts := s.plaza.posts.map f } }

/-- Drop a post. -/
def State.dropPost (s : State) (id : Nat) : State :=
  { s with plaza := { s.plaza with posts := s.plaza.posts.filter fun q => q.id != id } }

/-- The seal of R199 over a body under an owner's key. -/
def sealed (owner : Nat) (image : List Byte) : List Byte :=
  let body := image.take (image.length - 32)
  body ++ sealOf owner body

/-- The Plaza takes the template: it is refused, or sealed and queued on the child queue of its priority (R215, R462). -/
def State.queueChild (s : State) (cap : Capsule) (p : Post) : State :=
  let run := (p.addr, s.templateLength cap p.member p.addr)
  match s.obstacle? cap p.member false [run] with
  | some .wait => s
  | some (.error code ca) => (s.dropPost p.id).engineError cap.inst p.core p.member p.pc p.insn code ca
  | _ =>
    let r := s.templateRead cap p.core p.member p.addr
    match s.templateFault cap p r with
    | some (detail, aux) => (r.s.dropPost p.id).chainRefuse cap.inst p.core p.member p.pc p.insn detail aux p.addr p.handler
    | none =>
      let h := headerOf r.bytes
      let q : Post :=
        { p with
          image := sealed cap.hdr.owner r.bytes
          prio := h.prio
          after := h.after
          queued := true
          queuedAt := r.s.serial }
      (r.s.setPost q).tick

/-- After the posting core has drained at package scope, the child is checked, sealed and queued, R184, R215. -/
def execChildQueue (post : Nat) (s : State) : Host.Outcome State Fault Refusal :=
  match s.plaza.posts.find? fun p => p.id == post with
  | none => .next s
  | some p =>
    match s.capsule? p.inst with
    | none => .next s
    | some cap =>
      event (!p.queued && !cap.coreParked p.core && !(s.core p.core).evicting &&
          !s.fenced p.core p.slot p.slotSerial p.id .w [] && p.waits.all fun id => s.completeAt p.core 6 id)
        (fun s => s.queueChild cap p) s

/-! HANDOVER (R217, R357, R462) -/

/-- The writer-unique extent that an address names, seen by a member. -/
def Capsule.uniqueAt? (cap : Capsule) (member ca : Nat) : Option Extent :=
  match cap.extentAt? member ca with
  | some e => if e.u ∧ windowOf ca = .extent then some e else none
  | none => none

/-- A role holds the capability of an extent. -/
def Capsule.holds (cap : Capsule) (e : Extent) (role : Nat) : Bool :=
  cap.holders.any fun h => h.member == e.member && h.ext == e.index && h.role == some role

/-- Change the holder of an extent's capability. -/
def Capsule.mapHolderOf (cap : Capsule) (member ext : Nat) (f : Holder → Holder) : Capsule :=
  { cap with holders := cap.holders.map fun h => if h.member = member ∧ h.ext = ext then f h else h }

/-- The capability leaves its holder for the core bound to a role, R357. -/
def State.handOver (s : State) (cap : Capsule) (c : Nat) (e : Extent) (d : Nat) : State :=
  let kinds := fun (k : Kind) => k == .w || k == .a || k == .f || k == .cw || k == .mw
  let m : CapMove :=
    { id := s.serial, inst := cap.inst, member := e.member, ext := e.index, fromCore := c, toCore := d,
      waits := s.covered c kinds (some [(e.vbase, e.vbase + e.len)]) }
  { s.setCapsule (cap.mapHolderOf e.member e.index fun h => { h with role := none }) with
    serial := s.serial + 1
    capMoves := s.capMoves ++ [m] }

/-- HANDOVER that moves or is refused; `go` moves the capability of the extent. -/
def handoverBody (x : Cur) (s : State) (ca : Nat) (go : Extent → State) : State :=
  match x.cap.uniqueAt? x.t.member ca with
  | none => s.chainRefuse x.cap.inst x.c x.t.member x.pc x.insn 5 0xFF ca (x.k.slot x.n).fromFault
  | some e =>
    if x.cap.holds e x.k.role then go e
    else s.chainRefuse x.cap.inst x.c x.t.member x.pc x.insn 5 e.index ca (x.k.slot x.n).fromFault

/-- Move a writer capability to a role. -/
def execHandover (h : Head) (f : FmtT) : State → Host.Outcome State Fault Refusal :=
  issue h 8 fun x s =>
    let i := f.roleIndex x
    let core := x.cap.coreOf? f.rk.toNat i
    checked
      [readMarked x (f.a.toNat :: if f.rx = 1 then [f.b.toNat] else []),
       roleFault f.rk.toNat i core.isSome (f.roleGuard x)]
      (match core with
       | none => .next s
       | some d => .next (handoverBody x s (x.reg f.a).toNat fun e => s.handOver x.cap x.c e d))

/-- The image of a posted child: as queued, or as its template stands (DEDUCED, log 44). -/
def State.childImage (s : State) (cap : Capsule) (p : Post) : List Byte :=
  if p.queued then p.image else (s.templateRead cap p.core p.member p.addr).bytes

/-- The child's writer-unique extent that is attenuated from an extent. -/
def childExtent? (im : CapImage) (e : Extent) : Option Extent := im.exts.find? fun c => c.u && c.attenuated e

/-- The capability of an extent is to move to a child at completion, R217: until then the child holds none. -/
def State.promise (s : State) (cap : Capsule) (e : Extent) (p : Post) (c : Extent) : State :=
  let s1 := (s.setCapsule (cap.mapHolderOf e.member e.index fun h => { h with child := some p.id })).setPost
    { p with barred := c.index :: p.barred }
  match s1.capsules.find? fun k => k.post == some p.id with
  | some child => s1.setCapsule (child.mapHolderOf c.member c.index fun h => { h with role := none })
  | none => s1

/-- Move a writer capability to the latest child posted from a template, at completion. -/
def execHandoverC (h : Head) (f : FmtT) : State → Host.Outcome State Fault Refusal :=
  issue h 8 fun x s =>
    let b := (x.reg f.b).toNat
    checked [readMarked x [f.a.toNat, f.b.toNat]]
      (.next (handoverBody x s (x.reg f.a).toNat fun e =>
        let refuse := s.chainRefuse x.cap.inst x.c x.t.member x.pc x.insn 6 b b (x.k.slot x.n).fromFault
        match (s.plaza.posts.filter fun p => p.inst == x.cap.inst && p.addr == b).getLast? with
        | none => refuse
        | some p => match childExtent? (imageOf (s.childImage x.cap p)) e with
          | none => refuse
          | some c => s.promise x.cap e p c))

/-- A writer capability arrives at its new core once the old core's writes are complete; the new core acquires (R357). -/
def State.arriveCap (s : State) (cap : Capsule) (m : CapMove) : State :=
  let s1 := s.setCapsule (cap.mapHolderOf m.member m.ext fun h => { h with role := some (s.core m.toCore).role })
  let s2 := { s1 with capMoves := s1.capMoves.filter fun o => o.id != m.id }
  (s2.acquire m.toCore (scopeOf m.fromCore m.toCore)).pump m.toCore

/-- The arrival of a writer capability. -/
def execCapabilityArrive (move : Nat) (s : State) : Host.Outcome State Fault Refusal :=
  match s.capMoves.find? fun m => m.id == move with
  | none => .next s
  | some m =>
    match s.capsule? m.inst with
    | none => .next s
    | some cap =>
      event (!cap.coreParked m.fromCore && !cap.coreParked m.toCore && !(s.core m.toCore).evicting &&
          m.waits.all fun id => s.completeAt m.fromCore (scopeOf m.fromCore m.toCore) id)
        (fun s => s.arriveCap cap m) s

end Sys2Proof.Machine
end

