-- ==== Sys2Proof/Machine/VecOps.lean ====
section
/-! DEFINITION. The vector unit: element types, groups, lanes and masked writes (R288-R291), the checks of a vector
instruction (R416, R423) and the operations on elements (R297-R299, R301-R311). -/

namespace Sys2Proof.Machine

/-! Element types -/

/-- The format of a type code, a .x type under a descriptor register (R25, R236). -/
def typeFmt (fmts : List Nat) (code : Nat) : NFmt :=
  match code with
  | 0 => .flt binary32
  | 1 => .flt binary16
  | 2 => .flt bfloat16
  | 3 => .int 32 true
  | 4 => .int 16 true
  | 5 => .int 8 true
  | 6 => .int 32 false
  | 7 => .int 16 false
  | 8 => .int 8 false
  | _ => fdFormat (fmts.getD (code - 9) 0)

/-- The format registers of a core. -/
def Core.fmts (k : Core) : List Nat := k.fmt.toList.map (·.toNat)

/-- A type whose elements are floating. -/
def isFloat (code : Nat) : Bool := decide (code ≤ 2)

/-- The code tables of a core. -/
def Core.tableOf (k : Core) (ct : Nat) : BitVec 256 := k.tables[ct % 4]'(Nat.mod_lt _ (by decide))

/-- The value of an element under a format and the core's code tables. -/
def Core.value (k : Core) (f : NFmt) (c : Nat) : Num := f.value k.tableOf c

/-! Groups, lanes and masked writes -/

/-- A vector operand: its first register and its width code. -/
abbrev VOpd := Nat × Nat

/-- The granules of an operand. -/
def Core.vGrans (k : Core) (o : VOpd) : List Nat := granulesOf (k.vOff o.1) (64 * 2 ^ o.2)

/-- The bytes of an operand. -/
def Core.vBytes (k : Core) (o : VOpd) : List Byte := k.spaceBytes (k.vOff o.1) (64 * 2 ^ o.2)

/-- The containers of an operand, `cb` bits each (R288). -/
def Core.elems (k : Core) (o : VOpd) (cb : Nat) : List Nat :=
  let bytes := k.vBytes o
  if cb = 4 then bytes.flatMap (fun b => [b.toNat % 16, b.toNat / 16])
  else (List.range (512 * 2 ^ o.2 / cb)).map fun i =>
    ((bytes.drop (i * (cb / 8))).take (cb / 8)).foldr (fun b n => b.toNat + 256 * n) 0

/-- The guard bit of an operand, R117. -/
def Core.vGuard (k : Core) (o : VOpd) : Bool := k.granGuard (k.vGrans o)

/-- The element count of an operand, R288. -/
def elemCount (w cb : Nat) : Nat := 512 * 2 ^ w / cb

/-- Element `i` of `cb` bits is active under a mask: its lowest byte's lane, R289. -/
def laneActive (mask : BitVec 16) (cb i : Nat) : Bool := mask.getLsbD (i * cb / 8 % 64 / 4)

/-- The bytes of a masked write of elements: inactive containers keep their old value (R28, R289). -/
def maskedBytes (cb : Nat) (old new : List Nat) (act : Nat → Bool) : List (Option Byte) :=
  if cb = 4 then
    (List.range (old.length / 2)).map fun i =>
      let pick := fun (j : Nat) => (if act j then new.getD j 0 else old.getD j 0) % 16
      if act (2 * i) || act (2 * i + 1) then some (BitVec.ofNat 8 (pick (2 * i) + 16 * pick (2 * i + 1))) else none
  else
    (List.range old.length).flatMap fun i =>
      if act i then (leBytes (cb / 8) (new.getD i 0)).map some else List.replicate (cb / 8) none

/-- Of some byte of register `j` one 4-bit container is written and the other is not (R28) (DEDUCED, log 75). -/
def halfWritten (cb n : Nat) (act : Nat → Bool) (j : Nat) : Bool :=
  cb == 4 && (List.range 64).any fun i => decide (128 * j + 2 * i + 1 < n) && act (128 * j + 2 * i) != act (128 * j + 2 * i + 1)

/-- Write the given bytes of a group of registers, granule by granule (R117); `half` names the registers of which some byte is
written in part. -/
def Core.writeVec (k : Core) (o : VOpd) (bytes : List (Option Byte)) (guard : Bool) (half : Nat → Bool := fun _ => false) : Core :=
  (List.range (2 ^ o.2)).foldl (fun k j =>
    k.writeMasked (k.vOff o.1 / 64 + j) ((bytes.drop (64 * j)).take 64) guard (half j)) k

/-! Checks -/

/-- 4/2: a register past the COUNT of the view (R115). -/
def vecExists (k : Core) (o : VOpd) : Option FaultInfo := failIf (viewCount k.vwv < o.1 + 2 ^ o.2) 4 2 o.1

/-- 4/3: width codes that differ (R288); the first operand stands in the fields of D and the second in those of A (R416). -/
def widthsDiffer (l : List VOpd) : Option FaultInfo :=
  match l with
  | d :: a :: r => failIf ((a :: r).any fun o => o.2 != d.2) 4 3 (d.2 + 4 * a.2)
  | _ => none

/-- 4/7, 4/8: the element type, and RM and SAT: `ints` says that the type takes no rounding mode (R291). -/
def typeFault (ok : Bool) (code : Nat) : Option FaultInfo := failIf (!ok) 4 7 code
def roundFault (rm : BitVec 3) (sat : BitVec 1) (noRm noSat : Bool) : Option FaultInfo :=
  failIf (4 < rm.toNat || (noRm && rm != 0) || (noSat && sat != 0)) 4 8 (rm.toNat + 8 * sat.toNat)

/-- The operand checks of a vector instruction up to DETAIL 5: alignment, view, widths, marks (R415, R416); `three` is a check
of DETAIL 3 that the instruction's page adds. -/
def vecOperands (x : Cur) (ops reads writes : List VOpd) (equal : Bool) (rregs wregs : List Nat) (three : Option FaultInfo := none) :
    List (Option FaultInfo) :=
  ops.map (fun o => misaligned o.1 o.2) ++ ops.map (vecExists x.k) ++ [three, if equal then widthsDiffer ops else none] ++
    [readMarked x rregs, granMarked x 4 (reads.flatMap x.k.vGrans), writeMarked x wregs,
     granMarked x 5 (writes.flatMap x.k.vGrans)]

/-- A granule that an earlier qm entry has still to read may not be written yet (R240). -/
def mqBlocked (x : Cur) (gs : List Nat) : Option BlockWhy :=
  match gs.find? fun g => x.k.qm.any fun e => (e.reads x.k).contains g with
  | some g => some (.mqReads g 1)
  | none => none

/-- A vector instruction first waits for granules of other slots (R83) and for qm reads (R240), then is checked, then
takes effect. -/
def vecIssue (x : Cur) (s : State) (reads writes : List VOpd) (checks : List (Option FaultInfo)) (v : Verdict) : Verdict :=
  match granBlocked x ((reads ++ writes).flatMap x.k.vGrans) with
  | some why => .block why
  | none =>
    match mqBlocked x (writes.flatMap x.k.vGrans) with
    | some why => .block why
    | none => checked checks (s.readingSpace x (reads.flatMap x.k.vGrans) v)

/-! Operations on elements -/

/-- The integer value of a container. -/
def intOf (w : Nat) (signed : Bool) (c : Nat) : Int := if signed then toSigned w c else (c % 2 ^ w : Nat)

/-- An exact integer wrapped, or clamped under SAT (R291). -/
def intResult (w : Nat) (signed sat : Bool) (v : Int) : Nat :=
  wrapInt w (if sat then clampInt (intMin w signed) (intMax w signed) v else v)

/-- The element-wise operations of R297. -/
inductive Ew where
  | add | sub | mul | fma | fms | fnma | min | max | abs | neg
  deriving DecidableEq, Repr

/-- One value is below another, -0 below +0 (R297). -/
def Num.below (a b : Num) : Bool :=
  match a, b with
  | .fin p _, .fin q _ => decide (p < q) || (decide (p = q) && decide (p = 0) && a.neg && !b.neg)
  | _, _ => Num.le a b && !Num.le b a

/-- The lesser and the greater of two values; a NaN operand gives NaN. -/
def Num.pick (lesser : Bool) (a b : Num) : Num :=
  match a, b with
  | .nan, _ => .nan
  | _, .nan => .nan
  | _, _ => if lesser then (if Num.below b a then b else a) else if Num.below a b then b else a

/-- The magnitude. -/
def Num.abs (a : Num) : Num := if a.neg then a.negate else a

/-- The exact result of R297 on values. -/
def Ew.exact (op : Ew) (rm : Nat) (a b d : Num) : Num :=
  match op with
  | .add => Num.add rm a b
  | .sub => Num.add rm a b.negate
  | .mul => Num.mul a b
  | .fma => Num.add rm (Num.mul a b) d
  | .fms => Num.add rm (Num.mul a b) d.negate
  | .fnma => Num.add rm d (Num.mul a b).negate
  | .min => Num.pick true a b
  | .max => Num.pick false a b
  | .abs => a.abs
  | .neg => a.negate

/-- The exact result of R297 on integers. -/
def Ew.int (op : Ew) (a b d : Int) : Int :=
  match op with
  | .add => a + b
  | .sub => a - b
  | .mul => a * b
  | .fma => a * b + d
  | .fms => a * b - d
  | .fnma => d - a * b
  | .min => Min.min a b
  | .max => Max.max a b
  | .abs => a.natAbs
  | .neg => -a

/-- The result of R297 on containers of a type. -/
def Ew.apply (op : Ew) (f : NFmt) (rm : Nat) (sat : Bool) (a b d : Nat) : Nat :=
  match f with
  | .flt sp => sp.round rm sat (op.exact rm (sp.value a) (sp.value b) (sp.value d))
  | .int w s => intResult w s sat (op.int (intOf w s a) (intOf w s b) (intOf w s d))
  | _ => 0

/-- The operation reads the destination. -/
def Ew.fused : Ew → Bool
  | .fma | .fms | .fnma => true
  | _ => false

/-- Logic and shifts on containers, R298. -/
inductive Lg where
  | and | or | xor | shl | shr | sar
  deriving DecidableEq, Repr

/-- The result of R298 on containers of `w` bits. -/
def Lg.apply (op : Lg) (w a b : Nat) : Nat :=
  match op with
  | .and => a &&& b
  | .or => a ||| b
  | .xor => a ^^^ b
  | .shl => if w ≤ b then 0 else a * 2 ^ b % 2 ^ w
  | .shr => if w ≤ b then 0 else a / 2 ^ b
  | .sar =>
    if w ≤ b then (if 2 ^ (w - 1) ≤ a then 2 ^ w - 1 else 0) else wrapInt w (toSigned w a / (2 ^ b : Int))

/-- The comparison of R299 on containers of a type. -/
def compareElems (c : Nat) (f : NFmt) (a b : Nat) : Bool :=
  let lt := match f with
    | .flt sp => Num.le (sp.value a) (sp.value b) && !Num.le (sp.value b) (sp.value a)
    | .int w s => decide (intOf w s a < intOf w s b)
    | _ => false
  let gt := match f with
    | .flt sp => Num.le (sp.value b) (sp.value a) && !Num.le (sp.value a) (sp.value b)
    | .int w s => decide (intOf w s b < intOf w s a)
    | _ => false
  let eq := match f with
    | .flt sp => Num.le (sp.value a) (sp.value b) && Num.le (sp.value b) (sp.value a)
    | .int w s => decide (intOf w s a = intOf w s b)
    | _ => false
  match c with
  | 0 => eq
  | 1 => !eq
  | 2 => lt
  | 3 => lt || eq
  | 4 => gt
  | _ => gt || eq

/-- op of VRED and VSCAN: 0 add, 1 min, 2 max, 3 and, 4 or, 5 xor (R306). -/
def foldElems (op : Nat) (f : NFmt) (w rm : Nat) (sat : Bool) (a b : Nat) : Nat :=
  match op with
  | 0 => Ew.apply .add f rm sat a b 0
  | 1 => Ew.apply .min f rm sat a b 0
  | 2 => Ew.apply .max f rm sat a b 0
  | 3 => Lg.apply .and w a b
  | 4 => Lg.apply .or w a b
  | _ => Lg.apply .xor w a b

/-- The identity of R306, as a container. -/
def identityOf (op : Nat) (f : NFmt) : Nat :=
  match f, op with
  | .flt sp, 0 => sp.withSign true 0
  | .flt sp, 1 => sp.big false
  | .flt sp, _ => sp.big true
  | .int w s, 1 => wrapInt w (intMax w s)
  | .int w s, 2 => wrapInt w (intMin w s)
  | .int w _, 3 => 2 ^ w - 1
  | _, _ => 0

/-- The fixed tree of R306. -/
def treeFold (g : Nat → Nat → Nat) : Nat → List Nat → Nat
  | 0, l => l.getD 0 0
  | n + 1, l =>
    if l.length ≤ 1 then l.getD 0 0
    else treeFold g n ((List.range (l.length / 2)).map fun i => g (l.getD (2 * i) 0) (l.getD (2 * i + 1) 0))

/-- A NaN of a floating type as it is written, R39: the canonical NaN; every other code, and an integer, is unchanged. -/
def canonical (f : NFmt) (c : Nat) : Nat :=
  match f with
  | .flt sp => if sp.value c == .nan then sp.nan else c
  | _ => c

/-- The inclusive scan of R307 in steps d, 2d, …. -/
def scanSteps (g : Nat → Nat → Nat) : Nat → Nat → List Nat → List Nat
  | 0, _, l => l
  | n + 1, d, l =>
    if l.length ≤ d then l
    else scanSteps g n (2 * d) ((List.range l.length).map fun i => if i < d then l.getD i 0 else g (l.getD (i - d) 0) (l.getD i 0))

/-- The result of VRED on the elements, R306: a fixed tree for floating types, exact for integer types. -/
def reduceElems (op : Nat) (f : NFmt) (rm : Nat) (sat : Bool) (l : List Nat) : Word :=
  match f with
  | .flt sp => BitVec.ofNat 64 (treeFold (foldElems op (.flt sp) 0 rm sat) 16 l)
  | .int w s =>
    let exact : Int := match op with
      | 0 => (l.map (intOf w s)).sum
      | 1 => (l.map (intOf w s)).foldl min (intMax w s)
      | 2 => (l.map (intOf w s)).foldl max (intMin w s)
      | 3 => intOf w s (l.foldl (· &&& ·) (2 ^ w - 1))
      | 4 => intOf w s (l.foldl (· ||| ·) 0)
      | _ => intOf w s (l.foldl (· ^^^ ·) 0)
    BitVec.ofInt 64 (if sat then clampInt (intMin w s) (intMax w s) exact else exact)
  | _ => 0

/-! Block scales (R40, R302-R305) -/

/-- The quotient of a value by a scale, exact. -/
def Num.divScale (a s : Num) : Num :=
  match s with
  | .fin q _ => Num.mul a (.fin (1 / q) false)
  | _ => .nan

/-- MaxFinite of a narrow format, R304. -/
def maxFinite (f : NFmt) : Rat :=
  match f with
  | .flt sp => match sp.value sp.maxMag with
    | .fin q _ => q
    | _ => 0
  | .fixed w fr s => ((intMax w s : Int) : Rat) * twoPow (-fr)
  | .int w s => ((intMax w s : Int) : Rat)
  | .code _ => 0

/-- The least S16 value at or above a positive quotient, with a zero fraction under .p2, clamped (R304). -/
def leastScale (p2 : Bool) (m : Rat) : Nat :=
  let e := log2Floor m
  let y := m * twoPow (-e)
  let f : Int := if p2 then (if y = 1 then 0 else 256) else ((y - 1) * 256).ceil
  let e' : Int := (if f = 256 then e + 1 else e) + 127
  if e' < 0 then 0 else if 254 < e' then 0xFEFF else e'.toNat * 256 + (if f = 256 then 0 else f.toNat)

/-- The scale of a block of a format whose MaxFinite is 0, where amax / MaxFinite has no value: a free value within the clamp, with f = 0
under .p2 (R304; DESIGN CHOICE, log 115). -/
def openScale (p2 : Bool) (amax : Rat) : Nat :=
  let v := min (Config.openScale amax.num.natAbs amax.den).toNat 0xFEFF
  if p2 then v / 256 * 256 else v

/-- The scale of a block, R304: `l` holds the values of its active elements. -/
def blockScale (p2 : Bool) (tq : NFmt) (l : List Num) : Nat :=
  if l.any fun v => v == .nan then 0xFF00
  else
    let amax := l.foldl (fun (m : Rat) v => match v with
      | .fin q _ => if m < absRat q then absRat q else m
      | _ => m) 0
    if amax = 0 then 0x7F00
    else if maxFinite tq = 0 then openScale p2 amax
    else leastScale p2 (amax / maxFinite tq)

end Sys2Proof.Machine
end

