-- ==== Sys2Proof/Machine/Matrix.lean ====
section
/-! DEFINITION. Matrix and tensor instructions: their issue into qm (R312-R334, R424), the arithmetic of tiles (R48-R50), and
the events of the matrix queue (R240, R325-R329, R434, R457, R480). -/

namespace Sys2Proof.Machine

open Sys2Proof

/-! Checks at issue (R315, R424) -/

/-- A granule pending for another slot by a writer outside qm: the instruction does not issue (R83, R240). -/
def mqWait (x : Cur) (gs : List Nat) : Option BlockWhy :=
  match gs.find? fun g => match x.k.pendOf? g with
      | some p => p.slot != x.n && !x.k.qm.any fun e => e.id == p.by_
      | none => false with
  | some g => some (.granules g 1)
  | none => none

/-- A granule marked by the task's own slot, not by an MQ entry: the fault of the given detail (R415). -/
def mqMarked (x : Cur) (detail : Nat) (gs : List Nat) : Option FaultInfo :=
  match gs.find? fun g => match x.k.markOf? g with
      | some m => m.slot == x.n && !m.mq
      | none => false with
  | some g => some ⟨4, detail, 0x100 + g, 0, false⟩
  | none => none

/-- The guard bit that granules will have once every pending writer has written (R315). -/
def Core.predGuard (k : Core) (gs : List Nat) : Bool :=
  gs.any fun g => match k.pendOf? g with
    | some p => p.guard
    | none => (k.granule g).guard

/-- The guard bit that a code table will have once every MCODE of qm is performed. -/
def Core.predTable (k : Core) (ct : Nat) : Bool :=
  match (k.qm.filter fun e => e.op == .mcode && bits e.f.fn.toNat 0 2 == ct).getLast? with
  | some e => e.guard
  | none => k.tableGuard.getLsbD ct

/-- The table that a format reads. -/
def tableOfFmt : NFmt → Option Nat
  | .code ct => some ct
  | _ => none

/-- The guard bits of the code tables that two formats read, by a lookup. -/
def tablesGuard (look : Nat → Bool) (fa fb : NFmt) : Bool :=
  ((tableOfFmt fa).map look).getD false || ((tableOfFmt fb).map look).getD false

/-- The memory checks of an MQ instruction: every byte lies in an extent with its rights (R315, R426). -/
def State.mqChecks (s : State) (cap : Capsule) (c member : Nat) (use : Use) (guard : Nat → Bool) (runs : List Run) :
    List FaultInfo :=
  (runs.flatMap unitsOf).filterMap fun u =>
    match windowOf u.1 with
    | .scratch | .args | .disc | .fault => if u.1 < 2 ^ 48 then some ⟨6, 4, 0, u.1, false⟩ else some ⟨6, 1, 0, u.1, false⟩
    | _ => match s.checkAccess cap c member u.1 1 use false (guard (u.1 / 64)) with
      | .error f => if f.cls = 9 then none else some f
      | .ok _ => none

/-- 4/1: an odd register of a pair. -/
def oddPair (r : Nat) : Option FaultInfo := failIf (r % 2 = 1) 4 1 r

/-- 4/2: tiles, accumulators and vectors past the COUNT of their views (R115). -/
def tileExists (k : Core) (n : BitVec 5) (wide : Bool) : Option FaultInfo :=
  failIf (viewCount k.vwm < n.toNat + if wide then 2 else 1) 4 2 n.toNat
def accExists (k : Core) (n : Nat) : Option FaultInfo := failIf (viewCount k.vwa < n + 1) 4 2 n
def vectorExists (k : Core) (n : BitVec 7) (count : Nat) : Option FaultInfo :=
  failIf (viewCount k.vwv < n.toNat + count) 4 2 n.toNat

/-- 4/8: RM above 4. -/
def roundModeFault (f : FmtX) (zero : Bool) : Option FaultInfo :=
  failIf (4 < f.rm.toNat ∨ (zero ∧ f.rm ≠ 0)) 4 8 (f.rm.toNat + 8 * f.sat.toNat)

/-- 4/7: TA and TB codes (R318) (DEDUCED, log 52). -/
def typeCodeFault (t : BitVec 4) : Option FaultInfo :=
  failIf (!([1, 2, 5, 8, 9, 10, 11, 12].contains t.toNat)) 4 7 t.toNat

/-- A descriptor that an operand may have (R318). -/
def fdOperand (fd : Nat) : Bool := fdValid fd && decide (fdKind fd ≤ 6 ∧ fdKind fd ≠ 5)

/-- 4/9: a captured descriptor that is invalid or of a KIND not accepted. -/
def tileFdFault (k : Core) (t : BitVec 4) : Option FaultInfo :=
  let fd := k.fmts.getD (t.toNat - 9) 0
  heldBy (k.fmtGuard.getLsbD (t.toNat - 9)) (failIf (9 ≤ t.toNat ∧ t.toNat ≤ 12 ∧ fdOperand fd = false) 4 9 fd)

/-- 4/7: a 16-bit operand with an operand of another class (R318). A captured format that is not accepted has no class. -/
def classFault (k : Core) (ta tb : BitVec 4) : Option FaultInfo :=
  let a := typeBits k.fmts ta.toNat
  let b := typeBits k.fmts tb.toNat
  if (tileFdFault k ta).isSome ∨ (tileFdFault k tb).isSome then none
  else if a = 16 ∧ b ≠ 16 then some ⟨4, 7, ta.toNat, 0, false⟩
  else if b = 16 ∧ a ≠ 16 then some ⟨4, 7, tb.toNat, 0, false⟩ else none

/-- The guard bit of the register of a pair that holds coordinate `d` (R321). -/
def Cur.pairGuard (x : Cur) (g : BitVec 4) (d : Nat) : Bool := x.t.regGuard ((g.toNat + if d < 2 then 0 else 1) % 16)

/-- 4/11: coordinates outside a tensor, or c0 not a multiple (R321, R322); `guard d` is that of coordinate `d`. -/
def coordFault (t : BitVec 1024) (c : List Nat) (multiple : Nat) (guard : Nat → Bool) : Option FaultInfo :=
  match (List.range 7).find? fun d => decide (tSize t d ≤ c.getD d 0) with
  | some d => some ⟨4, 11, c.getD d 0, 0, guard d⟩
  | none => heldBy (guard 0) (failIf (c.getD 0 0 % multiple ≠ 0) 4 11 (c.getD 0 0))

/-- 4/10: an undefined tensor, or one whose format the instruction does not accept. -/
def tensorFault (t : BitVec 1024) (id : BitVec 8) (ok : Bool) : Option FaultInfo := failIf (!(tDefined t && ok)) 4 10 id.toNat

/-- An entry of the executing instruction, with what R314 captures. -/
def Cur.entry (x : Cur) (s : State) (op : QmOp) (f : FmtX) : QmEntry :=
  { id := s.serial, op := op, f := f, slot := x.n, slotSerial := (x.k.slot x.n).serial, member := x.t.member, pc := x.pc,
    insn := x.insn, fmts := x.k.fmts, t1 := SMap.get 0 x.k.tensors f.tn.toNat, t2 := SMap.get 0 x.k.tensors f.tn2.toNat,
    t3 := SMap.get 0 x.k.tensors f.tn3.toNat,
    g := (List.range 4).map fun i => (x.t.reg ((f.g.toNat + i) % 16)).toNat, gGuard := x.guard f.g, src := 0, role := 0, begun := false, sentAt := 0,
    limit := 0, step := 0, guard := false, seen := false, waitPage := none,
    handler := (x.k.slot x.n).fromFault }

/-- An entry enters qm; the granules it will write are pending (R314). -/
def State.enqueue (s : State) (x : Cur) (e : QmEntry) : State :=
  let k := s.core x.c
  let k' := k.pendGranules (e.writes k) x.n e.id e.guard true
  { s.setCore x.c { k' with qm := k'.qm ++ [e] } with serial := s.serial + 1 }

/-- The issue of an MQ instruction: it waits for writers outside qm, is checked completely, and enters qm (R315) (DESIGN CHOICE, log 22). -/
def mqIssue (x : Cur) (s : State) (e : QmEntry) (shape : List (Option FaultInfo)) (regs : List Nat)
    (rest : List (Option FaultInfo)) (mem : List FaultInfo) : Verdict :=
  match mqWait x (e.reads x.k ++ e.writes x.k) with
  | some why => .block why
  | none =>
    checked (shape ++ [readMarked x regs, mqMarked x 4 (e.reads x.k), mqMarked x 5 (e.writes x.k)] ++ rest ++
      [firstByClass mem]) (.next (s.enqueue x e))

/-- Zero an accumulator tile, R320. -/
def execMzero (h : Head) (f : FmtX) : State → Host.Outcome State Fault Refusal :=
  issue h 12 fun x s => mqIssue x s (x.entry s .mzero f) [accExists x.k f.ad.toNat] [] [] []

/-- MLD and MLD.sc, R321. -/
def matrixLoad (h : Head) (f : FmtX) (op : QmOp) : State → Host.Outcome State Fault Refusal :=
  issue h 12 fun x s =>
    let e := x.entry s op f
    let c := pairCoords (e.g.getD 0 0) (e.g.getD 1 0)
    let sc := op == .mldSc
    mqIssue x s { e with guard := s.runsGuarded x.cap e.member e.mrRuns }
      [oddPair f.g.toNat, if sc then vectorExists x.k f.vsa 1 else tileExists x.k f.ma false] (groupOf f.g.toNat 1)
      [failIf (f.gw ≠ 1) 4 6 f.gw.toNat, tensorFault e.t1 f.tn (fdKind (tFd e.t1) != 5 && (!sc || tScaled e.t1)),
       coordFault e.t1 c (tileElems e.t1) (x.pairGuard f.g)]
      (s.mqChecks x.cap x.c e.member .load (fun _ => false) e.mrRuns)

/-- Load of a tile. -/
def execMld (h : Head) (f : FmtX) : State → Host.Outcome State Fault Refusal := matrixLoad h f .mld

/-- Load of the block scales of a tile. -/
def execMldSc (h : Head) (f : FmtX) : State → Host.Outcome State Fault Refusal := matrixLoad h f .mldSc

/-- The guard bit of a 64-byte unit of a store of accumulator rows: `row i` is that of row `i`, at the runs given (R316). -/
def rowsUnitGuard (runs : List Run) (row : Nat → Bool) (unit : Nat) : Bool :=
  (runs.zipIdx).any fun r => runsMeet r.1 (64 * unit, 64) && row r.2

/-- The granule of row `i` of an accumulator. -/
def Core.accGranule (k : Core) (n i : Nat) : Nat := k.aOff n / 64 + i

/-- Store of an accumulator tile, R322. -/
def execMst (h : Head) (f : FmtX) : State → Host.Outcome State Fault Refusal :=
  issue h 12 fun x s =>
    let e := x.entry s .mst f
    let c := pairCoords (e.g.getD 0 0) (e.g.getD 1 0)
    let kind := fdKind (tFd e.t1)
    let raw := f.fn.getLsbD 0
    mqIssue x s e [oddPair f.g.toNat, accExists x.k f.ad.toNat] (groupOf f.g.toNat 1)
      [failIf (f.gw ≠ 1) 4 6 f.gw.toNat, failIf (f.fn = 3) 4 6 3, roundModeFault f false,
       tensorFault e.t1 f.tn (!tScaled e.t1 && kind != 2 && (!raw || kind == 5)), coordFault e.t1 c 16 (x.pairGuard f.g)]
      (s.mqChecks x.cap x.c e.member .store
        (rowsUnitGuard e.mwRuns fun i => x.k.predGuard [x.k.accGranule f.ad.toNat i]) e.mwRuns)

/-- The checks of a multiply up to DETAIL 2, and from DETAIL 6 on (R323, R424). -/
def multiplyShape (x : Cur) (f : FmtX) (e : QmEntry) (scaled : Bool) : List (Option FaultInfo) :=
  [if e.wideA then oddPair f.ma.toNat else none, if e.wideB then oddPair f.mb.toNat else none, accExists x.k f.ad.toNat,
   tileExists x.k f.ma e.wideA, tileExists x.k f.mb e.wideB] ++
    if scaled then [vectorExists x.k f.vsa 1, vectorExists x.k f.vsb 1] else []
def multiplyTypes (x : Cur) (f : FmtX) : List (Option FaultInfo) :=
  [typeCodeFault f.ta, typeCodeFault f.tb, classFault x.k f.ta f.tb, tileFdFault x.k f.ta, tileFdFault x.k f.tb]

/-- The guard bit of a multiply's result, as known at issue. -/
def multiplyGuard (x : Cur) (e : QmEntry) : Bool :=
  x.k.predGuard (e.reads x.k) ||
    tablesGuard x.k.predTable (typeFmt e.fmts e.f.ta.toNat) (typeFmt e.fmts e.f.tb.toNat)

/-- MMA and MMAS, R323. -/
def execMma (h : Head) (f : FmtX) : State → Host.Outcome State Fault Refusal :=
  issue h 12 fun x s =>
    let e := x.entry s .mma f
    mqIssue x s { e with guard := multiplyGuard x e } (multiplyShape x f e false) [] (multiplyTypes x f) []
def execMmas (h : Head) (f : FmtX) : State → Host.Outcome State Fault Refusal :=
  issue h 12 fun x s =>
    let e := x.entry s .mmas f
    mqIssue x s { e with guard := multiplyGuard x e } (multiplyShape x f e true) [] (multiplyTypes x f) []

/-- Multiply with a fetched B operand, R325. -/
def execMmar (h : Head) (f : FmtX) : State → Host.Outcome State Fault Refusal :=
  issue h 12 fun x s =>
    let e := x.entry s .mmar f
    let i := bits (e.g.getD 0 0) 0 15
    let group := bits (e.g.getD 0 0) 16 8
    let o := bits (e.g.getD 1 0) 0 17
    let core := x.cap.coreOf? group i
    let near := match core with
      | some c => clusterOf c == clusterOf x.c || clusterOf c == pairOf (clusterOf x.c)
      | none => false
    let src := core.getD 0
    let size := if e.wideB then 1024 else 512
    let line := (granulesOf (scratchAddr s.pkgId src o) size).any fun l => s.lineGuard x.cap.bearer (64 * l)
    mqIssue x s { e with src := src, role := x.cap.roleOfCore src, guard := multiplyGuard x e || line }
      (oddPair f.g.toNat :: multiplyShape x f e (f.fn.getLsbD 0)) (groupOf f.g.toNat 1)
      (failIf (f.gw ≠ 1) 4 6 f.gw.toNat :: multiplyTypes x f ++
        [heldBy (x.t.regGuard (f.g.toNat + 1)) (failIf (o % 64 ≠ 0 ∨ x.cap.hdr.scratch < o + size) 4 11 o),
         roleFault group i near (x.guard f.g)]) []

/-- MMAT multiplies as R50 gives: both operands integer and neither tensor scaled. -/
def QmEntry.matInt (e : QmEntry) : Bool :=
  (fdFormat (tFd e.t2)).isInt && (fdFormat (tFd e.t3)).isInt && !tScaled e.t2 && !tScaled e.t3

/-- The sizes, coordinates and bounds of R327. K has no lower bound there; a K of 0 fails as not a multiple above 0 (DESIGN CHOICE,
log 111). -/
def blockFault (e : QmEntry) (guard : Nat → Bool) : List (Option FaultInfo) :=
  let (i0, j0, k0, m, n, k) := e.blockOf
  let kt := e.matK
  let size := fun (v : Nat) => heldBy (guard 3) (failIf (v % 16 ≠ 0 ∨ v < 16 ∨ 512 < v) 4 11 v)
  let inside := fun (t : BitVec 1024) (d r top : Nat) => heldBy (guard r || guard 3) (failIf (tSize t d < top) 4 11 top)
  [size m, size n, heldBy (guard 3) (failIf (k % kt ≠ 0 ∨ k < kt ∨ 8192 < k) 4 11 k),
   heldBy (guard 2) (failIf (k0 % kt ≠ 0) 4 11 k0),
   inside e.t2 0 2 (k0 + k), inside e.t2 1 0 (i0 + m), inside e.t3 0 2 (k0 + k), inside e.t3 1 1 (j0 + n),
   inside e.t1 0 1 (j0 + n), inside e.t1 1 0 (i0 + m)]

/-- Tiled macro multiply over tensors, R327-R329 (DEDUCED, log 53). -/
def execMmat (h : Head) (f : FmtX) : State → Host.Outcome State Fault Refusal :=
  issue h 12 fun x s =>
    let e := x.entry s .mmat f
    let scaled := tScaled e.t2 || tScaled e.t3
    let fa := fdFormat (tFd e.t2)
    let fb := fdFormat (tFd e.t3)
    let guard := s.runsGuarded x.cap e.member e.mrRuns || tablesGuard x.k.predTable fa fb
    let odd := fun (t u : BitVec 1024) => tDefined u && decide (tBits t = 16 ∧ tBits u ≠ 16 ∧ fdKind (tFd u) ≠ 5)
    let v := mqIssue x s { e with guard := guard }
      ([failIf (f.g.toNat % 4 ≠ 0) 4 1 f.g.toNat, if e.matWideA then oddPair f.ma.toNat else none,
        if e.matWideB then oddPair f.mb.toNat else none, accExists x.k f.ad.toNat, tileExists x.k f.ma e.matWideA,
        tileExists x.k f.mb e.matWideB] ++
        if scaled then [vectorExists x.k f.vsa 1, vectorExists x.k f.vsb 1] else [])
      ((List.range 4).map fun i => (f.g.toNat + i) % 16)
      ([failIf (f.gw ≠ 2) 4 6 f.gw.toNat, roundModeFault f false,
        tensorFault e.t1 f.tn (!tScaled e.t1 && fdKind (tFd e.t1) != 2),
        tensorFault e.t2 f.tn2 (fdKind (tFd e.t2) != 5 && !odd e.t2 e.t3),
        tensorFault e.t3 f.tn3 (fdKind (tFd e.t3) != 5 && !odd e.t3 e.t2)] ++ blockFault e fun i => x.t.regGuard ((f.g.toNat + i) % 16))
      (s.mqChecks x.cap x.c e.member .load (fun _ => false) e.mrRuns ++
        s.mqChecks x.cap x.c e.member .store (fun _ => guard) e.mwRuns)
    match (x.k.slot x.n).mmat with
    | some m => if s.entryLive m then .block (.mmat m) else
      match v with
      | .next s' => .next (s'.setSlot x.c x.n { s'.slot x.c x.n with mmat := some e.id, task := x.t.setStep 0 })
      | v => v
    | none => match v with
      | .next s' => .next (s'.setSlot x.c x.n { s'.slot x.c x.n with mmat := some e.id, task := x.t.setStep 0 })
      | v => v

/-- Add one accumulator into another, R330. -/
def execMacc (h : Head) (f : FmtX) : State → Host.Outcome State Fault Refusal :=
  issue h 12 fun x s =>
    let e := x.entry s .macc f
    mqIssue x s { e with guard := x.k.predGuard (e.reads x.k) } [accExists x.k f.ad.toNat, accExists x.k (f.ma.toNat % 16)] []
      [failIf (f.ta ≠ 0 ∧ f.ta ≠ 3) 4 7 f.ta.toNat, roundModeFault f (f.ta == 3)] []

/-- Transpose a tile of 16-bit containers, R331. -/
def execMtrn (h : Head) (f : FmtX) : State → Host.Outcome State Fault Refusal :=
  issue h 12 fun x s =>
    let e := x.entry s .mtrn f
    mqIssue x s { e with guard := x.k.predGuard (e.reads x.k) } [tileExists x.k f.mb false, tileExists x.k f.ma false] []
      [failIf (!([1, 2, 4, 7].contains f.ta.toNat)) 4 7 f.ta.toNat] []

/-- Rewrite a code table in queue order, R332. -/
def execMcode (h : Head) (f : FmtX) : State → Host.Outcome State Fault Refusal :=
  issue h 12 fun x s =>
    let e := x.entry s .mcode f
    mqIssue x s { e with guard := x.k.predGuard (e.reads x.k) } [vectorExists x.k f.vsa 1] [] [] []

/-- Replace a tensor-table entry at issue, R333 (DEDUCED, log 54). -/
def execTdef (h : Head) (f : FmtX) : State → Host.Outcome State Fault Refusal :=
  issue h 12 fun x s =>
    let gs := granulesOf (x.k.vOff f.vsa.toNat) 128
    match gs.find? fun g => (x.k.pendOf? g).isSome with
    | some g => .block (.sources g 1)
    | none =>
      let t := tKept (BitVec.ofNat 1024 (leNat (x.k.spaceBytes (x.k.vOff f.vsa.toNat) 128)))
      checked [oddPair f.vsa.toNat, vectorExists x.k f.vsa 2, failIf (!(tDefined t || tNdim t == 0)) 4 10 f.tn.toNat]
        (s.readingSpace x gs (.next (s.setCore x.c { x.k with tensors := SMap.put x.k.tensors f.tn.toNat t })))

/-- Read a tensor-table entry into two vector registers, R334. -/
def execTqry (h : Head) (f : FmtX) : State → Host.Outcome State Fault Refusal :=
  issue h 12 fun x s => mqIssue x s (x.entry s .tqry f) [oddPair f.vsa.toNat, vectorExists x.k f.vsa 2] [] [] []

/-! The arithmetic of tiles (R28, R48-R50, R318, R319) -/

/-- Containers of a list of bytes. -/
def unpackCodes (cb : Nat) (l : List Byte) : List Nat :=
  match cb with
  | 4 => l.flatMap fun b => [b.toNat % 16, b.toNat / 16]
  | 8 => l.map (·.toNat)
  | _ => (List.range (8 * l.length / cb)).map fun i => leNat ((l.drop (i * (cb / 8))).take (cb / 8))

/-- Bytes of containers; `high` is the upper nibble of a last byte that an odd count of 4-bit containers half fills. -/
def packCodes (cb high : Nat) (l : List Nat) : List Byte :=
  match cb with
  | 4 => (List.range ((l.length + 1) / 2)).map fun i =>
      BitVec.ofNat 8 (l.getD (2 * i) 0 % 16 + 16 * (l.getD (2 * i + 1) high % 16))
  | _ => l.flatMap fun v => leBytes (cb / 8) v

/-- Row `r` of an operand tile, or of an aligned pair. -/
def tileCodes (l : List Byte) (cb : Nat) (wide : Bool) (r : Nat) : List Nat :=
  unpackCodes cb ((l.drop (32 * r)).take 32) ++ (if wide then unpackCodes cb ((l.drop (512 + 32 * r)).take 32) else [])

/-- The exact sum of the products of a block, R49. -/
def blockSum (a b : List Num) : Num :=
  let ps := List.zipWith Num.mul a b
  if ps.contains .nan then .nan
  else if ps.contains (.inf true) then (if ps.contains (.inf false) then .nan else .inf true)
  else if ps.contains (.inf false) then .inf false
  else .fin ((ps.map fun p => match p with
    | .fin q _ => q
    | _ => 0).sum) false

/-- t32 of a block, R48, R49. -/
def blockTerm (s sa sb : Num) : Nat :=
  if sa = .nan ∨ sb = .nan ∨ s = .nan then binary32.nan
  else match s with
    | .fin q _ => if q = 0 then 0 else binary32.round 0 false (Num.mul (Num.mul s sa) sb)
    | s => binary32.round 0 false s

/-- The operands of a multiply: offsets of the accumulator and the tiles, whether a tile is a pair, formats, container
widths, scale registers (none: scales of 1.0), and the integer path of R50. -/
structure Mul where
  ad : Nat
  ma : Nat
  mb : Nat
  wideA : Bool
  wideB : Bool
  fa : NFmt
  fb : NFmt
  ca : Nat
  cb : Nat
  sa : Option Nat
  sb : Option Nat
  int : Bool
  deriving DecidableEq, Repr

/-- Bytes of a tile or a pair. -/
def tileBytes (wide : Bool) : Nat := if wide then 1024 else 512

/-- The values of the rows of an operand. -/
def Core.tileValues (k : Core) (off : Nat) (f : NFmt) (cb : Nat) (wide : Bool) : List (List Num) :=
  let l := k.spaceBytes off (tileBytes wide)
  (List.range 16).map fun r => (tileCodes l cb wide r).map (k.value f)

/-- The scale of block `blk` of row `r` in a scale register (R319). -/
def Core.scaleAt (k : Core) (sreg : Option Nat) (r blk : Nat) : Num :=
  match sreg with
  | none => .fin 1 false
  | some o => s16Value (leNat (k.spaceBytes (o + 4 * r + 2 * blk) 2))

/-- One block added to an accumulator element, R48, R50. The spec does not give the sign of an exact zero sum of two zeros: it is -0
when both are -0, else +0, as `Num.add` gives it (DESIGN CHOICE, log 89). -/
def addBlock (int : Bool) (acc : Nat) (s sa sb : Num) : Nat :=
  if int then match s with
    | .fin q _ => wrapInt 32 ((acc : Int) + q.num)
    | _ => acc
  else binary32.round 0 false (Num.add 0 (binary32.value acc) (binary32.value (blockTerm s sa sb)))

/-- The accumulator after a multiply, R48: blocks in ascending k. -/
def Core.mulTile (k : Core) (m : Mul) : List Nat :=
  let kt := tileK m.ca m.cb
  let b := if m.ca = 16 then 16 else 32
  let ra := k.tileValues m.ma m.fa m.ca m.wideA
  let rb := k.tileValues m.mb m.fb m.cb m.wideB
  let acc := unpackCodes 32 (k.spaceBytes m.ad 1024)
  (List.range 256).map fun ij =>
    let i := ij / 16
    let j := ij % 16
    (List.range (kt / b)).foldl (fun a blk =>
      let s := blockSum (((ra.getD i []).drop (b * blk)).take b) (((rb.getD j []).drop (b * blk)).take b)
      addBlock m.int a s (k.scaleAt m.sa i blk) (k.scaleAt m.sb j blk)) (acc.getD ij 0)

/-- The granules that a multiply reads. -/
def Mul.granules (m : Mul) : List Nat :=
  granulesOf m.ad 1024 ++ granulesOf m.ma (tileBytes m.wideA) ++ granulesOf m.mb (tileBytes m.wideB) ++
    (match m.sa with
     | some o => granulesOf o 64
     | none => []) ++
    (match m.sb with
     | some o => granulesOf o 64
     | none => [])

/-- The guard bit of a multiply's result, R316. -/
def Core.mulGuard (k : Core) (m : Mul) : Bool :=
  k.granGuard m.granules || tablesGuard (fun ct => k.tableGuard.getLsbD ct) m.fa m.fb

/-- Perform a multiply; `extra` is the guard of memory lines it loaded. -/
def Core.multiply (k : Core) (m : Mul) (extra : Bool) : Core :=
  k.writeSpace m.ad (packCodes 32 0 (k.mulTile m)) (k.mulGuard m || extra)

/-- The multiply of an MMA, MMAS or MMAR entry (R323, R325). -/
def QmEntry.mul (k : Core) (e : QmEntry) (scaled : Bool) : Mul :=
  let fa := typeFmt e.fmts e.f.ta.toNat
  let fb := typeFmt e.fmts e.f.tb.toNat
  { ad := k.aOff e.f.ad.toNat, ma := k.mOff e.f.ma.toNat, mb := k.mOff e.f.mb.toNat, wideA := e.wideA, wideB := e.wideB,
    fa := fa, fb := fb, ca := typeBits e.fmts e.f.ta.toNat, cb := typeBits e.fmts e.f.tb.toNat,
    sa := if scaled then some (k.vOff e.f.vsa.toNat) else none, sb := if scaled then some (k.vOff e.f.vsb.toNat) else none,
    int := !scaled && fa.isInt && fb.isInt }

/-- MMAR is in its scaled form. -/
def QmEntry.scaledForm (e : QmEntry) : Bool := e.op == .mmas || (e.op == .mmar && e.f.fn.getLsbD 0)

/-! Loads and stores of tiles -/

/-- Load the rows of a tile at coordinates into register space (R321): rows and elements outside the tensor are 0, and so are the
unused high bits of a container (R28). -/
def State.loadTile (s : State) (cap : Capsule) (c member : Nat) (t : BitVec 1024) (coords : List Nat) (off : Nat) : State :=
  let cb := tBits t
  let n := min (tileElems t) (tSize t 0 - coords.getD 0 0)
  let r := (List.range 16).foldl (fun (a : EngRead) i =>
    let q := a.s.engRead cap c member [tileRun t coords i]
    let row := packCodes cb 0 (((unpackCodes cb q.bytes).take n).map (· % 2 ^ fdBits (tFd t)))
    ⟨a.bytes ++ padTo 32 row, a.guard || q.guard, q.s⟩) (⟨[], false, s⟩ : EngRead)
  r.s.setCore c ((r.s.core c).writeSpace off r.bytes r.guard)

/-- Load the scales of a tile into a vector register (R321): 0x7F00 outside the tensor. -/
def State.loadScales (s : State) (cap : Capsule) (c member : Nat) (t : BitVec 1024) (coords : List Nat) (off : Nat) : State :=
  let r := (List.range 16).foldl (fun (a : EngRead) i =>
    let q := a.s.engRead cap c member [tileScaleRun t coords i]
    let row := (q.bytes ++ ([0x00, 0x7F, 0x00, 0x7F] : List Byte).drop q.bytes.length).take 4
    ⟨a.bytes ++ row, a.guard || q.guard, q.s⟩) (⟨[], false, s⟩ : EngRead)
  r.s.setCore c ((r.s.core c).writeSpace off r.bytes r.guard)

/-- Load a C tile as binary32, or as integers (R328, R480). -/
def State.loadAcc (s : State) (cap : Capsule) (c member : Nat) (t : BitVec 1024) (coords : List Nat) (off : Nat) (int : Bool) :
    State :=
  let f := fdFormat (tFd t)
  let conv := fun (code : Nat) => if int then roundFixed 32 0 true f.isInt 0 (f.value (fun _ => 0) code)
    else binary32.round 0 false (f.value (fun _ => 0) code)
  let r := (List.range 16).foldl (fun (a : EngRead) i =>
    let q := a.s.engRead cap c member [accRun t coords i]
    ⟨a.bytes ++ packCodes 32 0 ((elemCodes t (tileRow coords i) 16 q.bytes).map conv), a.guard || q.guard, q.s⟩)
    (⟨[], false, s⟩ : EngRead)
  r.s.setCore c ((r.s.core c).writeSpace off r.bytes r.guard)

/-- One byte as it stands at its home. -/
def State.homeByte (s : State) (cap : Capsule) (member ca : Nat) : Byte :=
  match s.engAt cap member ca with
  | .at addr _ => if 2 ^ 64 ≤ addr then 0 else ((s.readDev cap.bearer addr 1).getD 0 0)
  | _ => 0

/-- How MST stores an element, R322. -/
inductive StoreAs where
  | float | int | raw
  deriving DecidableEq, Repr

/-- The element stored for an accumulator word. -/
def storeCode (f : NFmt) (how : StoreAs) (rm : Nat) (sat : Bool) (x : Nat) : Nat :=
  match how with
  | .raw => x
  | .int => f.round rm sat true (Num.ofRat ((toSigned 32 x : Int) : Rat))
  | .float => f.round rm sat false (binary32.value x)

/-- The bytes that stand at the homes of a run. -/
def State.homeBytes (s : State) (cap : Capsule) (member : Nat) (r : Run) : List Byte :=
  (List.range r.2).map fun i => s.homeByte cap member (r.1 + i)

/-- The guard bit that each unit of a tile store carries (R316). -/
def Core.tileUnitGuard (k : Core) (t : BitVec 1024) (coords : List Nat) (ad unit : Nat) : Bool :=
  rowsUnitGuard (rows16 (accRun t coords)) (fun i => (k.granule (k.accGranule ad i)).guard) unit

/-- Store an accumulator tile to a tensor for entry `id`, R322. A container of half a byte leaves the other half (R28). -/
def State.storeTile (s : State) (cap : Capsule) (c id member : Nat) (t : BitVec 1024) (coords : List Nat) (ad : Nat)
    (how : StoreAs) (rm : Nat) (sat : Bool) : State :=
  let k := s.core c
  let words := unpackCodes 32 (k.spaceBytes (k.aOff ad) 1024)
  let n := min 16 (tSize t 0 - coords.getD 0 0)
  ((rows16 (accRun t coords)).zipIdx).foldl (fun (s : State) r =>
    if r.1.2 = 0 then s
    else
      let codes := ((words.drop (16 * r.2)).take n).map (storeCode (fdFormat (tFd t)) how rm sat)
      s.engWrite cap c id member r.1.1 (layCodes t (tileRow coords r.2) (s.homeBytes cap member r.1) codes)
        (k.tileUnitGuard t coords ad)) s

/-- The first unit of a tile store whose guard bit R163 does not permit, now that the tile is known: a line that it loads may have
been guarded after the issue. -/
def State.tileFault (s : State) (cap : Capsule) (c member : Nat) (t : BitVec 1024) (coords : List Nat) (ad : Nat) :
    Option FaultInfo :=
  ((rows16 (accRun t coords)).flatMap unitsOf).findSome? fun u =>
    if (s.core c).tileUnitGuard t coords ad (u.1 / 64) then
      match s.engAt cap member u.1 with
      | .at addr (some e) => s.guardFault cap e addr u.1
      | _ => none
    else none

/-! The queue -/

/-- An entry is complete: it leaves qm and its granules are no longer pending (R240, R314). What it has written is acknowledged. -/
def State.finishQm (s : State) (cap : Capsule) (c : Nat) (e : QmEntry) : State :=
  let s := if e.mwRuns.isEmpty then s else s.dropAllDying
  let k := s.core c
  let k' := (k.unpendGranules (e.writes k) e.id)
  ((s.setCore c { k' with qm := k'.qm.filter fun q => q.id != e.id }).dropRuns cap c e.member e.mwRuns).afterEntry c

/-- Change an entry of qm. -/
def State.setQm (s : State) (c : Nat) (e : QmEntry) : State :=
  let k := s.core c
  let f := fun (q : QmEntry) => if q.id = e.id then e else q
  s.setCore c { k with qm := k.qm.map f }

/-- The writes of an entry are performed: it is complete, or waits until the invalidations of copies that they began are acknowledged
(R167). -/
def State.qmWritten (s : State) (cap : Capsule) (c : Nat) (e : QmEntry) : State :=
  if s.invalidating cap e.member e.mwRuns then s.setQm c { e with unacked := true } else s.finishQm cap c e

/-- A store of an entry that R163 does not permit when it is performed: as for a copy unit (R461), nothing is written and a record of
class 8 with disposition C is written (DESIGN CHOICE, log 87). -/
def State.tileRecord (s : State) (cap : Capsule) (c : Nat) (e : QmEntry) (f : FaultInfo) : State :=
  s.reportFault cap.inst c e.member e.pc e.insn 1 ⟨8, f.detail, 3 + e.step % 2 ^ 12 * 2 ^ 16, f.addr, false⟩ e.handler

/-- What an entry other than MMAT and MMAR does when qm performs it (R320-R323, R330-R334). -/
def State.performQm (s : State) (cap : Capsule) (c : Nat) (e : QmEntry) : State :=
  let k := s.core c
  let f := e.f
  let coords := pairCoords (e.g.getD 0 0) (e.g.getD 1 0)
  let space := fun (o : Nat) (data : List Byte) (guard : Bool) => s.setCore c (k.writeSpace o data guard)
  match e.op with
  | .mzero => space (k.aOff f.ad.toNat) (List.replicate 1024 0) false
  | .mld => s.loadTile cap c e.member e.t1 coords (k.mOff f.ma.toNat)
  | .mldSc => s.loadScales cap c e.member e.t1 coords (k.vOff f.vsa.toNat)
  | .mst => match s.tileFault cap c e.member e.t1 coords f.ad.toNat with
    | some i => s.tileRecord cap c e i
    | none => s.storeTile cap c e.id e.member e.t1 coords f.ad.toNat
        (if f.fn.getLsbD 0 then .raw else if f.fn.getLsbD 1 then .int else .float) f.rm.toNat (f.sat == 1)
  | .mma | .mmas => s.setCore c (k.multiply (e.mul k e.scaledForm) false)
  | .macc =>
    let a := unpackCodes 32 (k.spaceBytes (k.aOff f.ad.toNat) 1024)
    let b := unpackCodes 32 (k.spaceBytes (k.aOff (f.ma.toNat % 16)) 1024)
    let add := fun (p q : Nat) => if f.ta = 3 then intResult 32 true (f.sat == 1) (toSigned 32 p + toSigned 32 q)
      else binary32.round f.rm.toNat (f.sat == 1) (Num.add f.rm.toNat (binary32.value p) (binary32.value q))
    space (k.aOff f.ad.toNat) (packCodes 32 0 (List.zipWith add a b)) (k.granGuard (e.reads k))
  | .mtrn =>
    let a := unpackCodes 16 (k.spaceBytes (k.mOff f.ma.toNat) 512)
    space (k.mOff f.mb.toNat) (packCodes 16 0 ((List.range 256).map fun ij => a.getD (16 * (ij % 16) + ij / 16) 0))
      (k.granGuard (e.reads k))
  | .mcode =>
    let ct := bits f.fn.toNat 0 2
    let t := BitVec.ofNat 256 (leNat (k.spaceBytes (k.vOff f.vsa.toNat) 32))
    let g := k.granGuard (e.reads k)
    s.setCore c { k with
      tables := k.tables.set (ct % 4) t (Nat.mod_lt _ (by decide))
      tableGuard := if g then k.tableGuard ||| BitVec.twoPow 4 ct else k.tableGuard &&& ~~~ BitVec.twoPow 4 ct }
  | .tqry => space (k.vOff f.vsa.toNat) (leBytes 128 e.t1.toNat) false
  | .mmar | .mmat => s

/-- The fetch of an MMAR entry (R325): it waits at the source as a tagged operation. -/
def QmEntry.fetch (e : QmEntry) (s : State) (inst c : Nat) : Access :=
  let o := bits (e.g.getD 1 0) 0 17
  { id := s.serial, core := c, slot := e.slot, slotSerial := e.slotSerial, inst := inst, member := e.member, pc := e.pc,
    insn := e.insn, kind := .mr, op := .fetch, ca := scratchCa e.role o, addr := scratchAddr s.pkgId e.src o,
    size := tileBytes e.wideB, span := [], data := [], mask := BitVec.allOnes 64, guard := false, ext := none, extGuard := false, msa := false,
    lane := s.laneOf inst, cls := 0, stl := none, result := none, entry := some e.id, state := .sent, order := s.serial,
    perf := 0, word := scratchAddr s.pkgId e.src o / 8, fill := false, line := [], reply := [], replyGuard := false }

/-- The head of qm and its capsule, when the core runs one. -/
def State.qmHead? (s : State) (c : Nat) : Option (Capsule × QmEntry) :=
  match s.capsuleOf? c, (s.core c).qm with
  | some cap, e :: _ => some (cap, e)
  | _, _ => none

/-- The head of qm may be performed: joins, fences, the scoreboard and its pages allow (R173-R175, R434). -/
def State.qmFree (s : State) (cap : Capsule) (c : Nat) (e : QmEntry) : Bool :=
  e.waitPage.isNone && !(s.core c).joined 3 e.id &&
    s.entryFree cap c e.slot e.slotSerial e.id e.member .mr .mw e.mrRuns e.mwRuns

/-- Meet an obstacle or go on: an absent page stops the entry with a record, an error ends the capsule (R434, R437), and a home slice
refuses a write to a line that it guards (R426, R428; DESIGN CHOICE, log 105). -/
def State.qmMeet (s : State) (cap : Capsule) (c : Nat) (e : QmEntry) (reads writes : List Run) (go : State → State) : State :=
  let obstacle := match s.obstacle? cap e.member false reads with
    | some o => some o
    | none => s.obstacle? cap e.member true writes
  match obstacle with
  | none => go s
  | some .wait => s
  | some (.page ext page) =>
    if cap.stage = .completing then (s.drainRecord cap.inst c e.member e.pc e.insn 3 e.step page e.handler).finishQm cap c e
    else (s.setQm c { e with waitPage := some (ext, page) }).pageRecord cap.inst c e.member e.pc e.insn 3 e.step page e.handler
  | some (.error code ca) =>
    ((s.afterEngError cap c e.member ca).engineError cap.inst c e.member e.pc e.insn code ca e.handler).finishQm cap c e
  | some (.marked _ ca) =>
    (s.reportFault cap.inst c e.member e.pc e.insn 1 ⟨7, 6, 3 + e.step % 2 ^ 12 * 2 ^ 16, ca, false⟩ e.handler).finishQm cap c e

/-- The matrix queue performs its next entry, R240, R324, R325. An MMAT begins its steps and an MMAR sends its fetch; an entry whose
writes await their acknowledgement is complete (R167). -/
def execQmEntryPerform (core : Nat) (s : State) : Host.Outcome State Fault Refusal :=
  match s.qmHead? core with
  | none => .next s
  | some (cap, e) =>
    let k := s.core core
    let f := fun (s : State) => if k.badIn (e.reads k) then
        (s.spaceError cap.inst core e.member e.pc e.insn e.handler).finishQm cap core e
      else match e.op with
      | .mmat => s.setQm core { e with begun := true, seen := s.runsGuarded cap e.member e.mrRuns }
      | .mmar =>
        let a := e.fetch s cap.inst core
        let s1 := { s with serial := s.serial + 1, accesses := s.accesses ++ [a] }
        s1.setQm core { e with begun := true, sentAt := s.cycOf core, limit := (s.core core).barto.toNat }
      | _ => s.qmMeet cap core e e.mrRuns e.mwRuns fun s => (s.performQm cap core e).qmWritten cap core e
    let there := e.op == .mmat || e.op == .mmar || s.runsExist cap e.member (e.mrRuns ++ e.mwRuns)
    if e.unacked then event (e.op == .mst) (fun s => s.finishQm cap core e) s
    else eventAt (!e.begun && s.qmFree cap core e && !(e.op == .mmar && cap.isParked e.role)) there f s

/-! MMAT steps (R328, R329, R480) -/

/-- Tile coordinates of a step: rows of A and of C, rows of B. -/
def QmEntry.tilePos (e : QmEntry) : Nat × Nat :=
  let (i0, j0, _, _, n, _) := e.blockOf
  (i0 + 16 * (e.step / (n / 16)), j0 + 16 * (e.step % (n / 16)))

/-- Steps of an MMAT. -/
def QmEntry.steps (e : QmEntry) : Nat :=
  let (_, _, _, m, n, _) := e.blockOf
  m / 16 * (n / 16)

/-- The memory that a step reads and writes. -/
def QmEntry.stepReads (e : QmEntry) : List Run :=
  let (_, _, k0, _, _, k) := e.blockOf
  let (i, j) := e.tilePos
  blockRuns e.t2 e.matK i 16 k0 k ++ blockRuns e.t3 e.matK j 16 k0 k ++
    (if e.f.fn.getLsbD 0 then blockRuns e.t1 e.matK i 16 j 16 else [])
def QmEntry.stepWrites (e : QmEntry) : List Run :=
  let (i, j) := e.tilePos
  blockRuns e.t1 e.matK i 16 j 16

/-- The multiply of a tile step. -/
def QmEntry.stepMul (k : Core) (e : QmEntry) : Mul :=
  { ad := k.aOff e.f.ad.toNat, ma := k.mOff e.f.ma.toNat, mb := k.mOff e.f.mb.toNat, wideA := e.matWideA,
    wideB := e.matWideB, fa := fdFormat (tFd e.t2), fb := fdFormat (tFd e.t3), ca := tBits e.t2, cb := tBits e.t3,
    sa := if tScaled e.t2 then some (k.vOff e.f.vsa.toNat) else none,
    sb := if tScaled e.t3 then some (k.vOff e.f.vsb.toNat) else none, int := e.matInt }

/-- Load an operand tile at element `kk` of a row block, with its pair partner and its scales (R327, R328). -/
def State.loadOperand (s : State) (cap : Capsule) (c member : Nat) (t : BitVec 1024) (row kk off : Nat) (wide : Bool)
    (scale : Option Nat) : State :=
  let s1 := s.loadTile cap c member t [kk, row] off
  let s2 := if wide then s1.loadTile cap c member t [kk + 32, row] (off + 512) else s1
  match scale with
  | some o => s2.loadScales cap c member t [kk, row] o
  | none => s2

/-- The accumulator at the start of a step (R328). -/
def State.startAcc (s : State) (cap : Capsule) (c : Nat) (e : QmEntry) : State :=
  let (i, j) := e.tilePos
  let k := s.core c
  if e.f.fn.getLsbD 0 then s.loadAcc cap c e.member e.t1 [j, i] (k.aOff e.f.ad.toNat) e.matInt
  else s.setCore c (k.writeSpace (k.aOff e.f.ad.toNat) (List.replicate 1024 0) false)

/-- The loads and multiplies of a tile step, in ascending k (R328). -/
def State.mmatTile (s : State) (cap : Capsule) (c : Nat) (e : QmEntry) : State :=
  let (_, _, k0, _, _, k) := e.blockOf
  let (i, j) := e.tilePos
  let m := e.stepMul (s.core c)
  let kt := e.matK
  (List.range (k / kt)).foldl (fun (s : State) n =>
    let kk := k0 + n * kt
    let s2 := s.loadOperand cap c e.member e.t2 i kk m.ma m.wideA m.sa
    let s3 := s2.loadOperand cap c e.member e.t3 j kk m.mb m.wideB m.sb
    s3.setCore c ((s3.core c).multiply m false)) (s.startAcc cap c e)

/-- Give granules a guard bit. -/
def Core.markGranules (k : Core) (gs : List Nat) (g : Bool) : Core :=
  { k with regs := gs.foldl (fun m n => SMap.put m n { SMap.get ⟨0, false⟩ m n with guard := g }) k.regs }

/-- The OR of the guard bits of what an MMAT reads: of what it has met so far, of the accumulator, which has gathered those of its own
step, and of every line that it loads, those of the steps to come included (R316). -/
def State.mmatSeen (s : State) (cap : Capsule) (c : Nat) (e : QmEntry) : Bool :=
  let k := s.core c
  e.seen || k.granGuard (granulesOf (k.aOff e.f.ad.toNat) 1024) || s.runsGuarded cap e.member e.mrRuns

/-- The granules that the steps of an MMAT write: scales are loaded only for a tensor that has them (R328). -/
def QmEntry.stepGranules (k : Core) (e : QmEntry) : List Nat :=
  let m := e.stepMul k
  { m with sa := none, sb := none }.granules ++ (m.sa.toList ++ m.sb.toList).flatMap fun o => granulesOf o 64

/-- A tile step before its store: every granule that the MMAT writes takes the OR of all that it reads (R316, R328). -/
def State.mmatStep (s : State) (cap : Capsule) (c : Nat) (e : QmEntry) : State :=
  let s1 := s.mmatTile cap c e
  s1.setCore c ((s1.core c).markGranules (e.stepGranules (s1.core c)) (s1.mmatSeen cap c e))

/-- The store of a tile step (R328). -/
def State.mmatStore (s : State) (cap : Capsule) (c : Nat) (e : QmEntry) : State :=
  let (i, j) := e.tilePos
  s.storeTile cap c e.id e.member e.t1 [j, i] e.f.ad.toNat (if e.matInt then .int else .float) e.f.rm.toNat (e.f.sat == 1)

/-- TSR.STEP of the issuing task, while it is on its core (R329). -/
def State.showStep (s : State) (c : Nat) (e : QmEntry) (step : Nat) : State :=
  let sl := s.slot c e.slot
  if sl.serial = e.slotSerial then s.setSlot c e.slot { sl with task := sl.task.setStep step } else s

/-- A tile step ends: its C writes are performed and STEPq advances; after the last the entry is complete, R328, R329. -/
def execMmatStepComplete (core : Nat) (s : State) : Host.Outcome State Fault Refusal :=
  match s.qmHead? core with
  | none => .next s
  | some (cap, e) =>
    let done := fun (s : State) =>
      let s1 := s.mmatStep cap core e
      match s1.tileFault cap core e.member e.t1 [e.tilePos.2, e.tilePos.1] e.f.ad.toNat with
      | some i => ((s1.tileRecord cap core e i).showStep core e 0).finishQm cap core e
      | none =>
        let s2 := s1.mmatStore cap core e
        let e' := { e with step := e.step + 1, seen := s1.mmatSeen cap core e }
        let last := decide (e.steps ≤ e.step + 1)
        if last && !s2.invalidating cap e.member e.mwRuns then (s2.showStep core e 0).finishQm cap core e
        else (s2.setQm core { e' with unacked := last }).showStep core e (e.step + 1)
    if e.unacked then event (e.op == .mmat) (fun s => (s.showStep core e 0).finishQm cap core e) s
    else eventAt (e.op == .mmat && e.begun && e.waitPage.isNone && !s.engineStopped core)
      (s.runsExist cap e.member (e.stepReads ++ e.stepWrites))
      (fun s => s.qmMeet cap core e e.stepReads e.stepWrites done) s

/-! MMAR (R325, R326, R457) -/

/-- The fetches that have been sent to a core and have not been taken, in order of sending. -/
def State.fetchesTo (s : State) (c : Nat) : List Access :=
  (s.accesses.filter fun a => a.op == .fetch && a.state == .sent && s.homeNow a == .core c).mergeSort fun a b => a.order ≤ b.order

/-- The head of a core's qm whose fetch is gone leaves its destinations as they are (R218, R437, R457). -/
def State.dropFetch (s : State) (a : Access) : State :=
  match s.qmHead? a.core with
  | some (cap, e) => if a.entry = some e.id ∧ e.begun then s.finishQm cap a.core e else s
  | none => s

/-- A fetch arrives at its source core: it is read there if every word of the range is full, with a multicast to the same
fetches that wait, or waits, R325, R326. -/
def execMmarFetchServe (core : Nat) (s : State) : Host.Outcome State Fault Refusal :=
  match (s.fetchesTo core).head? with
  | none => .next s
  | some a =>
    let f := fun (s : State) =>
      let s1 := s.arriveHome a
      match s1.access? a.id with
      | some b => if b.state = .performed then s1.multicast a else s1
      | none => s1.dropFetch a
    event (!s.destParked a) f s

/-- The fetch of the head of a core's qm. -/
def State.fetchOf? (s : State) (c id : Nat) : Option Access :=
  s.accesses.find? fun a => a.core == c && a.op == .fetch && a.entry == some id

/-- The fetched operand arrives, is written to the tiles and is multiplied, R325. -/
def execMmarDataArrive (core : Nat) (s : State) : Host.Outcome State Fault Refusal :=
  match s.qmHead? core with
  | none => .next s
  | some (cap, e) =>
    match s.fetchOf? core e.id with
    | none => .next s
    | some a =>
      let f := fun (s : State) =>
        let k := s.core core
        let m := e.mul k e.scaledForm
        -- every granule written takes the OR of the operands read and of the lines loaded (R316)
        let read := { m with mb := m.ma, wideB := m.wideA }
        let guard := k.mulGuard read || tablesGuard (fun ct => k.tableGuard.getLsbD ct) m.fa m.fb || a.replyGuard
        let k1 := k.writeSpace m.mb a.reply guard
        ((s.setCore core (k1.multiply m guard)).dropAccess a.id).finishQm cap core e
      event (e.op == .mmar && e.begun && a.state == .performed) f s

/-- A fetch not returned after the limit is abandoned with a class 13 record, R457. -/
def execMmarPairLost (core : Nat) (s : State) : Host.Outcome State Fault Refusal :=
  match s.qmHead? core with
  | none => .next s
  | some (cap, e) =>
    match s.fetchOf? core e.id with
    | none => .next s
    | some a =>
      let aux := bits (e.g.getD 0 0) 0 15 + bits (e.g.getD 0 0) 16 8 * 2 ^ 16 + clusterOf e.src % 256 * 2 ^ 32
      let f := fun (s : State) =>
        let s1 := ((s.dropAccess a.id).useTicket e.src a.id).grantHome e.src
        (s1.reportFault cap.inst core e.member e.pc e.insn 1 ⟨13, 1, aux, 0, e.gGuard⟩ e.handler).finishQm cap core e
      event (e.op == .mmar && e.begun && decide (e.limit ≠ 0 ∧ e.sentAt + e.limit ≤ s.cycOf core)) f s

end Sys2Proof.Machine
end

