-- ==== Sys2Proof/Machine/Copy.lean ====
section
/-! DEFINITION. Copies: their issue into q0, q1 and qn (R347-R354, R424, R425), the waits on chunk maps (R355), and the events
of the copy queues (R174, R349, R350, R370, R434, R436, R461). -/

namespace Sys2Proof.Machine

open Sys2Proof

/-! The peer table and the world outside the package (R369, R370, R436) -/

/-- The peer table entry of a package id: bytes lo to lo + n - 1. -/
def State.peerField (s : State) (pkg lo n : Nat) : Nat :=
  bits (SMap.get 0 s.host.peers (pkg - 6144)).toNat (8 * lo) (8 * n)

/-- VALID of a peer entry; every entry reads as invalid once the peer table's domain is in ERROR (R464). -/
def State.peerValid (s : State) (pkg : Nat) : Bool := decide (s.peerField pkg 48 1 % 2 = 1) && !s.host.lockErr.getLsbD 15

/-- PFLAGS.MACSEC of a peer entry. -/
def State.peerMacsec (s : State) (pkg : Nat) : Bool := decide (s.peerField pkg 48 1 / 2 % 2 = 1)

/-- The association that protects a port's frames, or that accepts those it receives: the VALID one of lowest number (R372; DESIGN
CHOICE, log 100). -/
def EthPort.sa? (v : EthPort) (from_ : Nat) : Option Nat :=
  ((List.range 8).find? fun i => decide (bits (SMap.get 0 v.sas (from_ + i)).toNat 71 1 = 1)).map (from_ + ·)
def EthPort.txSa? (v : EthPort) : Option Nat := v.sa? 0
def EthPort.rxSa? (v : EthPort) : Option Nat := v.sa? 8

/-- ETHCTL.MACSEC: every frame of the port is protected with its secure associations (R372). -/
def EthPort.secure (v : EthPort) : Bool := decide (v.ctl / 2 % 2 = 1)

/-- MACsec is active on a port: it is enabled, protects its frames, and has an association to protect them with (R372; DESIGN CHOICE,
log 100). -/
def EthPort.macsec (v : EthPort) : Bool := decide (v.ctl % 4 = 3) && v.txSa?.isSome

/-- An Ethernet port that may carry a peer's traffic: named in PORTS, enabled, not stopped by its lock domain, with MACsec
where the entry asks for it, and, where its frames are to be protected, with an association that protects them (R370, R372, R464). -/
def State.peerPort (s : State) (pkg p : Nat) : Bool :=
  match s.host.eth[p]? with
  | some v => decide (bits (s.peerField pkg 6 2) p 1 = 1 ∧ v.ctl % 2 = 1) && !s.host.lockErr.getLsbD (3 + p) &&
      (!s.peerMacsec pkg || v.secure) && (!v.secure || v.txSa?.isSome)
  | none => false

/-- The device address of a unit that leaves the package: host space, another package or a peer. -/
def State.leaves (s : State) (addr : Nat) : Bool :=
  decide (addr < 2 ^ 64) && (decide (devSpace addr = 4) || decide (devPkg addr ≠ s.pkgId))

/-- The Ethernet ports that may carry a peer's traffic. -/
def State.peerPorts (s : State) (pkg : Nat) : List Nat := (List.range 12).filter (s.peerPort pkg)

/-- The port that carries chunk `b` towards a peer: a hash of the chunk index chooses one of its ports (R370; DESIGN CHOICE, log 6: the
hash is the part's own). -/
def State.chunkPort (s : State) (pkg b : Nat) : Nat :=
  let ports := s.peerPorts pkg
  ports.getD (Config.chunkHash b % ports.length) 0

/-- Why a unit of a copy of queue `q` that leaves the package fails (R436): q0 and q1 do not reach other packages (R348; DESIGN CHOICE,
log 88), an invalid peer entry or an address beyond RLEN, no port, or a refusal of the far end, which is a free choice of the
chunk (DESIGN CHOICE, log 6) (DEDUCED, log 36). -/
def State.unitRefused (s : State) (q addr n : Nat) : Option Nat :=
  if !s.leaves addr then none
  else
    let far := decide (devSpace addr ≠ 4)
    let peer := far && isPeer (devPkg addr)
    if far && decide (q < 2) then some 3
    else if peer && (!s.peerValid (devPkg addr) || decide (s.peerField (devPkg addr) 40 8 < devLocal addr + n)) then some 2
    else if peer && (s.peerPorts (devPkg addr)).isEmpty then some 3
    else if Config.farEndRefuses s.freeCount then some (if devSpace addr = 4 then 4 else 3)
    else none

/-- The first failure among the units of some runs. -/
def State.runsRefused (s : State) (cap : Capsule) (q member : Nat) (runs : List Run) : Option Nat :=
  (runs.flatMap unitsOf).findSome? fun u => match s.engAt cap member u.1 with
    | .at addr _ => s.unitRefused q addr u.2
    | _ => none

/-! Pieces of a chunk -/

/-- A piece: the row, the first element within it, and the count. -/
structure Piece where
  row : Nat
  j : Nat
  n : Nat

/-- The pieces of chunk `b` in box order: its rows, cut at the 64-byte units of the destination (R350). -/
def CopyEntry.pieces (e : CopyEntry) (b : Nat) : List Piece :=
  let top := min (512 * b + 512) e.bytes
  let cb := tBits e.td
  if e.pageDim = 0 then (List.range ((top - 512 * b) * 8 / cb)).map fun i => ⟨512 * b * 8 / cb + i, 0, 1⟩
  else if e.dstRow = 0 ∨ top ≤ 512 * b then []
  else (List.range ((top - 1) / e.dstRow - 512 * b / e.dstRow + 1)).flatMap fun i =>
    let k := 512 * b / e.dstRow + i
    let lo := max (512 * b) (k * e.dstRow) - k * e.dstRow
    let hi := min top ((k + 1) * e.dstRow) - k * e.dstRow
    let base := elemByte e.td (e.dstCoords k)
    (unitsOf (base + lo, hi - lo)).map fun u => ⟨k, (u.1 - base) * 8 / cb, u.2 * 8 / cb⟩

/-- The coordinates of element `j` of a row whose first element stands at `c`. -/
def stepElem (c : List Nat) (j : Nat) : List Nat := c.set 0 (c.getD 0 0 + j)

/-- The source and destination of a piece. -/
def CopyEntry.srcAt (e : CopyEntry) (p : Piece) : List Nat := stepElem (e.srcCoords p.row) p.j
def CopyEntry.dstAt (e : CopyEntry) (p : Piece) : List Nat := stepElem (e.dstCoords p.row) p.j

/-- The index elements lie below DIM of the page dimension, R352, R436. -/
def CopyEntry.badPage (e : CopyEntry) (p : Piece) : Bool :=
  let top := match e.kind with
    | .cgath => tSize e.ts e.pageDim
    | .cscat => tSize e.td e.pageDim
    | _ => 0
  (e.kind == .cgath || e.kind == .cscat) && decide (top ≤ e.indexes.getD ((e.offsets p.row).getD e.pageDim 0) 0)

/-! Elements (R351, R353) -/

/-- COPY's conversion of one element, R351. -/
def CopyEntry.convert (e : CopyEntry) (code : Nat) : Nat :=
  if tFd e.ts = tFd e.td then code
  else
    let f := fdFormat (tFd e.ts)
    (fdFormat (tFd e.td)).round e.rm e.sat f.isInt (f.value (fun _ => 0) code)

/-- The integer operation of CREDC. -/
def reduceInt (op w : Nat) (signed sat : Bool) (a b : Nat) : Nat :=
  match op with
  | 0 => intResult w signed sat (intOf w signed a + intOf w signed b)
  | 1 => intResult w signed sat (min (intOf w signed a) (intOf w signed b))
  | 2 => intResult w signed sat (max (intOf w signed a) (intOf w signed b))
  | 3 => a % 2 ^ w &&& b % 2 ^ w
  | 4 => a % 2 ^ w ||| b % 2 ^ w
  | _ => a % 2 ^ w ^^^ b % 2 ^ w

/-- CREDC's combination of an old destination element with a source element, R353 (DEDUCED, log 40). -/
def CopyEntry.combine (e : CopyEntry) (old code : Nat) : Nat :=
  let op := e.fn % 8
  if e.fn / 8 % 2 = 1 then reduceInt op 32 true e.sat old code
  else match fdFormat (tFd e.td) with
    | .int w s => reduceInt op w s e.sat old code
    | .flt sp =>
      let v := (fdFormat (tFd e.ts)).value (fun _ => 0) code
      if op = 0 then sp.round e.rm e.sat (Num.add e.rm (sp.value old) v)
      else sp.round 0 false (Num.pick (decide (op = 1)) (sp.value old) (sp.value (sp.round e.rm e.sat v)))
    | _ => old

/-! Checks at issue (R347, R350, R352-R354, R412, R425) -/

/-- The integer form of CREDC: .int, or a KIND 6 destination. -/
def CopyEntry.reducesInt (e : CopyEntry) : Bool := decide (e.fn / 8 % 2 = 1) || fdKind (tFd e.td) == 6

/-- 4/6 of CREDC: reserved operations, .int with another KIND, an operation the type does not have, an integer destination
with a floating source (R353, R425) (DEDUCED, log 39). -/
def CopyEntry.reduceFnFault (e : CopyEntry) : Option FaultInfo :=
  let kd := fdKind (tFd e.td)
  let floating := fdKind (tFd e.ts) == 0 || fdKind (tFd e.ts) == 2 || fdKind (tFd e.ts) == 3 || fdKind (tFd e.ts) == 4 || fdKind (tFd e.ts) == 5
  let int := decide (e.fn / 8 % 2 = 1)
  failIf (6 ≤ e.fn % 8 || (int && kd != 5) || (decide (3 ≤ e.fn % 8) && !e.reducesInt && (kd == 4 || kd == 5)) ||
    (kd == 6 && floating) || (int && floating && fdKind (tFd e.ts) != 5)) 4 6 e.fn

/-- 4/10: tensors undefined or not accepted, and scaling that does not match; AUX names the source where it is the operand
that is not accepted. -/
def CopyEntry.tensorFaults (e : CopyEntry) (td ts ti : Nat) : List (Option FaultInfo) :=
  let fs := tFd e.ts
  let fd := tFd e.td
  let pair := match e.kind with
    | .copy => decide (fs = fd) || (fdKind fs != 2 && fdKind fd != 2)
    | .cgath | .cscat => decide (fs = fd)
    | .credc => fdKind fs != 2 && (fdKind fd == 4 || fdKind fd == 5 || fdKind fd == 6) &&
        (fdKind fd != 6 || (fdKind fs == 6 && fdW fs == fdW fd && fdS fs == fdS fd)) &&
        (e.fn / 8 % 2 == 0 || fdKind fs == 5)
    | .cseal => decide (fs = 0xD0000000 ∧ fd = 0xD0000000 ∧ tNdim e.ts = 1 ∧ tNdim e.td = 1)
  let scaled := decide (tScaled e.ts = tScaled e.td) && (!tScaled e.ts || (decide (fs = fd) && e.kind != .credc))
  let index := e.kind != .cgath && e.kind != .cscat || (tDefined e.ti && tNdim e.ti == 1 && fdKind (tFd e.ti) == 5)
  let byte := fun (t : BitVec 1024) => tFd t == 0xD0000000 && tNdim t == 1
  let source := match e.kind with
    | .copy => fdKind fs == 2 && fs != fd
    | .credc => (fdKind fd == 4 || fdKind fd == 5 || fdKind fd == 6) && !tScaled e.td
    | .cseal => byte e.td && !byte e.ts
    | .cgath | .cscat => false
  [failIf (!tDefined e.td) 4 10 td, failIf (!tDefined e.ts) 4 10 ts, failIf (!index) 4 10 ti,
    failIf (!(pair && scaled)) 4 10 (if source then ts else td)]

/-- 4/11: sizes, coordinates, alignment and the count of bytes (R347, R352, R354), with the guard bits of the registers that hold the
source and destination coordinates, the box sizes and the index start. -/
def CopyEntry.limitFaults (e : CopyEntry) (gs gd gx : Nat → Bool) (gi : Bool) : List (Option FaultInfo) :=
  let extra := if e.kind = .cseal then 64 else 0
  let size := fun (d : Nat) => e.box.getD d 0
  let cs := tBits e.ts
  let cd := tBits e.td
  let c0 := if e.kind = .cgath ∧ e.pageDim = 0 then 0 else e.sc.getD 0 0
  let d0 := if e.kind = .cscat ∧ e.pageDim = 0 then 0 else e.dc.getD 0 0
  let blk := fdBlock (tFd e.ts)
  ((List.range 7).map fun d => heldBy (gx d) (failIf (size d = 0) 4 11 0)) ++
    ((List.range 7).map fun d =>
      heldBy (gs d) (failIf (!(e.kind == .cgath && d == e.pageDim) && decide (tSize e.ts d < e.sc.getD d 0 + size d)) 4 11 (e.sc.getD d 0))) ++
    ((List.range 7).map fun d =>
      heldBy (gd d) (failIf (!(e.kind == .cscat && d == e.pageDim) &&
        decide (tSize e.td d < e.dc.getD d 0 + size d + if d = 0 then extra else 0)) 4 11 (e.dc.getD d 0))) ++
    [heldBy (gs 0) (failIf (c0 * cs % 8 ≠ 0) 4 11 c0), heldBy (gd 0) (failIf (d0 * cd % 8 ≠ 0) 4 11 d0),
     heldBy (gx 0) (failIf (size 0 * cs % 8 ≠ 0 ∨ size 0 * cd % 8 ≠ 0) 4 11 (size 0)),
     heldBy (gs 0) (failIf (tScaled e.ts ∧ c0 % blk ≠ 0) 4 11 c0), heldBy (gd 0) (failIf (tScaled e.ts ∧ d0 % blk ≠ 0) 4 11 d0),
     heldBy (gx 0) (failIf ((tScaled e.ts ∧ size 0 % blk ≠ 0) ∨ (e.kind = .cseal ∧ size 0 % 512 ≠ 0)) 4 11 (size 0)),
     heldBy gi (failIf ((e.kind = .cgath ∨ e.kind = .cscat) ∧ tSize e.ti 0 < e.ge + size e.pageDim) 4 11 e.ge),
     heldBy ((List.range 7).any gx) (failIf (2097152 < e.bytes) 4 11 e.bytes)]

/-- The first class 8 failure of a copy whose source extents are guarded: R350 and R460. -/
def State.copyGuard (s : State) (cap : Capsule) (member ca : Nat) (issue : Bool) : Option FaultInfo :=
  match windowOf ca, cap.extentAt? member ca with
  | .extent, some e =>
    -- an absent page has no device address: the package of DBASE stands in AUX (DESIGN CHOICE, log 82)
    match s.translate cap.bearer e ca with
    | none => if e.guard then none else some ⟨8, if issue then 5 else 1, e.index + devPkg e.dbase * 2 ^ 16, ca, false⟩
    | some addr =>
      let aux := e.index + devPkg addr * 2 ^ 16
      if !e.guard then some ⟨8, if issue then 5 else 1, aux, ca, false⟩
      else if devSpace addr ≠ 4 ∧ isPeer (devPkg addr) then
        failIf (!(cap.roster.contains (devPkg addr) && s.peerMacsec (devPkg addr))) 8 4 aux ca
      else s.guardFault cap e addr ca
  | _, _ => none

/-- The memory checks of a copy: every byte it may touch, and the guard of the extents of its source box (R347, R350, R352). -/
def State.copyChecks (s : State) (cap : Capsule) (c : Nat) (e : CopyEntry) : List FaultInfo :=
  let dst := if e.kind = .cscat then e.pagedRuns e.td e.dc else e.dstRuns
  let guarded := e.kind != .cseal && cap.extsGuarded e.member e.srcBox
  s.checkRuns cap c e.member .load false e.crRuns ++
    s.checkRuns cap c e.member (if e.kind = .credc then .atomic else .store) false dst ++
    (if guarded then (dst.flatMap unitsOf).filterMap fun u => s.copyGuard cap e.member u.1 true else [])

/-- An entry of the executing instruction, with what R347 captures. -/
def Cur.copyEntry (x : Cur) (s : State) (kind : CopyKind) (f : FmtC) : CopyEntry :=
  let pair := fun (r : BitVec 4) => pairCoords (x.t.reg r.toNat).toNat (x.t.reg (r.toNat + 1)).toNat
  let ge := match kind with
    | .cgath | .cscat | .cseal => (x.reg f.ge).toNat
    | _ => 0
  { id := s.serial, kind := kind, queue := f.q.toNat, map := f.d.toNat, slot := x.n,
    slotSerial := (x.k.slot x.n).serial, member := x.t.member, pc := x.pc, insn := x.insn,
    td := SMap.get 0 x.k.tensors f.td.toNat, ts := SMap.get 0 x.k.tensors f.ts.toNat,
    ti := SMap.get 0 x.k.tensors f.ti.toNat, dc := pair f.gd, sc := pair f.gs, box := pair f.gx, fn := f.fn.toNat,
    rm := f.rm.toNat, sat := f.sat == 1, ge := ge, begun := false, indexes := [], chunks := 0, done := [], kept := [],
    waitPage := none, handler := (x.k.slot x.n).fromFault }

/-- The bits of a map bound to a copy of `n` chunks: 0 to n - 1 are clear (R349). -/
def boundMap (n : Nat) : BitVec 4096 := BitVec.allOnes 4096 <<< n

/-- Set a chunk map. -/
def Core.setMap (k : Core) (m : Nat) (v : BitVec 4096) : Core := { k with maps := SMap.put k.maps m v }

/-- An entry enters its queue and binds its map (R348, R349). -/
def State.enqueueCopy (s : State) (c : Nat) (e : CopyEntry) : State :=
  let n := (e.bytes + 511) / 512
  let k := (s.core c).setMap e.map (boundMap n)
  { s.setCore c (k.setCopyQueue e.queue (k.copyQueue e.queue ++ [{ e with chunks := n }])) with serial := s.serial + 1 }

/-- The issue of a copy: it waits for a free entry and an idle map, is checked completely, and enters its queue. -/
def copyIssue (kind : CopyKind) (f : FmtC) (x : Cur) (s : State) : Verdict :=
  let e := x.copyEntry s kind f
  let regs := [f.gd, f.gs, f.gx].flatMap fun r => [r.toNat, r.toNat + 1]
  let label := match kind with
    | .cgath | .cscat | .cseal => [f.ge.toNat]
    | _ => []
  let full := { e with chunks := (e.bytes + 511) / 512 }
  let reduce := kind == .credc
  if 16 ≤ (x.k.copyQueue e.queue).length then .block (.queueFull e.queue)
  else if x.k.mapBusy e.map then .block (.mapBusy e.map)
  else
    let early := [oddPair f.gd.toNat, oddPair f.gs.toNat, oddPair f.gx.toNat, readMarked x (regs ++ label),
        failIf (f.gdw ≠ 1) 4 6 f.gdw.toNat, failIf (f.gsw ≠ 1) 4 6 f.gsw.toNat, failIf (f.gxw ≠ 1) 4 6 f.gxw.toNat,
        if reduce then e.reduceFnFault else none,
        failIf (4 < f.rm.toNat ∨ (reduce && e.reducesInt) ∧ f.rm ≠ 0) 4 8 (f.rm.toNat + 8 * f.sat.toNat)] ++
      e.tensorFaults f.td.toNat f.ts.toNat f.ti.toNat ++
      e.limitFaults (x.pairGuard f.gs) (x.pairGuard f.gd) (x.pairGuard f.gx) (x.guard f.ge) ++
      [if reduce && !e.reducesInt then detFault x 2 0xB3 else none]
    match firstFault early with
    | some i => .raise i
    | none => checked [firstByClass (s.copyChecks x.cap x.c full)] (.next (s.enqueueCopy x.c e))

/-- Box copy with conversion, R351. -/
def execCopy (h : Head) (f : FmtC) : State → Host.Outcome State Fault Refusal := issue h 16 (copyIssue .copy f)

/-- Gather of pages by an index tensor, R352. -/
def execCgath (h : Head) (f : FmtC) : State → Host.Outcome State Fault Refusal := issue h 16 (copyIssue .cgath f)

/-- Scatter of pages by an index tensor, R352. -/
def execCscat (h : Head) (f : FmtC) : State → Host.Outcome State Fault Refusal := issue h 16 (copyIssue .cscat f)

/-- Reduce-copy, R353. -/
def execCredc (h : Head) (f : FmtC) : State → Host.Outcome State Fault Refusal := issue h 16 (copyIssue .credc f)

/-- Sealing copy, R354. -/
def execCseal (h : Head) (f : FmtC) : State → Host.Outcome State Fault Refusal := issue h 16 (copyIssue .cseal f)

/-! Chunk maps (R355) -/

/-- Wait until every bit that G[A] names from bit G[B] on is set. -/
def execCwait (h : Head) (f : FmtA) : State → Host.Outcome State Fault Refusal :=
  issue h 8 fun x s =>
    let base := (x.reg f.b).toNat
    let mask := (x.reg f.a).toNat
    checked [readMarked x [f.a.toNat, f.b.toNat], heldBy (x.guard f.b) (failIf (base % 64 ≠ 0 ∨ 4096 ≤ base) 4 11 base)]
      (if x.k.mapReady f.c.toNat base mask then .next s else .block (.mapBits f.c.toNat base mask))

/-- Wait until every bit of the map is set. -/
def execCwaitAll (h : Head) (f : FmtA) : State → Host.Outcome State Fault Refusal :=
  issue h 8 fun x s =>
    match (List.range 64).find? fun i => !x.k.mapReady f.c.toNat (64 * i) (2 ^ 64 - 1) with
    | some i => .block (.mapBits f.c.toNat (64 * i) (2 ^ 64 - 1))
    | none => .next s

/-- Read one bit of the map. -/
def execCtest (h : Head) (f : FmtA) : State → Host.Outcome State Fault Refusal :=
  issue h 8 fun x s =>
    let bit := (x.k.map f.c.toNat).getLsbD (bits (x.reg f.b).toNat 0 12)
    checked [readMarked x [f.b.toNat], writeMarked x [f.d.toNat]] (.next (x.setReg s f.d.toNat (if bit then 1 else 0) false))

/-! The queues (R174, R349, R350) -/

/-- The head of a copy queue and its capsule. -/
def State.copyHead? (s : State) (c q : Nat) : Option (Capsule × CopyEntry) :=
  match s.capsuleOf? c, (s.core c).copyQueue q with
  | some cap, e :: _ => some (cap, e)
  | _, _ => none

/-- Change the head of a copy queue. -/
def State.setCopy (s : State) (c : Nat) (e : CopyEntry) : State :=
  let k := s.core c
  let f := fun (o : CopyEntry) => if o.id = e.id then e else o
  s.setCore c (k.setCopyQueue e.queue ((k.copyQueue e.queue).map f))

/-- An entry is complete: it leaves its queue, and its map is idle (R349). Chunks that it has written have been acknowledged. -/
def State.finishCopy (s : State) (c : Nat) (e : CopyEntry) : State :=
  let s := if e.unacked.isEmpty then s else s.dropAllDying
  let k := s.core c
  (s.setCore c ((k.setMap e.map (BitVec.allOnes 4096)).setCopyQueue e.queue ((k.copyQueue e.queue).filter fun o => o.id != e.id))).afterEntry c

/-- A copy fault after issue: the entry stops, every map bit is set, and a record of disposition C is written (R436, R461). -/
def State.copyFault (s : State) (cap : Capsule) (c : Nat) (e : CopyEntry) (cls detail addr : Nat) : State :=
  let aux := e.queue % 4 + e.map % 2 ^ 12 * 2 ^ 4 + (e.undone.headD 0) % 2 ^ 12 * 2 ^ 16
  (s.reportFault cap.inst c e.member e.pc e.insn 1 ⟨cls, detail, aux, addr, false⟩ e.handler).finishCopy c e

/-- Meet what stops a copy for now, or go on: an absent page stops the entry with a record, an error ends the capsule
(R155, R224, R434, R437). -/
def State.copyMeet (s : State) (cap : Capsule) (c : Nat) (e : CopyEntry) (chunk : Nat) (reads writes : List Run)
    (go : State → State) : State :=
  let obstacle := match s.obstacle? cap e.member false reads with
    | some o => some o
    | none => s.obstacle? cap e.member true writes
  match obstacle with
  | none => go s
  | some .wait => s
  | some (.page ext page) =>
    if cap.stage = .completing then (s.drainRecord cap.inst c e.member e.pc e.insn e.queue chunk page e.handler).finishCopy c e
    else (s.setCopy c { e with waitPage := some (ext, page) }).pageRecord cap.inst c e.member e.pc e.insn e.queue chunk page e.handler
  | some (.error code ca) =>
    ((s.afterEngError cap c e.member ca).engineError cap.inst c e.member e.pc e.insn code ca e.handler).finishCopy c e
  -- the home slice refuses the write (R426, R428; DESIGN CHOICE, log 105)
  | some (.marked _ ca) => s.copyFault cap c e 7 6 ca

/-- A frame leaves a port: under MACsec it takes the next packet number of the association (R372). -/
def EthPort.sendFrame (v : EthPort) : EthPort :=
  match v.txSa? with
  | some i =>
    let e := (SMap.get 0 v.sas i).toNat
    if v.macsec then { v with sas := SMap.put v.sas i (BitVec.ofNat 512 (setBits e 384 32 (bits e 384 32 + 1))) } else v
  | none => v

/-- What leaves for a peer goes to a port, the peer's queue pair, with its remote key, at RBASE and the local address (R370). -/
def State.toPeer (s : State) (addr b : Nat) (out : Nat → Nat → Nat → Nat → Nat → HostOut) : State :=
  let pkg := devPkg addr
  let port := s.chunkPort pkg b
  let o := out pkg port (s.peerField pkg 24 3) (s.peerField pkg 28 4) (s.peerField pkg 32 8 + devLocal addr)
  { s with host := { s.host with
      out := s.host.out ++ [o]
      eth := Vector.ofFn fun i => if i.val = port then s.host.eth[i].sendFrame else s.host.eth[i] } }

/-- A device address on a peer. -/
def State.onPeer (s : State) (addr : Nat) : Bool := s.leaves addr && devSpace addr != 4 && isPeer (devPkg addr)

/-- Runs of device addresses joined where one follows the other. -/
def joinRuns : List Run → List Run
  | [] => []
  | r :: l => match joinRuns l with
    | q :: rest => if r.1 + r.2 = q.1 then (r.1, r.2 + q.2) :: rest else r :: q :: rest
    | [] => [r]

/-- The reads of chunk `b` from a peer go out: one RDMA READ for each run of its source (R370). -/
def State.sendReads (s : State) (cap : Capsule) (member b : Nat) (runs : List Run) : State :=
  let far := (runs.flatMap unitsOf).filterMap fun u => match s.engAt cap member u.1 with
    | .at addr _ => if s.onPeer addr then some (addr, u.2) else none
    | _ => none
  (joinRuns far).foldl (fun (s : State) r => s.toPeer r.1 b fun peer port qpn rkey a => .rdmaRead peer port qpn rkey a r.2) s

/-- Read some runs of a copy; a peer's memory is not the part's: free bytes come back (R370; DESIGN CHOICE, log 6). -/
def State.copyRead (s : State) (cap : Capsule) (core member : Nat) (runs : List Run) : EngRead :=
  (runs.flatMap unitsOf).foldl (fun (r : EngRead) u =>
    match r.s.engAt cap member u.1 with
    | .at addr ext =>
      if r.s.onPeer addr then
        ⟨r.bytes ++ freeBytes r.s.freeCount u.2, r.guard || (ext.map (·.guard)).getD false, { r.s with freeCount := r.s.freeCount + 1 }⟩
      else
        let q := r.s.engReadUnit cap core member u
        ⟨r.bytes ++ q.bytes, r.guard || q.guard, q.s⟩
    | _ =>
      let q := r.s.engReadUnit cap core member u
      ⟨r.bytes ++ q.bytes, r.guard || q.guard, q.s⟩) ⟨[], false, s⟩

/-- Bytes to store from a capsule address on, within one 64-byte unit, with their guard bit. -/
structure CopyWrite where
  ca : Nat
  data : List Byte
  guard : Bool

/-- A write covers a byte. -/
def CopyWrite.covers (w : CopyWrite) (ca : Nat) : Bool := decide (w.ca ≤ ca ∧ ca < w.ca + w.data.length)

/-- The writes of a chunk to the 64-byte unit of one of them. -/
def unitWrites (l : List CopyWrite) (w : CopyWrite) : List CopyWrite := l.filter fun v => v.ca / 64 == w.ca / 64

/-- The OR of the guard bits of what supplies a unit (R350). -/
def unitGuardOf (l : List CopyWrite) (w : CopyWrite) : Bool := (unitWrites l w).any (·.guard)

/-- Bytes of a unit that the writes `l` of a chunk replace together: 64 when they fill it. A reduction writes its elements one by
one, and so never a whole line (DEDUCED, log 37). -/
def unitWhole (reduce : Bool) (l : List CopyWrite) (w : CopyWrite) : Nat :=
  if reduce then 0
  else if (List.range 64).all fun i => (unitWrites l w).any fun v => v.covers (w.ca / 64 * 64 + i) then 64 else 0

/-- Perform a write of chunk `b` of a copy at its home, one of the writes `l` (R162, R167, R350, R353, R370). -/
def State.copyPut (s : State) (cap : Capsule) (core : Nat) (e : CopyEntry) (b : Nat) (l : List CopyWrite) (w : CopyWrite) : State :=
  match s.engAt cap e.member w.ca with
  | .at addr ext =>
    if s.onPeer addr then s.toPeer addr b fun peer port qpn rkey a => .rdma peer port qpn rkey a w.data
    else s.engPut cap core e.id addr ext w.data (unitWhole (e.kind == .credc) l w) (unitGuardOf l w)
  | _ => s

/-- The source and destination boxes share bytes (R350). -/
def CopyEntry.overlaps (e : CopyEntry) : Bool :=
  let dst := (List.range e.chunks).flatMap e.chunkRuns
  e.crRuns.any fun r => dst.any (runsMeet r)

/-- The codes of a piece's source as they stand now, with their guard bit. -/
def State.pieceCodes (s : State) (cap : Capsule) (c : Nat) (e : CopyEntry) (p : Piece) : List Nat × Bool × State :=
  let at_ := e.srcAt p
  let r := s.copyRead cap c e.member [elemsRun e.ts at_ p.n]
  (elemCodes e.ts at_ p.n r.bytes, r.guard, r.s)

/-- The codes of a piece as the entry found them when it began; none when the boxes share no byte. -/
def CopyEntry.oldCodes (e : CopyEntry) (p : Piece) : Option (List Nat) :=
  match e.kept.find? fun o => o.1 == p.row with
  | some (_, row) => if e.kind = .cseal then none
    else
      let first := e.srcCoords p.row
      some ((elemCodes e.ts first (p.j + p.n) row).drop p.j)
  | none => none

/-- In an overlapping copy each element takes its source's old or new value, a free choice (R350; logs 6, 11). -/
def CopyEntry.chosen (e : CopyEntry) (draw : Nat) (p : Piece) (now : List Nat) : List Nat :=
  match e.oldCodes p with
  | none => now
  | some old => now.mapIdx fun i v => if Config.freeBit (draw + i) then v else old.getD i v

/-- The bytes of a run as the earlier writes of the same chunk leave them: rows may alias, and elements of half a byte share their
byte. -/
def State.bytesUnder (s : State) (cap : Capsule) (e : CopyEntry) (l : List CopyWrite) (r : Run) : List Byte :=
  (List.range r.2).map fun i =>
    match l.reverse.find? fun w => w.covers (r.1 + i) with
    | some w => w.data.getD (r.1 + i - w.ca) 0
    | none => s.homeByte cap e.member (r.1 + i)

/-- The guard bit of what supplies the element of an overlapping copy (R350): of the extent, and of the line that held the old value, or
of what now stands in the source, written by this chunk (`l`) or found there with guard bit `found`. -/
def State.overlapGuard (cap : Capsule) (e : CopyEntry) (l : List CopyWrite) (r : Run) (old found : Bool) : Bool :=
  cap.extsGuarded e.member [r] ||
    (if old then (unitsOf r).any fun u => e.keptGuards.contains (u.1 / 64)
     else (List.range r.2).any fun i => match l.reverse.find? fun w => w.covers (r.1 + i) with
       | some w => unitGuardOf l w
       | none => found)

/-- The write of a piece of COPY, CGATH, CSCAT or CREDC after the writes `l` of the same chunk (DEDUCED, log 38). A reduction combines
one arrival at a time (R353). In an overlapping copy an element's source may have been written before it: then it takes the old
value or the value written, which is its source's last (R350). -/
def State.pieceWrite (s : State) (cap : Capsule) (c : Nat) (e : CopyEntry) (l : List CopyWrite) (p : Piece) :
    CopyWrite × State :=
  let (found, seen, s1) := s.pieceCodes cap c e p
  let src := e.srcAt p
  let now := if e.kept.isEmpty then found else elemCodes e.ts src p.n (s.bytesUnder cap e l (elemsRun e.ts src p.n))
  let codes := e.chosen s1.freeCount p now
  let guard := if e.kept.isEmpty then seen
    else State.overlapGuard cap e l (elemsRun e.ts src p.n) ((e.oldCodes p).isSome && !Config.freeBit s1.freeCount) seen
  let s2 := if (e.oldCodes p).isSome then { s1 with freeCount := s1.freeCount + p.n } else s1
  let at_ := e.dstAt p
  let run := elemsRun e.td at_ p.n
  let old := s.bytesUnder cap e l run
  let res := match e.kind with
    | .credc => List.zipWith e.combine (elemCodes e.td at_ p.n old) codes
    | _ => codes.map e.convert
  (⟨run.1, layCodes e.td at_ old res, guard⟩, s2)

/-- The page of a paged copy that a piece belongs to, R352. -/
def CopyEntry.pageOf (e : CopyEntry) (p : Piece) : Nat := (e.offsets p.row).getD e.pageDim 0

/-- The pieces of a chunk in the order in which they are written: an overlapping copy goes element by element, upwards or downwards
by a free choice (R350; DESIGN CHOICE, log 11), a CSCAT within each of its pages, which it writes in ascending order (R352). -/
def CopyEntry.ordered (e : CopyEntry) (draw b : Nat) : List Piece :=
  if e.kept.isEmpty then e.pieces b
  else
    let l := (e.pieces b).flatMap fun p => (List.range p.n).map fun i => ⟨p.row, p.j + i, 1⟩
    if Config.freeBit draw then l
    else if e.kind = .cscat then (List.range (e.box.getD e.pageDim 0)).flatMap fun n => (l.filter fun p => e.pageOf p == n).reverse
    else l.reverse

/-- The writes of the rows of chunk `b`. -/
def State.rowWrites (s : State) (cap : Capsule) (c : Nat) (e : CopyEntry) (b : Nat) : List CopyWrite × State :=
  let start := if e.kept.isEmpty then s else { s with freeCount := s.freeCount + 1 }
  (e.ordered s.freeCount b).foldl (fun (a : List CopyWrite × State) p =>
    let (w, s') := a.2.pieceWrite cap c e a.1 p
    (a.1 ++ [w], s')) ([], start)

/-- The scale writes of a copy, with the chunk that holds its last byte (R347, R349). -/
def State.scaleWrites (s : State) (cap : Capsule) (c : Nat) (e : CopyEntry) : List CopyWrite × State :=
  (List.zip (e.scaleRuns e.ts e.srcCoords) (e.scaleRuns e.td e.dstCoords)).foldl (fun (a : List CopyWrite × State) r =>
    let q := a.2.copyRead cap c e.member [r.1]
    (a.1 ++ (unitsOf r.2).map (fun u => ⟨u.1, (q.bytes.drop (u.1 - r.2.1)).take u.2, q.guard⟩), q.s)) ([], s)

/-- The source runs of chunk `b`. -/
def CopyEntry.chunkReads (e : CopyEntry) (b : Nat) : List Run :=
  let scales := if b + 1 = e.chunks then e.scaleRuns e.ts e.srcCoords else []
  if e.kind = .cseal then
    (if b + 1 = e.chunks then [] else [(elemByte e.ts e.sc + 512 * b, 512)])
  else ((e.pieces b).map fun p => elemsRun e.ts (e.srcAt p) p.n) ++ scales

/-- The trailer of a CSEAL, R354 (DEDUCED, log 41). -/
def sealTrailer (owner label : Nat) (ct : List Byte) : List Byte :=
  let k := kmac256 (ownerKey owner) (ascii "cseal" ++ leBytes 8 label) 64
  let head := leBytes 8 label ++ leBytes 8 ct.length ++ List.replicate 16 0
  head ++ kmac256 (k.drop 32) (ct ++ head) 32

/-- The writes of chunk `b` of a CSEAL: ciphertext, or the trailer in the last chunk; every unit has a clear guard bit. -/
def State.sealWrites (s : State) (cap : Capsule) (c : Nat) (e : CopyEntry) (b : Nat) : List CopyWrite × CopyEntry × State :=
  let k := kmac256 (ownerKey cap.hdr.owner) (ascii "cseal" ++ leBytes 8 e.ge) 64
  let r := s.copyRead cap c e.member (e.chunkReads b)
  let data := if b + 1 = e.chunks then
      sealTrailer cap.hdr.owner e.ge ((e.kept.flatMap (·.2)))
    else aesCtr (k.take 32) (32 * b) r.bytes
  let e' := if b + 1 = e.chunks then e else { e with kept := SMap.put e.kept b data }
  let from_ := elemByte e.td e.dc + 512 * b
  ((unitsOf (from_, data.length)).map fun u => ⟨u.1, (data.drop (u.1 - from_)).take u.2, false⟩, e', r.s)

/-- Perform the writes of a chunk in order. -/
def State.performWrites (s : State) (cap : Capsule) (c : Nat) (e : CopyEntry) (b : Nat) (l : List CopyWrite) : State :=
  l.foldl (fun (s : State) w => s.copyPut cap c e b l w) s

/-- Every write of chunk `b`. -/
def State.chunkWrites (s : State) (cap : Capsule) (c : Nat) (e : CopyEntry) (b : Nat) : List CopyWrite × State :=
  let (l, s1) := s.rowWrites cap c e b
  if b + 1 = e.chunks then
    let (l2, s2) := s1.scaleWrites cap c e
    (l ++ l2, s2)
  else (l, s1)

/-- The first class 8 failure of the units of a chunk (R163, R461). -/
def State.lateGuard (s : State) (cap : Capsule) (e : CopyEntry) (l : List CopyWrite) : Option FaultInfo :=
  l.findSome? fun w => if w.guard then s.copyGuard cap e.member w.ca false else none

/-- A chunk is written: its first-level cache lines go, its map bit is set, and after the last chunk the entry is complete
(R349). -/
def State.chunkDone (s : State) (cap : Capsule) (c : Nat) (e : CopyEntry) (b : Nat) : State :=
  let s1 := s.dropRuns cap c e.member (e.cwRuns b)
  let e' := { e with done := e.done ++ [b] }
  let k := s1.core c
  let s2 := (s1.setCore c (k.setMap e.map (k.map e.map ||| BitVec.twoPow 4096 b))).setCopy c e'
  if e'.undone.isEmpty then s2.finishCopy c e' else s2.pump c

/-- The performed writes of a chunk are not acknowledged yet: crossing-cache copies are being invalidated, or, for a qn copy, another
package or a peer has to acknowledge (R167, R349, R370). -/
def State.awaitsAck (s : State) (cap : Capsule) (e : CopyEntry) (b : Nat) : Bool :=
  s.invalidating cap e.member (e.cwRuns b) ||
    (e.queue == 2 && (s.unitAddrs cap e.member (e.cwRuns b)).any fun a => s.leaves a && devSpace a != 4)

/-- A chunk is written at its homes; it is done at once, or once it is acknowledged (R349). -/
def State.chunkWritten (s : State) (cap : Capsule) (c : Nat) (e : CopyEntry) (b : Nat) : State :=
  if s.awaitsAck cap e b then s.setCopy c { e with unacked := e.unacked ++ [b] } else s.chunkDone cap c e b

/-- The port by which the acknowledgement of a chunk comes back from a peer drops it: the frame fails its MACsec check for want of a
receive association (R372; DESIGN CHOICE, log 100). -/
def State.ackDropped? (s : State) (cap : Capsule) (e : CopyEntry) (b : Nat) : Option Nat :=
  (s.unitAddrs cap e.member (e.cwRuns b)).findSome? fun a =>
    if s.onPeer a then
      let p := s.chunkPort (devPkg a) b
      match s.host.eth[p]? with
      | some v => if v.secure && v.rxSa?.isNone then some p else none
      | none => none
    else none

/-- A frame that a port drops is counted (R372). -/
def State.countDrop (s : State) (p : Nat) : State :=
  { s with host := { s.host with eth := Vector.ofFn fun i =>
      if i.val = p then { s.host.eth[i] with drops := (s.host.eth[i].drops + 1) % 2 ^ 32 } else s.host.eth[i] } }

/-- The acknowledgement of a written chunk arrives: the invalidations are complete, and its map bit is set (R167, R349, R370). An
acknowledgement that its port drops leaves the peer's RDMA in error (R436; DESIGN CHOICE, log 100). -/
def State.ackChunk (s : State) (cap : Capsule) (c : Nat) (e : CopyEntry) (b : Nat) : State :=
  let e' := { e with unacked := e.unacked.filter fun a => a != b }
  let s1 := (s.dropDyings cap e.member (e.cwRuns b)).setCopy c e'
  match s.ackDropped? cap e b with
  | some p => (s1.countDrop p).copyFault cap c e' 15 3 0
  | none => s1.chunkDone cap c e' b

/-- The effect of chunk `b` once nothing stops it. -/
def State.writeChunk (s : State) (cap : Capsule) (c : Nat) (e : CopyEntry) (b : Nat) : State :=
  match s.runsRefused cap e.queue e.member (e.chunkReads b ++ e.cwRuns b) with
  | some d => ({ s with freeCount := s.freeCount + 1 }).copyFault cap c e 15 d 0
  | none =>
    let s := ({ s with freeCount := s.freeCount + 1 }).sendReads cap e.member b (e.chunkReads b)
    if e.kind = .cseal then
      let (l, e', s1) := s.sealWrites cap c e b
      ((s1.setCopy c e').performWrites cap c e' b l).chunkWritten cap c e' b
    else
      let (l, s1) := s.chunkWrites cap c e b
      match s1.lateGuard cap e l with
      | some i => s1.copyFault cap c e 8 i.detail i.addr
      | none => (s1.performWrites cap c e b l).chunkWritten cap c e b

/-- The source rows that an overlapping copy keeps as it begins; none has a bad index (R350, R436; DESIGN CHOICE, log 11). -/
def CopyEntry.keptRows (e : CopyEntry) : List (Nat × Run) :=
  if e.overlaps && (e.kind == .copy || e.kind == .cgath || e.kind == .cscat) then
    ((List.range e.rows).filter fun k => !e.badPage ⟨k, 0, 1⟩).map fun k => (k, elemsRun e.ts (e.srcCoords k) e.rowElems)
  else []

/-- The rows of the source box as they stand, with the units among them that are guarded. -/
def State.keepRows (s : State) (cap : Capsule) (c : Nat) (e : CopyEntry) : CopyEntry × State :=
  e.keptRows.foldl (fun (a : CopyEntry × State) r =>
    let q := a.2.copyRead cap c e.member [r.2]
    let guarded := ((unitsOf r.2).filter (a.2.unitGuarded cap e.member)).map fun u => u.1 / 64
    ({ a.1 with kept := a.1.kept ++ [(r.1, q.bytes)], keptGuards := a.1.keptGuards ++ guarded }, q.s)) (e, s)

/-- An entry begins: its indexes are read (R352). -/
def State.readIndexes (s : State) (cap : Capsule) (c : Nat) (e : CopyEntry) : CopyEntry × State :=
  let r := (s.sendReads cap e.member 0 e.indexRuns).copyRead cap c e.member e.indexRuns
  ({ e with begun := true, indexes := unpackCodes 32 r.bytes }, r.s)

/-- What an entry reads as it begins: its indexes, and the rows that it keeps once they are known. -/
def State.beginReads (s : State) (cap : Capsule) (c : Nat) (e : CopyEntry) : List Run :=
  e.indexRuns ++ (s.readIndexes cap c e).1.keptRows.map (·.2)

/-- An entry begins, unless what it reads is refused (R352, R370, R436). -/
def State.beginCopy (s : State) (cap : Capsule) (c : Nat) (e : CopyEntry) : State :=
  match s.runsRefused cap e.queue e.member (s.beginReads cap c e) with
  | some d => ({ s with freeCount := s.freeCount + 1 }).copyFault cap c e 15 d 0
  | none =>
    let (e1, s1) := s.readIndexes cap c e
    let (e2, s2) := (s1.sendReads cap e.member 0 (e1.keptRows.map (·.2))).keepRows cap c e1
    s2.setCopy c e2

/-- The head entry of a copy queue begins once earlier entries, joins, fences and the scoreboard allow (R173-R175). -/
def execEngineEntryBegin (core queue : Nat) (s : State) : Host.Outcome State Fault Refusal :=
  match s.copyHead? core queue with
  | none => .next s
  | some (cap, e) =>
    let reads := s.beginReads cap core e
    eventAt (decide (queue < 3) && !e.begun && e.waitPage.isNone && !(s.core core).joined queue e.id &&
        s.entryFree cap core e.slot e.slotSerial e.id e.member .cr .cw e.crRuns e.dstRuns)
      (s.runsExist cap e.member reads)
      (fun s => s.copyMeet cap core e 0 reads [] fun s => s.beginCopy cap core e) s

/-- A chunk may be written now: not yet done, the trailer of a CSEAL last, and pages that a CSCAT writes twice in ascending
order (R350, R352, R354). -/
def CopyEntry.mayWrite (e : CopyEntry) (b : Nat) : Bool :=
  decide (b < e.chunks) && !e.done.contains b && !e.unacked.contains b && (e.kind != .cseal || decide (b + 1 < e.chunks) || decide (e.undone = [b])) &&
    (e.kind != .cscat || !(e.undone.any fun a => decide (a < b) && (e.chunkRuns a).any fun r => (e.chunkRuns b).any (runsMeet r)))

/-- A chunk is written at its homes and its map bit is set, R349, R350. A chunk with an index outside its tensor fails before anything of
it is read or written (R436); the event of a chunk that awaits its acknowledgement is that acknowledgement. -/
def execCopyChunkWrite (core queue chunk : Nat) (s : State) : Host.Outcome State Fault Refusal :=
  match s.copyHead? core queue with
  | none => .next s
  | some (cap, e) =>
    let may := decide (queue < 3) && e.begun && e.waitPage.isNone && e.mayWrite chunk && !s.engineStopped core
    if e.unacked.contains chunk then event (decide (queue < 3)) (fun s => s.ackChunk cap core e chunk) s
    else if may && (e.pieces chunk).any e.badPage then .next (s.copyFault cap core e 15 1 0)
    else eventAt may (s.runsExist cap e.member (e.chunkReads chunk ++ e.cwRuns chunk))
      (fun s => s.copyMeet cap core e chunk (e.chunkReads chunk) (e.cwRuns chunk) fun s => s.writeChunk cap core e chunk) s

end Sys2Proof.Machine
end

