-- ==== Sys2Proof/Machine/Barrier.lean ====
section
/-! DEFINITION. Barriers (R92, R93, R452-R456) and the end of a task (R264, R453, R454). -/

namespace Sys2Proof.Machine

/-- The core state of a role of group 0: its core, or its image while it is parked (R456). -/
def State.coreOrImage (s : State) (cap : Capsule) (core : Nat) : Core :=
  match cap.parked.find? fun p => cap.coreOf? 0 p.role == some core with
  | some p => p.saved
  | none => s.core core

/-- Replace it. -/
def State.setCoreOrImage (s : State) (cap : Capsule) (core : Nat) (k : Core) : State :=
  match s.capsule? cap.inst with
  | none => s
  | some cap =>
    if cap.parked.any (fun p => cap.coreOf? 0 p.role == some core) then
      let f := fun (p : Parked) => if cap.coreOf? 0 p.role = some core then { p with saved := k } else p
      s.setCapsule { cap with parked := cap.parked.map f }
    else s.setCore core k

/-- A core's membership of a group. -/
def Core.membership? (k : Core) (group : Nat) : Option Membership := k.members.find? fun m => m.group == group

/-- Change a core's membership of a group. -/
def Core.mapMembership (k : Core) (group : Nat) (f : Membership → Membership) : Core :=
  { k with members := k.members.map fun m => if m.group = group then f m else m }

/-- A member's arrival counts in the current phase: it has arrived, or has abandoned the group (R453). -/
def State.counts (s : State) (cap : Capsule) (group core : Nat) : Bool :=
  match (s.coreOrImage cap core).membership? group with
  | some m => m.arrived || m.abandoned
  | none => false

/-- A group on the row and column lines, R93. -/
def Group.onLines (g : Group) : Bool := decide (g.shape ≤ 1)

/-- Change a group of a capsule of the machine. -/
def State.mapGroup (s : State) (inst group : Nat) (f : Group → Group) : State :=
  match s.capsule? inst with
  | some cap => s.setCapsule { cap with groups := cap.groups.mapIdx fun i g => if i = group then f g else g }
  | none => s

/-- The children of a role in the combining tree of `n` roles, R93. -/
def treeChildren (n role : Nat) : List Nat := ((List.range 8).map fun i => 8 * role + 1 + i).filter fun r => decide (r < n)

/-- A role of a message-combined barrier whose own arrival and whose children's are all counted passes its count on: to
role (i - 1) div 8, or, at role 0, the phase is complete (R93) (DEDUCED, log 55). -/
def State.combine (s : State) (inst group role : Nat) : State :=
  match s.capsule? inst with
  | none => s
  | some cap =>
    match cap.groups[group]? with
    | none => s
    | some g =>
      match g.cores[role]? with
      | none => s
      | some core =>
        if s.counts cap group core && (treeChildren g.cores.length role).all (fun r => g.counted.contains (role, r)) then
          if role = 0 then s.mapGroup inst group fun g => { g with complete := some (s.cycOf core) }
          else
            s.sendClass3 inst core (g.cores.getD ((role - 1) / 8) 0)
              (s.coreOrImage cap (g.cores.getD ((role - 1) / 8) 0)).role (.barrier group role none)
        else s

/-- The combining slot of a child's report is taken, or a ticket for it stands (R97): the logic of a role has one slot for each of its
children (DEDUCED, log 55). -/
def Group.slotTaken (g : Group) (role child : Nat) : Bool :=
  g.counted.contains (role, child) || g.tickets.any fun t => t.1 == child

/-- Tickets that the logic of a role has issued; the reports that they stand for are those of its children. -/
def Group.ticketsAt (g : Group) (role : Nat) : Nat := (g.tickets.filter fun t => (t.1 - 1) / 8 == role).length

/-- A child's report takes its slot and is counted (R93). -/
def State.takeReport (s : State) (inst group role child : Nat) : State :=
  (s.mapGroup inst group fun g => { g with counted := g.counted ++ [(role, child)] }).combine inst group role

/-- A child's report arrives at its parent's logic: counted, refused with a ticket, or refused without one (R97, R458). -/
def State.arriveReport (s : State) (p : Packet) (g : Group) (group role child : Nat) : State :=
  if g.slotTaken role child = false then (s.dropPacket p.id).takeReport p.inst group role child
  else if g.ticketsAt role < 64 then
    (s.mapGroup p.inst group fun g => { g with tickets := g.tickets ++ [(child, ⟨p.id, false⟩)] }).setPacket
      { p with state := .ticketed }
  else s.setPacket { p with state := .refused (s.cycOf p.src) }

/-- A freed combining slot is reserved for its oldest ticket, whose holder is sent a grant (R97, R476). -/
def State.grantSlots (s : State) (inst group role core : Nat) : State :=
  match (s.capsule? inst).bind fun cap => cap.groups[group]? with
  | none => s
  | some g => g.tickets.foldl (fun (s : State) t =>
      match (s.capsule? inst).bind (fun cap => cap.groups[group]?), s.packet? t.2.pkt with
      | some g, some p =>
        if t.2.granted || (t.1 - 1) / 8 != role || g.counted.contains (role, t.1) ||
            g.tickets.any fun u => u.1 == t.1 && u.2.granted then s
        else
          let f := fun (u : Nat × Ticket) => if u.2.pkt = p.id then (u.1, { u.2 with granted := true }) else u
          (((s.mapGroup inst group fun g => { g with tickets := g.tickets.map f }).setPacket { p with state := .granted }).sendTicketGrant
            inst core p.src p.id)
      | _, _ => s) s

/-- A granted report is sent again and takes the slot that is reserved for it (R97). -/
def State.resendReport (s : State) (p : Packet) (g : Group) (group role child : Nat) : State :=
  if g.tickets.any fun t => t.2.pkt == p.id && t.2.granted then
    ((s.mapGroup p.inst group fun g => { g with tickets := g.tickets.filter fun t => t.2.pkt != p.id }).dropPacket p.id).takeReport
      p.inst group role child
  else s.arriveReport p g group role child

/-- An arrival of a core at a group has been recorded: on lines the phase is complete from the cycle in which the last
member has arrived (R93); otherwise the count goes up the tree. -/
def State.afterArrival (s : State) (inst group core : Nat) : State :=
  match s.capsule? inst with
  | none => s
  | some cap =>
    match cap.groups[group]? with
    | none => s
    | some g =>
      if g.onLines then
        if g.complete.isNone && g.cores.all (fun c => s.counts cap group c) then
          s.mapGroup inst group fun g => { g with complete := some (s.cycOf core) }
        else s
      else match (s.core core).membership? group with
        | some m => s.combine inst group m.role
        | none => s

/-- BARA, R92: the first arrival of the core in the phase; a broken group takes none (R454). -/
def State.arrive (s : State) (c group : Nat) : State :=
  match s.capsuleOf? c, (s.core c).membership? group with
  | some cap, some m =>
    match cap.groups[group]? with
    | some g =>
      if g.broken || m.arrived then s
      else
        let s1 := s.setCore c ((s.core c).mapMembership group fun m =>
          { m with arrived := true, unclaimed := false, everArrived := true, abandoned := false })
        -- in the tree the arrival of an abandoned member has been counted and sent up already (R453)
        if m.abandoned && !g.onLines then s1 else s1.afterArrival cap.inst group c
    | none => s
  | _, _ => s

/-- The waits of a core on the current phase of a group. -/
def Core.waiting (k : Core) (group : Nat) : Bool :=
  k.slots.toList.any fun sl => match sl.bar with
    | some b => b.group == group && b.result.isNone
    | none => false

/-- A phase completes at one member with a status, R92. -/
def Core.completePhase (k : Core) (group status : Nat) : Core :=
  let waited := k.waiting group
  let k := k.mapMembership group fun m =>
    { m with sense := !m.sense, arrived := false, unclaimed := !waited, status := if waited then m.status else status }
  let f := fun (sl : Slot) => match sl.bar with
    | some b => if b.group = group ∧ b.result = none then { sl with bar := some { b with result := some status } } else sl
    | none => sl
  { k with slots := k.slots.map f }

/-- A phase completes at every member at once: on lines, or when the barrier breaks (R92, R454); an abandoned member counts again in
the next phase, which is complete from now when every member is one (R453). -/
def State.completePhase (s : State) (inst group status : Nat) : State :=
  match s.capsule? inst with
  | none => s
  | some cap =>
    match cap.groups[group]? with
    | none => s
    | some g =>
      let s1 := g.cores.foldl (fun s c => s.setCoreOrImage cap c ((s.coreOrImage cap c).completePhase group status)) s
      let again := g.onLines && g.cores.all fun c => s1.counts cap group c
      s1.mapGroup inst group fun g => { g with complete := if again then some (s.cycOf (g.cores.headD 0)) else none, counted := [] }

/-- A phase completes at one role of a message-combined barrier, which sends the completion on to the roles below it and counts
afresh; an abandoned member counts again at once (R93, R453). -/
def State.completeRole (s : State) (inst group role status : Nat) : State :=
  match s.capsule? inst with
  | none => s
  | some cap =>
    match cap.groups[group]? with
    | none => s
    | some g =>
      let core := g.cores.getD role 0
      let s1 := s.setCoreOrImage cap core ((s.coreOrImage cap core).completePhase group status)
      let s2 := s1.mapGroup inst group fun g =>
        { g with
          complete := if role = 0 then none else g.complete
          counted := g.counted.filter fun e => e.1 != role }
      let s3 := ((treeChildren g.cores.length role).foldl (fun (s : State) r =>
        let d := g.cores.getD r 0
        s.sendClass3 inst core d (s.coreOrImage cap d).role (.barrier group role (some status))) s2).grantSlots inst group role core
      if s3.counts cap group core then s3.combine inst group role else s3

/-- The status of a phase that completes: 1 with an abandoned member, R453. -/
def State.phaseStatus (s : State) (cap : Capsule) (group : Nat) (g : Group) : Nat :=
  if g.cores.any fun c => match (s.coreOrImage cap c).membership? group with
      | some m => m.abandoned && !m.arrived
      | none => false
  then 1 else 0

/-- A core that holds no task in any slot and no entry in its arrival queue or overflow lane (R453). -/
def Core.isEmptied (k : Core) : Bool :=
  k.slots.toList.all (fun sl => sl.state == .empty) && k.queue.isEmpty && k.lane.isEmpty

/-- A slot is freed: the task's registers cease to exist, and a result still bound for one of them will be discarded,
since the slot's task number no longer agrees (R264). -/
def State.freeSlot (s : State) (c n : Nat) : State :=
  let k := (s.core c).clearMarks n
  s.setCore c { k.setSlot n Slot.fresh with portCount := if k.port = n % 8 then 0 else k.portCount }

/-- An EXIT that empties a member core abandons the groups it has arrived at before, R453. -/
def State.abandon (s : State) (c : Nat) : State :=
  match s.capsuleOf? c with
  | none => s
  | some cap =>
    if (s.core c).isEmptied then
      (s.core c).members.foldl (fun s m =>
        if !m.arrived && m.everArrived && !m.abandoned then
          (s.setCore c ((s.core c).mapMembership m.group fun m => { m with abandoned := true })).afterArrival cap.inst m.group c
        else s) s
    else s

/-- A task ends as by EXIT, R264, R453. -/
def State.endTask (s : State) (c n : Nat) : State := (s.freeSlot c n).abandon c

/-- A group is broken: it counts nothing any more, and the reports that wait for its slots are dropped (R454). -/
def State.setBroken (s : State) (inst group : Nat) : State :=
  let waits := fun (p : Packet) => p.inst == inst && (match p.state, p.body with
    | .ticketed, .barrier k _ _ | .granted, .barrier k _ _ | .refused _, .barrier k _ _ => k == group
    | _, _ => false)
  { s with packets := s.packets.filter fun p => !waits p }.mapGroup inst group fun g =>
    { g with broken := true, complete := none, counted := [], tickets := [] }

/-- A task ended by END that empties its core breaks the groups where the core has not arrived, R454. -/
def State.breakGroups (s : State) (c pc member : Nat) (insn : List Byte) : State :=
  match s.capsuleOf? c with
  | none => s
  | some cap =>
    if (s.core c).isEmptied then
      (s.core c).members.foldl (fun s m =>
        if m.arrived then s
        else
          let s1 := (s.completePhase cap.inst m.group 2).setBroken cap.inst m.group
          s1.reportFault cap.inst c member pc insn 1 ⟨12, 1, m.group, 0, false⟩) s
    else s

/-- A wait begins on a group: BARTO.LIMIT is read now (R266). -/
def State.beginWait (s : State) (c n group : Nat) (result : Option Nat) : State :=
  let sl := s.slot c n
  s.setSlot c n { sl with bar := some ⟨group, s.cycOf c, (s.core c).barto.toNat, result⟩ }

/-- How a wait that begins on a group of the core stands: it passes at once with a status, or waits (R92, R454). -/
def State.waitNow (s : State) (c group : Nat) : Option Nat :=
  match s.capsuleOf? c, (s.core c).membership? group with
  | some cap, some m =>
    if (cap.groups[group]?.map (·.broken)).getD false then some 2
    else if !m.arrived && m.unclaimed then some m.status else none
  | _, _ => none

/-- A completion claimed: the unclaimed bit is cleared. -/
def State.claimPhase (s : State) (c group : Nat) : State :=
  s.setCore c ((s.core c).mapMembership group fun m => { m with unclaimed := false })

end Sys2Proof.Machine
end

