-- ==== Sys2Proof/Machine/Control.lean ====
section
/-! DEFINITION. Control transfer, the end of a task, traps (R261-R264, R267, R417, R418). -/

namespace Sys2Proof.Machine

open Sys2Proof

/-- Offset `t` begins an instruction when its block is decoded from offset `o` on, R230, R261. -/
def beginsAt (code : List Byte) (t : Nat) : Nat → Nat → Bool
  | 0, _ => false
  | n + 1, o =>
    if o = t then true
    else if t < o then false
    else
      let len := (code.getD o 0).toNat % 4
      if len = 3 then false else beginsAt code t n (o + lenBytes len)

/-- Why a target is invalid, R261, R417; `wide` for BRX, RET and JUMP, whose target comes from a register. -/
def targetFault (cap : Capsule) (wide : Bool) (t : Nat) : Option FaultInfo :=
  if t % 4 ≠ 0 then some ⟨5, 1, t, 0, false⟩
  else if wide ∧ 2 ^ 32 ≤ t then some ⟨5, 2, t, 0, false⟩
  else if cap.hdr.codelen ≤ t then some ⟨5, 3, t, 0, false⟩
  else if beginsAt cap.code t 9 (t / 32 * 32) then none
  else some ⟨5, 4, t, 0, false⟩

/-- Why a pc-relative target is invalid: an exact target below 0 starts no instruction; AUX holds its low 64 bits (R8, R238,
R417). -/
def branchFault (cap : Capsule) (t : Int) : Option FaultInfo :=
  if t < 0 then some ⟨5, 4, (t % 2 ^ 64).toNat, 0, false⟩ else targetFault cap false t.toNat

/-- Branch to the pc-relative target, R262. -/
def execBra (h : Head) (f : FmtB) : State → Host.Outcome State Fault Refusal :=
  issue h 8 fun x s =>
    let t := f.target x.pc
    checked [branchFault x.cap t] (.jump s t.toNat)

/-- Branch to the target in a general register, R262. -/
def execBrx (h : Head) (f : FmtA) : State → Host.Outcome State Fault Refusal :=
  issue h 8 fun x s =>
    let t := (x.reg f.a).toNat
    checked [readMarked x [f.a.toNat], heldBy (x.guard f.a) (targetFault x.cap true t)] (.jump s t)

/-- The link pc + 8 with a clear guard bit, then the branch, R262. A faulting CALL writes no link (R417). -/
def execCall (h : Head) (f : FmtB) : State → Host.Outcome State Fault Refusal :=
  issue h 8 fun x s =>
    let t := f.target x.pc
    checked [writeMarked x [f.d.toNat], branchFault x.cap t]
      (.jump (x.setReg s f.d.toNat (BitVec.ofNat 64 (x.pc + 8)) false) t.toNat)

/-- Branch to the target in the link register, R262. -/
def execRet (h : Head) (f : FmtA) : State → Host.Outcome State Fault Refusal :=
  issue h 8 fun x s =>
    let t := (x.reg f.a).toNat
    checked [readMarked x [f.a.toNat], heldBy (x.guard f.a) (targetFault x.cap true t)] (.jump s t)

/-- Decrement the counter and branch while it is nonzero; the counter keeps its guard bit, R263. -/
def execLoop (h : Head) (f : FmtB) : State → Host.Outcome State Fault Refusal :=
  issue h 8 fun x s =>
    let d := f.d.toNat
    let v := x.t.reg d - 1
    let t := f.target x.pc
    let s1 := x.setReg s d v (x.t.regGuard d)
    checked [readMarked x [d], writeMarked x [d], if v = 0 then none else branchFault x.cap t]
      (if v = 0 then .next s1 else .jump s1 t.toNat)

/-- The end of the task, R264. -/
def execExit (h : Head) (_f : FmtN) : State → Host.Outcome State Fault Refusal :=
  issue h 8 fun x s => .leave (s.endTask x.c x.n)

/-- An instruction that is a switch point whatever its marker: the task parks before it while it has results outstanding (R82, R415). -/
def atSwitchPoint (x : Cur) (s : State) (go : Cur → State → Verdict) : Verdict :=
  let s1 := s.setCore x.c (x.k.clearMarks x.n)
  if x.k.outstanding x.n then .leave (s1.endTurn x.c x.n .parked) else go { x with k := s1.core x.c } s1

/-- TRAP and BKPT: a switch point that waits for the task's results, then the precise event, R267, R418. -/
def trapBody (cls : Nat) (f : FmtN) (x : Cur) (s : State) : Verdict :=
  atSwitchPoint x s fun _ _ => .raise ⟨cls, f.imm.toNat, 0, 0, false⟩

/-- Program trap, R267. -/
def execTrap (h : Head) (f : FmtN) : State → Host.Outcome State Fault Refusal := issue h 8 (trapBody 1 f)

/-- Breakpoint, R267. -/
def execBkpt (h : Head) (f : FmtN) : State → Host.Outcome State Fault Refusal := issue h 8 (trapBody 2 f)

end Sys2Proof.Machine
end

