-- ==== Sys2Proof/Machine/System.lean ====
section
/-! DEFINITION. State registers (R110-R134) and MFS and MTS (R265, R266). -/

namespace Sys2Proof.Machine

open Sys2Proof

/-- TSR as MFS reads it: STEP follows the task's MMAT in progress (R110, R329). -/
def Cur.tsr (x : Cur) : Word :=
  match (x.k.slot x.n).mmat with
  | some e => match x.k.qm.find? fun q => q.id == e with
    | some q => (x.t.setStep q.step).tsr
    | none => (x.t.setStep 0).tsr
  | none => x.t.tsr

/-- CORE: up to four membership entries in ascending group number, R132. -/
def Core.coreReg (k : Core) : Nat :=
  let ms := (k.members.mergeSort fun a b => decide (a.group ≤ b.group)).take 4
  (ms.zipIdx.map fun (m, e) => (2 ^ 31 + m.group * 2 ^ 16 + m.role) * 2 ^ (32 * e)).sum

/-- CAPS, R131. -/
def State.capsReg (s : State) (c : Nat) (cap : Capsule) : Nat :=
  (if cap.merged then 2 ^ 28 else 0) + (if (s.core c).role = cap.hdr.super then 2 ^ 27 else 0) +
    (if cap.hdr.stock then 2 ^ 26 else 0) + (if cap.hdr.det then 2 ^ 25 else 0) + (if cap.hdr.prom then 2 ^ 24 else 0) +
    128 * 2 ^ 16 + (if s.smallCores.contains c then 24 else 32) * 2 ^ 8 + 0xB0

/-- WSPH of a layer, R128. -/
def Layer.wsph (l : Layer) : Nat :=
  let inSlot := l.wsPos % 7600
  let busy := decide (inSlot < 3040)
  (if busy then 3040 - inSlot else 7600 - inSlot) * 2 ^ 16 + (if busy then 16 else 0) + l.wsPos / 7600 % 16

/-- CHST, R121. -/
def Core.chst (k : Core) : Nat :=
  (k.channel 0).length + (k.channel 1).length * 2 ^ 4 + (k.channel 2).length * 2 ^ 8 + (k.channel 3).length * 2 ^ 12

/-- A handler entry of a core. -/
def Core.handler (k : Core) (c : Nat) : Handler := k.hdl[c % 16]'(Nat.mod_lt _ (by decide))

/-- HDLn as MFS reads it, R125. -/
def Handler.reg (h : Handler) : Nat := (if h.mask then 2 ^ 33 else 0) + (if h.pri then 2 ^ 32 else 0) + h.pc / 4 % 2 ^ 30 * 4

/-- CLASSM, R126. -/
def Core.classm (k : Core) : Nat :=
  k.mode.toNat * 2 ^ 16 + ((List.range 16).map fun c => if (k.handler c).mask then 2 ^ c else 0).sum

/-- TKBn, R122. -/
def Tracker.reg (t : Tracker) : Nat :=
  t.base % 2 ^ 48 +
    2 ^ 64 * (t.limit % 2 ^ 48 + t.tns % 256 * 2 ^ 48 + (if t.tens then 2 ^ 62 else 0) + (if t.bound then 2 ^ 63 else 0))

/-- A tracker of a core. -/
def Core.tracker (k : Core) (n : Nat) : Tracker := k.trackers[n % 16]'(Nat.mod_lt _ (by decide))

/-- The capsule is a vendor-signed system capsule, R134. -/
def State.isSystem (s : State) (cap : Capsule) : Bool :=
  match s.host.blob with
  | some b => b.system.contains cap.hdr.codeid
  | none => false

/-- The words of an entry of the device error log in the configuration space, oldest entry first (R134, R408; DESIGN CHOICE, log 20). -/
def State.logWord (s : State) (i : Nat) : Nat :=
  match s.host.errlog[i / 4]? with
  | none => 0
  | some e =>
    match i % 4 with
    | 0 => e.unit % 2 ^ 16 + e.kind % 2 ^ 16 * 2 ^ 16 + e.count % 2 ^ 32 * 2 ^ 32
    | 1 => e.location
    | 2 => e.cyc
    | _ => 0

/-- The running capsule that FRSEL names in bits [31:17] (DESIGN CHOICE, log 20). -/
def State.frCapsule? (s : State) (i : Nat) : Option Capsule := (s.capsules.filter fun c => c.stage == .running)[i / 2 ^ 17]?

/-- A word of an entry of the device error log written; its last word is reserved (R5; DESIGN CHOICE, log 20). -/
def LogEntry.setWord (e : LogEntry) (w v : Nat) : LogEntry :=
  match w with
  | 0 => { e with unit := bits v 0 16, kind := bits v 16 16, count := bits v 32 32 }
  | 1 => { e with location := v }
  | 2 => { e with cyc := v }
  | _ => e

/-- The bits of a word of a fault record that are not reserved (R5, R76, R400): bytes 14 and 15, bit 15 of ROLE, bytes 0 to 7 of the frame
and bytes 51 to 63 of it read as zero. -/
def recKept (w : Nat) (v : Word) : Word :=
  match w with
  | 1 => v &&& BitVec.ofNat 64 (2 ^ 48 - 1 - 2 ^ 31)
  | 8 | 15 => 0
  | 14 => v &&& BitVec.ofNat 64 (2 ^ 24 - 1)
  | _ => v

/-- The word of a fault record that FRSEL names: bits [16:5] the record, bits [4:0] its word (DESIGN CHOICE, log 20). A word that MTS has
written has the guard bit that MTS gave it (R124); any other that of its line of the record. -/
def Capsule.frWord (cap : Capsule) (i : Nat) : Word × Bool :=
  let w := i % 2 ^ 17
  match cap.recWords.find? fun e => e.1 == w with
  | some (_, v) => v
  | none => (BitVec.ofNat 64 (leNat ((List.range 8).map fun b => cap.recordByte (8 * w + b))), match cap.recordAt? (8 * w) with
    | some (r, _) => r.lineGuard (w % 32 / 8)
    | none => false)

/-- A word of a parking bay: 0 the instance, 1 the save counter, 2 to 9 the digest (R134, R225; DESIGN CHOICE, log 20). -/
def Bay.word (b : Bay) (w : Nat) : Nat :=
  match w with
  | 0 => b.inst
  | 1 => b.counter
  | _ => leNat ((b.digest.drop (8 * (w - 2))).take 8)

/-- A word of a parking bay written, with its guard bit (R124). -/
def Bay.setWord (b : Bay) (w v : Nat) (guard : Bool) : Bay :=
  let b := { b with guards := if guard then b.guards ||| BitVec.twoPow 10 w else b.guards &&& ~~~ BitVec.twoPow 10 w }
  match w with
  | 0 => { b with inst := v % 2 ^ 32 }
  | 1 => { b with counter := v }
  | _ => { b with digest := b.digest.take (8 * (w - 2)) ++ (leBytes 8 v).take (64 - 8 * (w - 2)) ++ b.digest.drop (8 * (w - 2) + 8) }

/-- The bay that BAYSEL names in bits [31:4], if it names one of its ten words. -/
def State.bayAt? (s : State) (i : Nat) : Option Bay := if i % 16 < 10 then s.plaza.bays[i / 16]? else none

/-- What an index that names no item reads as (DESIGN CHOICE, log 20). -/
def State.noItem (s : State) (window i : Nat) : Word × Bool :=
  (BitVec.ofNat 64 (leNat ((List.range 8).map fun n => Config.freeByte s.freeCount (window * 2 ^ 32 + i + n))), false)

/-- A word of the configuration space of the package: of an entry of the error log, or as MTS wrote it last, with the guard bit that MTS
gave it (R124, R134, R408; DESIGN CHOICE, log 20). -/
def State.configWord (s : State) (i : Nat) : Word × Bool :=
  let written := (s.host.priv.find? fun e => e.1 == i).map (·.2)
  if i < 4096 ∧ (s.host.errlog[i / 4]?).isSome then (BitVec.ofNat 64 (s.logWord i), (written.map (·.2)).getD false)
  else written.getD (if i < 4096 then (0, false) else s.noItem 0 i)

/-- The item behind a window of the privileged view: a word of the configuration space, of a running capsule's fault record, or of a
parking bay (R134, R408; DESIGN CHOICE, log 20). -/
def State.privItem (s : State) (window : Nat) (index : BitVec 32) : Word × Bool :=
  let i := index.toNat
  match window with
  | 0 => s.configWord i
  | 1 => match s.frCapsule? i with
    | some cap => cap.frWord i
    | none => s.noItem 1 i
  | _ => match s.bayAt? i with
    | some b => (BitVec.ofNat 64 (b.word (i % 16)), b.guards.getLsbD (i % 16))
    | none => s.noItem 2 i

/-- An item is written; what is written where no record or bay stands is lost (R24, R134; DESIGN CHOICE, log 20). -/
def State.setItem (s : State) (window : Nat) (index : BitVec 32) (v : Word) (guard : Bool) : State :=
  let i := index.toNat
  match window with
  | 0 =>
    let log := s.host.errlog.mapIdx fun n (e : LogEntry) => if i < 4096 ∧ n = i / 4 then e.setWord (i % 4) v.toNat else e
    { s with host := { s.host with priv := SMap.put s.host.priv i (v, guard), errlog := log } }
  | 1 => match s.frCapsule? i with
    | some cap => s.setCapsule { cap with recWords := SMap.put cap.recWords (i % 2 ^ 17) (recKept (i % 32) v, guard) }
    | none => s
  | _ => match s.bayAt? i with
    | some b =>
      { s with plaza := { s.plaza with
          bays := s.plaza.bays.map fun o => if o.inst = b.inst then b.setWord (i % 16) v.toNat guard else o } }
    | none => s

/-- The value and guard bit of a state register, R123; none for a reserved number, and for the privileged view outside a
system capsule. CLASSM, whose MASK bits mirror those of the sixteen HDLn, reads with the OR of their guard bits (DESIGN CHOICE, log 98). -/
def State.readSr (s : State) (x : Cur) (n : Nat) : Option (Nat × Bool) :=
  if n = 0x00 then some (x.tsr.toNat, false)
  else if n = 0x01 then some (x.t.tid.toNat, false)
  else if n = 0x02 then some (x.k.coreReg, false)
  else if n = 0x03 then some (s.capsReg x.c x.cap, false)
  else if n = 0x04 then some (s.cycOf x.c, false)
  else if n = 0x05 then some (s.discLen * 2 ^ 48 + 0xC00000100000, false)
  else if n = 0x06 then some ((s.layer (layerOf x.c)).wsph, false)
  else if n = 0x07 then some (x.k.barto.toNat, x.k.bartoGuard)
  else if n = 0x08 then some (x.k.classm, (List.range 16).any fun c => (x.k.handler c).maskGuard)
  else if n = 0x09 then some (x.k.chst, false)
  else if n = 0x0C then some (x.k.vwv.toNat, false)
  else if n = 0x0D then some (x.k.vwm.toNat, false)
  else if n = 0x0E then some (x.k.vwa.toNat, false)
  else if 0x10 ≤ n ∧ n ≤ 0x13 then some ((x.k.fmt[n % 4]'(Nat.mod_lt _ (by decide))).toNat, x.k.fmtGuard.getLsbD (n % 4))
  else if 0x20 ≤ n ∧ n ≤ 0x2F then some ((x.k.handler n).reg, (x.k.handler n).maskGuard)
  else if 0x30 ≤ n ∧ n ≤ 0x3F then some ((x.k.tracker n).reg, false)
  else if n = 0x40 then
    some (if x.k.role = x.cap.hdr.super then x.cap.recCount % 2 ^ 16 * 2 ^ 48 + 0xC00000200000 else 0, false)
  else if s.isSystem x.cap then
    if n = 0x80 then some (x.k.cfgsel.toNat, x.k.selGuard.getLsbD 0)
    else if n = 0x81 then some ((s.privItem 0 x.k.cfgsel).1.toNat, (s.privItem 0 x.k.cfgsel).2)
    else if n = 0x82 then some (x.k.frsel.toNat, x.k.selGuard.getLsbD 1)
    else if n = 0x83 then some ((s.privItem 1 x.k.frsel).1.toNat, (s.privItem 1 x.k.frsel).2)
    else if n = 0x84 then some (x.k.baysel.toNat, x.k.selGuard.getLsbD 2)
    else if n = 0x85 then some ((s.privItem 2 x.k.baysel).1.toNat, (s.privItem 2 x.k.baysel).2)
    else none
  else none

/-- A 128-bit register: CORE and TKB0 to TKB15, R123. -/
def srWide (n : Nat) : Bool := decide (n = 0x02) || decide (0x30 ≤ n ∧ n ≤ 0x3F)

/-- A data register of the privileged view draws a free value where nothing was written. -/
def State.drawFor (s : State) (n : Nat) : State :=
  if n = 0x81 ∨ n = 0x83 ∨ n = 0x85 then { s with freeCount := s.freeCount + 1 } else s

/-- Set the MASK bit of a class, as CHMASK and MTS do (R125). -/
def Core.setMask (k : Core) (c : Nat) (m guard : Bool) : Core :=
  { k with hdl := k.hdl.set (c % 16) { k.handler c with mask := m, maskGuard := guard } (Nat.mod_lt _ (by decide)) }

/-- A guard bit of three set to a value. -/
def setBit3 (v : BitVec 3) (n : Nat) (b : Bool) : BitVec 3 :=
  if b then v ||| BitVec.twoPow 3 n else v &&& ~~~ BitVec.twoPow 3 n

/-- A guard bit of four set to a value. -/
def setBit4 (v : BitVec 4) (n : Nat) (b : Bool) : BitVec 4 :=
  if b then v ||| BitVec.twoPow 4 n else v &&& ~~~ BitVec.twoPow 4 n

/-- The writable fields of a core's state registers take a value, R123-R127, R266; every other register keeps its value. -/
def Core.writeSr (k : Core) (n : Nat) (v : Word) (guard : Bool) : Core :=
  if n = 0x07 then { k with barto := v.truncate 32, bartoGuard := guard }
  else if n = 0x08 then (List.range 16).foldl (fun k c => k.setMask c (v.getLsbD c) guard) k
  else if 0x10 ≤ n ∧ n ≤ 0x13 then
    { k with fmt := k.fmt.set (n % 4) (fdKept (v.truncate 32)) (Nat.mod_lt _ (by decide)), fmtGuard := setBit4 k.fmtGuard (n % 4) guard }
  else if 0x20 ≤ n ∧ n ≤ 0x2F then k.setMask n (v.getLsbD 33) guard
  else if n = 0x80 then { k with cfgsel := v.truncate 32, selGuard := setBit3 k.selGuard 0 guard }
  else if n = 0x82 then { k with frsel := v.truncate 32, selGuard := setBit3 k.selGuard 1 guard }
  else if n = 0x84 then { k with baysel := v.truncate 32, selGuard := setBit3 k.selGuard 2 guard }
  else k

/-- A write through a data register of the privileged view, R134. -/
def State.writePriv (s : State) (k : Core) (n : Nat) (v : Word) (guard : Bool) : State :=
  if n = 0x81 then s.setItem 0 k.cfgsel v guard
  else if n = 0x83 then s.setItem 1 k.frsel v guard
  else if n = 0x85 then s.setItem 2 k.baysel v guard
  else s

/-- MFS: a state register, or a 128-bit register into a pair, R124, R265. -/
def execMfs (h : Head) (f : FmtS) : State → Host.Outcome State Fault Refusal :=
  issue h 8 fun x s =>
    let n := f.sr.toNat
    let d := f.d.toNat
    let wide := srWide n
    let w := if wide then 1 else 0
    checked [misaligned d f.dw.toNat, writeMarked x (groupOf d w),
        failIf (f.dw.toNat ≠ w) 4 6 f.dw.toNat,
        failIf (s.readSr x n).isNone 4 12 n]
      (match s.readSr x n with
       | some (v, g) =>
         let t := x.t.setReg d (BitVec.ofNat 64 v) g
         let t := if wide then t.setReg (d + 1) (BitVec.ofNat 64 (v / 2 ^ 64)) g else t
         .next ((s.setTask x.c x.n t).drawFor n)
       | none => .next s)

/-- MTS: the writable fields of a state register take a general register's value, R124, R266. -/
def execMts (h : Head) (f : FmtS) : State → Host.Outcome State Fault Refusal :=
  issue h 8 fun x s =>
    let n := f.sr.toNat
    let v := x.reg f.d
    checked [readMarked x [f.d.toNat], failIf (s.readSr x n).isNone 4 12 n]
      (.next ((s.setCore x.c (x.k.writeSr n v (x.guard f.d))).writePriv x.k n v (x.guard f.d)))

end Sys2Proof.Machine
end

