-- ==== Sys2Proof/Machine/Tasks.lean ====
section
/-! DEFINITION. Creating, sending and joining tasks, migration, channels, class masks, barriers and DONE (R335-R346, R358,
R403). -/

namespace Sys2Proof.Machine

open Sys2Proof

/-! Creation (R95, R102, R103, R338) -/

/-- A packet of the executing task: it enters the network, or is held by a fence of its task (R164). -/
def Cur.sendFrom (x : Cur) (s : State) (dest role cls : Nat) (body : PktBody) (parks : Bool) : State :=
  let serial := (x.k.slot x.n).serial
  let st := if s.fenced x.c x.n serial s.serial .w [] then PktState.held else .moving
  s.sendPacket
    { id := 0, inst := x.cap.inst, src := x.c, dest := dest, cls := cls, body := body, state := st, slot := x.n,
      slotSerial := serial, parks := parks, leaves := false, role := role, order := 0, pc := some x.pc }

/-- The items of a list at the least value of a measure, in list order. -/
def leastOf (l : List Nat) (d : Nat → Nat) : List Nat :=
  match (l.map d).min? with
  | some m => l.filter fun c => d c == m
  | none => []

/-- Ties are broken by TID: the item of index floor(TID × t / 2^64) (R95). -/
def pickByTid (l : List Nat) (tid : Word) : Option Nat := l[tid.toNat * l.length / 2 ^ 64]?

/-- The core of the replica of a pc's segment that R95 chooses for a task leaving core `c`. -/
def Capsule.replica? (cap : Capsule) (c pc : Nat) (tid : Word) : Option Nat :=
  match cap.segs.find? fun g => decide (g.start ≤ pc ∧ pc < g.start + g.len) with
  | none => none
  | some g => pickByTid (leastOf (g.roles.filterMap (cap.coreOf? 0)) fun d => coreDistance c d) tid

/-- The TID of the next task that the executing task creates, R102. -/
def Cur.childTid (x : Cur) : Word := mix x.t.tid x.t.spawnOrd

/-- The context of a child, R338. -/
def Cur.child (x : Cur) (d dw pc : Nat) (join : Option (Word × Bool)) : Task :=
  let t : Task := { Task.fresh with pc := BitVec.ofNat 64 pc, tsr := BitVec.ofNat 64 x.t.member, tid := x.childTid }
  let t := ((groupOf d dw).zipIdx).foldl (fun (t : Task) r => t.setReg r.2 (x.t.reg r.1) (x.t.regGuard r.1)) t
  match join with
  | some (v, g) => t.setReg 15 v g
  | none => t

/-- SPAWN and SPAWNP: the child's packet goes to the core that `dest` gives. -/
def spawnBody (f : FmtW) (x : Cur) (s : State) (extra : List (Option FaultInfo)) (dest : Option Nat) : Verdict :=
  let j := f.fn.getLsbD 0
  let pc := f.imm.toNat
  checked
    ([misaligned f.d.toNat f.dw.toNat, readMarked x (groupOf f.d.toNat f.dw.toNat ++ if j then [f.a.toNat] else [])] ++ extra ++
      [targetFault x.cap false pc])
    (match dest with
     | none => .next s
     | some d =>
       let child := x.child f.d.toNat f.dw.toNat pc (if j then some (x.reg f.a, x.guard f.a) else none)
       .next ((x.sendFrom s d (x.cap.roleOfCore d) 2 (.task child none false) true).setTask x.c x.n x.t.bumpSpawn))

/-- A child on the issuing core, R339; in promenade mode at a replica of its pc's segment when the core does not hold it. -/
def execSpawn (h : Head) (f : FmtW) : State → Host.Outcome State Fault Refusal :=
  issue h 12 fun x s =>
    let d := if x.cap.hdr.prom && !inSegment x.k f.imm.toNat then x.cap.replica? x.c f.imm.toNat x.childTid else some x.c
    spawnBody f x s [] d

/-- A child on a role of a group chosen by its TID, R103, R340. -/
def execSpawnp (h : Head) (f : FmtW) : State → Host.Outcome State Fault Refusal :=
  issue h 12 fun x s =>
    let m := x.cap.groupSize f.rk.toNat
    let role := x.childTid.toNat * m / 2 ^ 64
    spawnBody f x s [roleFault f.rk.toNat role (decide (0 < m))] (x.cap.coreOf? f.rk.toNat role)

/-- The payload of a message: the words of a group with their guard bits. -/
def Cur.payload (x : Cur) (d dw : Nat) : List (Word × Bool) := (groupOf d dw).map fun r => (x.t.reg r, x.t.regGuard r)

/-- The registers that a role operand and a payload read. -/
def sendRegs (f : FmtT) : List Nat := (if f.rx = 1 then [f.b.toNat] else []) ++ groupOf f.d.toNat f.dw.toNat

/-- A message that starts a handler task at a role, R341. -/
def execSend (h : Head) (f : FmtT) : State → Host.Outcome State Fault Refusal :=
  issue h 8 fun x s =>
    let i := f.roleIndex x
    let core := x.cap.coreOf? f.rk.toNat i
    checked
      [misaligned f.d.toNat f.dw.toNat, readMarked x (sendRegs f), failIf (f.cls.toNat < 4) 4 6 f.cls.toNat,
       roleFault f.rk.toNat i core.isSome (f.roleGuard x)]
      (match core with
       | none => .next s
       | some d =>
         let body := PktBody.message x.childTid.toNat x.t.member (x.payload f.d.toNat f.dw.toNat)
         .next ((x.sendFrom s d (x.cap.roleOfCore d) f.cls.toNat body false).setTask x.c x.n x.t.bumpSpawn))

/-- A resume packet from the core of the supervisor role, R403; it draws no TID. It carries one to four payload words: of a group of
eight, the first four (DESIGN CHOICE, log 90). -/
def execSendResume (h : Head) (f : FmtT) : State → Host.Outcome State Fault Refusal :=
  issue h 8 fun x s =>
    let i := f.roleIndex x
    let core := x.cap.coreOf? f.rk.toNat i
    checked
      [misaligned f.d.toNat f.dw.toNat, readMarked x (sendRegs f), roleFault f.rk.toNat i core.isSome (f.roleGuard x),
       failIf (x.k.role ≠ x.cap.hdr.super) 4 17 0]
      (match core with
       | none => .next s
       | some d => .next (x.sendFrom s d (x.cap.roleOfCore d) 3 (.resume ((x.payload f.d.toNat f.dw.toNat).take 4)) false))

/-! Joining (R342) -/

/-- 4/13: a join word outside the scratchpad window, or misaligned; `guard` is that of the register that holds the address. -/
def joinFault (ea size : Nat) (guard : Bool) : Option FaultInfo :=
  heldBy guard (failIf (windowOf ea != .scratch || decide (2 ^ 48 ≤ ea ∨ ea % size ≠ 0)) 4 13 ea ea)

/-- Take the children's words as LDFE does, in ascending address. -/
def execJoin (h : Head) (f : FmtT) : State → Host.Outcome State Fault Refusal :=
  issue h 8 fun x s =>
    let d := f.d.toNat
    let count := 2 ^ f.dw.toNat
    let ea := (x.reg f.a).toNat
    withPlaces x s count
      [misaligned d f.dw.toNat, readMarked x [f.a.toNat], writeMarked x (groupOf d f.dw.toNat), joinFault ea (8 * count) (x.guard f.a)]
      ea (8 * count) .load false false
      fun s t =>
        let s1 := s.pendRegs x.c x.n ((List.range count).map (d + ·))
        let r := x.result s1 (.regs d count 8 false) count []
        let s2 := s1.addResult r
        let s3 := (List.range count).foldl (fun (s' : State) j =>
          s'.addAccess (x.access s' .ldfe .f (ea + 8 * j) ⟨t.addr + 8 * j, none⟩ 8 [] false (some (s1.serial, j)))) s2
        .next (s3.pump x.c)

/-- Store a result to the join word at g15 with STF, and end the task. -/
def execJoinRet (h : Head) (f : FmtT) : State → Host.Outcome State Fault Refusal :=
  issue h 8 fun x s =>
    let ea := (x.t.reg 15).toNat
    withTarget x s [readMarked x [f.d.toNat, 15], joinFault ea 8 (x.t.regGuard 15)] ea 8 .store false (x.guard f.d)
      fun s t => .leave ((sendAccess x s .stf .f ea 8 t (leBytes 8 (x.reg f.d).toNat) (x.guard f.d)).endTask x.c x.n)

/-! GO (R100, R343) -/

/-- The core of a capsule that homes a cluster: the lowest role in it, or the nearest core. -/
def Capsule.coreNear? (cap : Capsule) (cluster : Nat) (tid : Word) : Option Nat :=
  let cores := ((cap.groups[0]?).map (·.cores)).getD []
  match cores.find? fun c => clusterOf c == cluster with
  | some c => some c
  | none => pickByTid (leastOf cores fun c => clusterDistance (clusterOf c) cluster) tid

/-- The destination of GO for a device address. -/
def State.goDevice (s : State) (cap : Capsule) (c addr : Nat) (tid : Word) : Nat :=
  if devSpace addr = 4 ∨ devPkg addr ≠ s.pkgId then c
  else if devSpace addr = 1 then
    if layerOf c = wsLayer addr then c
    else ((((cap.groups[0]?).map (·.cores)).getD []).find? fun d => layerOf d == wsLayer addr).getD c
  else if devSpace addr = 2 then scratchCore addr
  else (cap.coreNear? (s.homeCluster (devLocal addr)) tid).getD c

/-- The destination of GO for a capsule address, or the fault that a load would raise for want of a translation. -/
def State.goTarget (s : State) (cap : Capsule) (c member ea : Nat) (tid : Word) : Except FaultInfo Nat :=
  if 2 ^ 48 ≤ ea then .error ⟨6, 1, 0, ea, false⟩
  else match windowOf ea with
    | .reserved => .error ⟨6, 3, 0, ea, false⟩
    | .scratch =>
      match cap.coreOf? 0 (scratchRole ea) with
      | none => .error ⟨6, 5, scratchRole ea, ea, false⟩
      | some d => if cap.hdr.scratch ≤ scratchOff ea then .error ⟨6, 5, scratchRole ea, ea, false⟩ else .ok d
    | .extent =>
      match cap.extentAt? member ea with
      | none => .error ⟨6, 4, 0, ea, false⟩
      | some e => match s.resolveError? c member e ea, s.resolve cap c member e ea with
        | some code, _ => .error ⟨16, 0, code, ea, false⟩
        | none, none => .error ⟨9, 1, (ea - e.vbase) / 2 ^ 21 + e.index * 2 ^ 32, ea, false⟩
        | none, some a => .ok (s.goDevice cap c a tid)
    | _ => .ok c

/-- Migration to the core that homes an address: a switch point, at which the task waits for its results, then a departure (R82, R100,
R343, R415). -/
def execGo (h : Head) (f : FmtT) : State → Host.Outcome State Fault Refusal :=
  issue h 8 fun x s => atSwitchPoint x s fun x s =>
    checked [failIf x.cap.hdr.prom 4 16 0]
      (match s.goTarget x.cap x.c x.t.member (x.reg f.a).toNat x.t.tid with
       | .error e => s.accessFault x e
       | .ok d =>
         let k := x.k
         let t := { x.t with pc := BitVec.ofNat 64 (x.pc + x.len) }
         .leave (s.setCore x.c { k.setSlot x.n { k.slot x.n with task := t, state := .departing, depart := some ⟨d, true, x.pc⟩ } with
           portCount := 0 }))

/-! Channels (R87, R344) -/

/-- The neighbour across a channel, when it belongs to the same capsule instance or is a parked role of it. -/
def State.channelPeer? (s : State) (x : Cur) (ch : Nat) : Option Nat :=
  match neighbour? x.c ch with
  | some d => if (s.core d).inst = some x.cap.inst ∨ s.parkedAt x.c d then some d else none
  | none => none

/-- Write a word into the neighbour's channel once it has room. -/
def execChsend (h : Head) (f : FmtA) : State → Host.Outcome State Fault Refusal :=
  issue h 8 fun x s =>
    let ch := bits f.fn.toNat 0 2
    match s.channelPeer? x ch with
    | none => checked [readMarked x [f.d.toNat]] (.raise ⟨4, 15, ch, 0, false⟩)
    | some d =>
      let o := oppositeChannel ch
      if s.parkedAt x.c d || decide (4 ≤ ((s.core d).channel o).length) then .block (.channelFull ch)
      else checked [readMarked x [f.d.toNat]]
        (.next (s.setCore d ((s.core d).setChannel o ((s.core d).channel o ++ [(x.reg f.d, x.guard f.d)]))))

/-- Take the oldest word of a channel once one is present. -/
def execChrecv (h : Head) (f : FmtA) : State → Host.Outcome State Fault Refusal :=
  issue h 8 fun x s =>
    let ch := bits f.fn.toNat 0 2
    match s.channelPeer? x ch with
    | none => checked [writeMarked x [f.d.toNat]] (.raise ⟨4, 15, ch, 0, false⟩)
    | some _ =>
      match x.k.channel ch with
      | [] => .block (.channelEmpty ch)
      | (v, g) :: rest =>
        checked [writeMarked x [f.d.toNat]]
          (.next ((s.setCore x.c (x.k.setChannel ch rest)).pendValue x f.d.toNat v g))

/-- Set or clear the mask bit of a route class, R345. -/
def execChmask (h : Head) (f : FmtN) : State → Host.Outcome State Fault Refusal :=
  issue h 8 fun x s => .next (s.setCore x.c (x.k.setMask (bits f.imm.toNat 0 4) (f.imm.getLsbD 4) false))

/-! Barriers (R92, R346) -/

/-- 4/14: the core is not a member of the group (DEDUCED, log 60). -/
def memberFault (x : Cur) (group : Nat) : Option FaultInfo := roleFault group 0 (x.k.membership? group).isSome

/-- The wait half of BAR and BARW issues with a status: it claims a completion and writes G[D] with a clear guard bit. -/
def barrierStatus (x : Cur) (s : State) (d group status : Nat) : Verdict :=
  let s1 := s.claimPhase x.c group
  let sl := s1.slot x.c x.n
  .next (s1.setSlot x.c x.n { sl with bar := none, task := sl.task.setReg d (BitVec.ofNat 64 status) false })

/-- The wait half: it blocks until the phase completes (R83), or issues. A wait that was in progress has its status. -/
def barrierWait (x : Cur) (s : State) (d group : Nat) : Verdict :=
  match (s.slot x.c x.n).bar with
  | some b => match b.result with
    | some status =>
      let sl := s.slot x.c x.n
      .next (s.setSlot x.c x.n { sl with bar := none, task := sl.task.setReg d (BitVec.ofNat 64 status) false })
    | none => .block (.barrier group)
  | none => match s.waitNow x.c group with
    | some status => barrierStatus x s d group status
    | none => .leave ((s.beginWait x.c x.n group none).endTurn x.c x.n (.blocked (.barrier group)))

/-- Arrive, then wait for the phase. -/
def execBar (h : Head) (f : FmtT) : State → Host.Outcome State Fault Refusal :=
  issue h 8 fun x s =>
    checked [writeMarked x [f.d.toNat], memberFault x f.rk.toNat]
      (barrierWait x (if (s.slot x.c x.n).bar.isSome then s else s.arrive x.c f.rk.toNat) f.d.toNat f.rk.toNat)

/-- Arrive without waiting. An arrival is no access and no send of R164: a FENCE does not hold it (DESIGN CHOICE, log 91). -/
def execBara (h : Head) (f : FmtT) : State → Host.Outcome State Fault Refusal :=
  issue h 8 fun x s => checked [memberFault x f.rk.toNat] (.next (s.arrive x.c f.rk.toNat))

/-- Wait for a phase. -/
def execBarw (h : Head) (f : FmtT) : State → Host.Outcome State Fault Refusal :=
  issue h 8 fun x s =>
    checked [writeMarked x [f.d.toNat], memberFault x f.rk.toNat] (barrierWait x s f.d.toNat f.rk.toNat)

/-! SPSEND (R335) and DONE (R358) -/

/-- An element that SPSEND sends: not zero, a floating zero of either sign being zero. -/
def spNonzero (t cb v : Nat) : Bool := if isFloat t then v % 2 ^ (cb - 1) != 0 else v != 0

/-- The payload word of an element. -/
def spWord (base i v : Nat) : Word := BitVec.ofNat 64 (v + (base + i) % 2 ^ 16 * 2 ^ 32)

/-- One message for each active nonzero element, in ascending order. -/
def execSpsend (h : Head) (f : FmtVX) : State → Host.Outcome State Fault Refusal :=
  issue h 12 fun x s =>
    let a := (⟨f.va.toNat, f.vaw.toNat⟩ : VOpd)
    let t := f.t.toNat
    let cb := typeBits x.k.fmts t
    let g := (x.reg f.g).toNat
    let i := bits g 0 15
    let core := x.cap.coreOf? f.rk.toNat i
    let items := ((x.k.elems a cb).zipIdx).filter fun e =>
      laneActive (x.t.mask f.lm.toNat) cb e.2 && spNonzero t cb e.1
    vecIssue x s [a] []
      (vecOperands x [a] [a] [] false [f.g.toNat] [] ++
        [failIf (f.cls.toNat < 4) 4 6 f.cls.toNat, failIf (f.gw ≠ 0) 4 6 f.gw.toNat, typeFault (decide (t ≤ 8)) t,
         roleFault f.rk.toNat i core.isSome (x.guard f.g)])
      (match core with
       | none => .next s
       | some d =>
         .next (items.foldl (fun (s : State) e =>
           let task := (s.slot x.c x.n).task
           let guard := (x.k.granule ((x.k.vOff a.1 + e.2 * cb / 8) / 64)).guard
           let body := PktBody.message (mix task.tid task.spawnOrd).toNat task.member [(spWord (bits g 32 16) e.2 e.1, guard)]
           (x.sendFrom s d (x.cap.roleOfCore d) f.cls.toNat body false).setTask x.c x.n task.bumpSpawn) s))

/-- The end of the task and of the capsule, R218, R358: DONE goes to the Plaza. -/
def execDone (h : Head) (_f : FmtN) : State → Host.Outcome State Fault Refusal :=
  issue h 8 fun x s => .leave ((s.endCapsule x.cap.inst 0).endTask x.c x.n)

end Sys2Proof.Machine
end

