-- ==== Sys2Proof/Machine/Net.lean ====
section
/-! DEFINITION. Packets on the network: arrival queues, tickets, grants and overflow lanes (R78, R97, R98, R458, R459), the
loading of slots (R79, R80, R96), departures (R95, R100, R181) and the events of barriers (R92, R93, R455). -/

namespace Sys2Proof.Machine

open Sys2Proof

/-! The parts of an arrival queue -/

/-- A slot holds a parked departure: one whose packet stands refused, or a creator whose child's does (R95, R98, R339). -/
def State.slotParked (s : State) (c n : Nat) : Bool :=
  (s.refusedChild? c n).isSome || (match (s.slot c n).state with
    | .ticketed _ | .granted _ => true
    | .sending p => ((s.packet? p).map (·.state.stands)).getD false
    | _ => false)

/-- All eight slots hold parked departures, R98. -/
def State.allParked (s : State) (c : Nat) : Bool := (List.range 8).all (s.slotParked c)

/-- Entries in use: packets, and entries reserved for granted tickets. -/
def Core.queueUse (k : Core) : Nat := k.queue.length + (k.tickets.filter (·.granted)).length

/-- Entries of an arrival queue, R78. -/
def queueSize : Nat := 64

/-- Packets that an overflow lane holds, R98. -/
def Capsule.laneSize (cap : Capsule) : Nat := cap.hdr.overflow / 192

/-- The core a packet is bound for: its role's, wherever the binding table now puts it (R90). -/
def State.destOf (s : State) (p : Packet) : Nat :=
  match s.capsule? p.inst with
  | some cap => (cap.coreOf? 0 p.role).getD p.dest
  | none => p.dest

/-- The packet's destination role is parked. -/
def State.packetParked (s : State) (p : Packet) : Bool :=
  match s.capsule? p.inst with
  | some cap => cap.isParked p.role
  | none => false

/-- The packet's sender is parked: it cannot resend (R224). -/
def State.senderParked (s : State) (p : Packet) : Bool :=
  match s.capsule? p.inst with
  | some cap => cap.parked.any fun q => cap.coreOf? 0 q.role == some p.src
  | none => false

/-- Change the slot that a departing task leaves with a packet, on its core or in its image. A creator whose child is refused keeps
its own state: what parks it is the child's packet (`refusedChild?`). -/
def State.mapHolder (s : State) (p : Packet) (f : Slot → Slot) : State :=
  match s.capsule? p.inst with
  | none => s
  | some cap =>
    let k := s.coreOrImage cap p.src
    let sl := k.slot p.slot
    if p.leaves && sl.serial == p.slotSerial && sl.state != .empty then
      s.setCoreOrImage cap p.src (k.setSlot p.slot (f sl))
    else s

/-- A departure that waits for its packet stands in a new state. -/
def State.waitFor (s : State) (p : Packet) (st : SlotState) : State := s.mapHolder p fun sl => { sl with state := st }

/-- A packet is accepted: a departure frees its slot (R95). -/
def State.accepted (s : State) (p : Packet) : State := s.mapHolder p fun _ => Slot.fresh

/-- A packet takes an entry of the arrival queue. -/
def State.enterQueue (s : State) (d : Nat) (p : Packet) : State :=
  let k := s.core d
  ((s.setCore d { k with queue := k.queue ++ [p.id] }).setPacket { p with state := .queued }).accepted p

/-- The member of a packet's task. -/
def PktBody.member : PktBody → Nat
  | .task t _ _ => t.member
  | .message _ m _ => m
  | _ => 0

/-- The bytes of the instruction at an offset of the code image. -/
def Capsule.insnAt (cap : Capsule) (pc : Nat) : List Byte :=
  cap.codeBytes pc (lenBytes (((cap.codeBytes pc 1).getD 0 0).toNat % 4))

/-- The bytes of the instruction that sent a packet, for a record that names it (R399). -/
def Packet.insn (p : Packet) (cap : Capsule) : List Byte := (p.pc.map cap.insnAt).getD []

/-- A packet goes into the overflow lane, or exhausts it (R98, R459). -/
def State.enterLane (s : State) (cap : Capsule) (d : Nat) (p : Packet) : State :=
  let k := s.core d
  if k.overflow.length < cap.laneSize then
    ((s.setCore d { k with lane := k.lane ++ [.lane p.id] }).setPacket { p with state := .queued }).accepted p
  else
    let s1 := (s.dropPacket p.id).accepted p
    let s2 := (s1.reportFault cap.inst d p.body.member (p.pc.getD 0) (p.insn cap) 2 ⟨14, 1, cap.laneSize, 0, false⟩).endCapsule cap.inst 2
    match s2.capsule? cap.inst with
    | some c => s2.setCapsule { c with discarded := c.discarded + 1 }
    | none => s2

/-- The fault message of a record, R402. -/
def faultMessage (cap : Capsule) (c : Nat) (r : FaultRec) (seq : Nat) : Packet :=
  let g0 := seq + r.info.cls % 2 ^ 16 * 2 ^ 32 + r.member % 2 ^ 8 * 2 ^ 48 + r.disp % 2 ^ 8 * 2 ^ 56
  let g1 := 0xC00000200000 + 256 * (seq % 4096)
  { id := 0, inst := cap.inst, src := c, dest := c, cls := 3,
    body := .faultMessage (mix (BitVec.allOnes 64) seq).toNat r.member
      [(BitVec.ofNat 64 g0, false), (BitVec.ofNat 64 g1, false)],
    state := .queued, slot := 8, slotSerial := 0, parks := false, leaves := false, role := cap.hdr.super, order := 0,
    pc := none }

/-- An item that waits behind the queue takes an entry: a packet of the overflow lane or of the spill area, or a fault message, built
from its record (R98, R225, R401). -/
def State.enterItem (s : State) (cap : Capsule) (d : Nat) (k : Core) (item : LaneItem) : State :=
  match item with
  | .lane p => s.setCore d { k with laneHead := k.laneHead + 1, queue := k.queue ++ [p] }
  | .spill p => s.setCore d { k with queue := k.queue ++ [p] }
  | .message q r =>
    let m := { faultMessage cap d r q with id := s.serial, order := s.serial }
    { s with serial := s.serial + 1, packets := s.packets ++ [m] }.setCore d { k with queue := k.queue ++ [m.id] }

/-- Packets wait in the overflow lane, or in the spill area after a restore: they go ahead of every later arrival, and of the granted
packets that are still to be resent (R98, R223). -/
def Core.laneHolds (k : Core) : Bool := !k.overflow.isEmpty || !k.restoredQ.isEmpty

/-- Entries free: what waits behind the queue moves up, in its order (R98, R225, R401) (DEDUCED, log 57). Packets that have arrived
before a granted one comes back take the entries as they free. -/
def State.drain (d : Nat) : Nat → State → State
  | 0, s => s
  | n + 1, s =>
    let k := s.core d
    if queueSize ≤ (if k.laneHolds then k.queue.length else k.queueUse) then s
    else match k.lane, s.capsuleOf? d with
      | item :: rest, some cap => State.drain d n (s.enterItem cap d { k with lane := rest } item)
      | _, _ => s

/-- The holder of a ticket is granted it: a class 3 grant is on its way to the holder (R97, R476). -/
def State.sendGrant (s : State) (d : Nat) (p : Packet) : State :=
  let s1 := (s.setPacket { p with state := .granted }).waitFor p (.granted p.id)
  s1.sendTicketGrant p.inst d p.src p.id

/-- Free entries go to the oldest tickets; while every slot holds a parked departure every ticket is granted (R97, R98). -/
def State.grant (d : Nat) : Nat → State → State
  | 0, s => s
  | n + 1, s =>
    let k := s.core d
    match k.tickets.find? fun t => !t.granted with
    | none => s
    | some t =>
      if (decide (k.queueUse < queueSize) && k.lane.isEmpty) || s.allParked d then
        let f := fun (u : Ticket) => if u.pkt = t.pkt then { u with granted := true } else u
        let s1 := s.setCore d { k with tickets := k.tickets.map f }
        State.grant d n (match s1.packet? t.pkt with
          | some p => s1.sendGrant d p
          | none => s1)
      else s

/-- An arrival queue settles after a change: packets move up, and freed entries go to tickets. -/
def State.settle (s : State) (d : Nat) : State :=
  let s1 := State.drain d (queueSize + 1) s
  State.grant d ((s1.core d).tickets.length + 1) s1

/-- A packet arrives without a ticket that the queue knows: accepted, written to the overflow lane, refused with a ticket,
or refused without one (R97, R98, R458). -/
def State.arrivePacket (s : State) (cap : Capsule) (d : Nat) (p : Packet) : State :=
  let k := s.core d
  if (k.tickets.isEmpty || s.allParked d) && k.lane.isEmpty && decide (k.queueUse < queueSize) then s.enterQueue d p
  else if s.allParked d then s.enterLane cap d p
  else if k.tickets.length < 64 then
    ((s.setCore d { k with tickets := k.tickets ++ [⟨p.id, false⟩] }).setPacket { p with state := .ticketed }).waitFor p
      (.ticketed p.id)
  else (s.setPacket { p with state := .refused (s.cycOf p.src) }).waitFor p (.sending p.id)

/-- An earlier packet of a sender has still to enter, so that a later one would pass it. One with a ticket is passed only where the
later one takes its own ticket behind it: not at a core that refuses none (R97, R98, R169). -/
def Packet.entersAfter (q : Packet) (s : State) (p : Packet) : Bool :=
  match q.state with
  | .moving | .refused _ | .parkedWait => true
  | .ticketed | .granted => s.allParked (s.destOf p)
  | _ => false

/-- An earlier packet of the same source, ordered class and destination has still to enter, or an earlier PUT to be performed (R85,
R169). Packets that have waited for a parked role whose spill area was full enter in their sender's order, whatever their class
(R223). -/
def State.packetOvertakes (s : State) (p : Packet) : Bool :=
  (p.spillHeld && s.packets.any fun q => q.spillHeld && q.inst == p.inst && q.src == p.src && q.role == p.role &&
      decide (q.order < p.order) && q.entersAfter s p) ||
  classOrdered (s.modeOf p.inst) p.cls &&
    ((s.packets.any fun q => q.inst == p.inst && q.src == p.src && q.cls == p.cls && q.role == p.role && decide (q.order < p.order) &&
        q.entersAfter s p) ||
      s.accesses.any fun a => a.inst == p.inst && a.core == p.src && a.op == .put && a.cls == p.cls && a.state == .sent &&
        decide (a.order < p.order) && s.homeNow a == .core (s.destOf p))

/-- A packet that enters an arrival queue, R78. -/
def PktBody.queues : PktBody → Bool
  | .task _ _ _ | .message _ _ _ => true
  | _ => false

/-- A packet arrives at its core; a refusal may leave its sender with eight parked departures (R98). -/
def execArrivalQueueEnter (pkt : Nat) (s : State) : Host.Outcome State Fault Refusal :=
  match s.packet? pkt with
  | none => .next s
  | some p =>
    match s.capsule? p.inst with
    | none => .next s
    | some cap =>
      let d := s.destOf p
      event (p.state == .moving && p.body.queues && !s.packetParked p && !s.packetOvertakes p)
        (fun s => ((s.arrivePacket cap d p).settle d).settle p.src) s

/-- The reserved entry takes a granted packet; at a core whose slots all hold parked departures the overflow lane does (R97, R98). A
ticket that the queue no longer holds makes the packet a fresh arrival. -/
def State.resend (s : State) (cap : Capsule) (d : Nat) (p : Packet) : State :=
  let k := s.core d
  if k.tickets.any fun t => t.pkt == p.id && t.granted then
    let s1 := s.setCore d { k with tickets := k.tickets.filter fun t => t.pkt != p.id }
    if s.allParked d then s1.enterLane cap d p else s1.enterQueue d p
  else s.arrivePacket cap d p

/-- The grant of a packet or access that has reached its holder, in the order in which the grants were sent (R85, R97). -/
def State.grantFor? (s : State) (id : Nat) : Option Packet :=
  s.packets.find? fun g => g.body == .grant id && g.state == .moving && !s.packetOvertakes g && !s.packetParked g

/-- The group of a report of a message-combined barrier, with the role at whose logic it arrives. -/
def State.reportAt? (s : State) (p : Packet) (group : Nat) : Option (Group × Nat) :=
  match s.capsule? p.inst with
  | none => none
  | some cap => match cap.groups[group]?, (s.coreOrImage cap (s.destOf p)).membership? group with
    | some g, some m => some (g, m.role)
    | _, _ => none

/-- A granted packet is sent again to what granted it. -/
def State.resendPacket (s : State) (cap : Capsule) (p : Packet) : State :=
  match p.body with
  | .barrier group child _ => match s.reportAt? p group with
    | some (g, role) => s.resendReport p g group role child
    | none => s.dropPacket p.id
  | _ => ((s.resend cap (s.destOf p) p).settle (s.destOf p)).settle p.src

/-- The holder of a grant takes it: a packet goes into its reserved entry, an access to its home; a grant for what its holder has
taken back or had diverted meanwhile does nothing. -/
def State.takeGrant (s : State) (id : Nat) : State :=
  match s.packet? id, s.access? id with
  | some p, _ =>
    match s.capsule? p.inst with
    | some cap => if p.state = .granted then s.resendPacket cap p else s
    | none => s
  | none, some a => if a.state = .granted then (s.setAccess { a with state := .sent, order := s.serial }).tick else s
  | none, none => s

/-- A granted packet is the next that its arrival queue accepts: the queue accepts them in ticket order, those of parked senders apart,
and what waits in its lane goes ahead (R97, R98). -/
def State.nextGranted (s : State) (p : Packet) : Bool :=
  let d := s.destOf p
  let k := s.core d
  let parked := fun (t : Ticket) => ((s.packet? t.pkt).map s.senderParked).getD false
  !(k.tickets.any fun t => t.pkt == p.id) || (match k.tickets.find? fun t => t.granted && !parked t with
    | some t => t.pkt == p.id && (s.allParked d || (decide (k.queue.length < queueSize) && !k.laneHolds))
    | none => true)

/-- The refused packet waits: its core or its destination's is parked (R224), or it is not yet the next that the queue accepts. -/
def State.grantWaits (s : State) (id : Nat) : Bool :=
  match s.packet? id with
  | some p => p.state == .granted && (s.packetParked p || s.senderParked p || (p.body.queues && !s.nextGranted p))
  | none => false

/-- The holder of a grant receives it and resends: a packet into its reserved entry, or an access to its home (R97). -/
def execGrantResend (pkt : Nat) (s : State) : Host.Outcome State Fault Refusal :=
  match s.grantFor? pkt with
  | none => .next s
  | some g => event (!s.grantWaits pkt) (fun s => (s.dropPacket g.id).takeGrant pkt) s

/-- A packet or access refused without a ticket is resent after 64 local cycles, R458. -/
def execTicketlessResend (pkt : Nat) (s : State) : Host.Outcome State Fault Refusal :=
  match s.packet? pkt with
  | some p =>
    match p.state with
    | .refused since => event (decide (since + 64 ≤ s.cycOf p.src) && !s.senderParked p) (fun s => s.setPacket { p with state := .moving }) s
    | _ => .next s
  | none =>
    match s.access? pkt with
    | some a =>
      match a.state with
      | .refused since =>
        event (decide (since + 64 ≤ s.cycOf a.core)) (fun s => (s.setAccess { a with state := .sent, order := s.serial }).tick) s
      | _ => .next s
    | none => .next s

/-! Slots (R79, R80, R96) -/

/-- The entry that a free slot takes: masked classes are passed over, high priority comes first, then the oldest (R79). -/
def State.chooseEntry (s : State) (c : Nat) : Option Packet :=
  let k := s.core c
  let open_ := (k.queue.filterMap s.packet?).filter fun p => !(k.handler p.cls).mask
  match open_.find? fun p => (k.handler p.cls).pri with
  | some p => some p
  | none => open_.head?

/-- The task that a packet starts, R80, R402. -/
def startTask (k : Core) (cls : Nat) (body : PktBody) : Task :=
  let fromWords := fun (tid member : Nat) (words : List (Word × Bool)) =>
    (words.zipIdx).foldl (fun (t : Task) w => t.setReg w.2 w.1.1 w.1.2)
      { Task.fresh with
        pc := BitVec.ofNat 64 (k.handler cls).pc, tsr := BitVec.ofNat 64 (member % 256), tid := BitVec.ofNat 64 tid }
  match body with
  | .task t _ _ => t
  | .message tid member words => fromWords tid member words
  | .faultMessage tid member words => fromWords tid member words
  | _ => Task.fresh

/-- The packet's task was started by a fault message (R402). -/
def PktBody.fromFault : PktBody → Bool
  | .faultMessage _ _ _ => true
  | .task _ _ f => f
  | _ => false

/-- The last MMAT of the packet's task (R329). -/
def PktBody.mmat : PktBody → Option Nat
  | .task _ m _ => m
  | _ => none

/-- The number that stands for the Plaza as the sender of seeds; it is no core's (DESIGN CHOICE, log 25). -/
def plazaSrc : Nat := 0x7FFF

/-- The first load of a seed or of a restored image on a die layer, R219. -/
def State.markFirst (s : State) (inst c : Nat) (first : Bool) : State :=
  match s.capsule? inst with
  | some cap =>
    if first && !(cap.firstLoad.any fun e => e.1 == layerOf c) then
      s.setCapsule { cap with firstLoad := SMap.put cap.firstLoad (layerOf c) (s.cycOf c) }
    else s
  | none => s

/-- Load a packet into a slot: the task is ready, or leaves at once when the core does not hold its segment (R79, R96). -/
def State.loadSlot (s : State) (c n : Nat) (p : Packet) : State :=
  let k := s.core c
  let t := startTask k p.cls p.body
  let away := s.departs c t.pc.toNat
  let sl : Slot :=
    { Slot.fresh with
      state := if away then .departing else .ready
      task := t
      serial := s.serial
      depart := if away then some ⟨0, false, t.pc.toNat⟩ else none
      fromFault := p.body.fromFault
      mmat := p.body.mmat }
  let k' := k.setSlot n sl
  (((s.setCore c { k' with queue := k'.queue.filter fun q => q != p.id }).dropPacket p.id).tick).markFirst p.inst c
    (p.src == plazaSrc)

/-- The capsule of a core runs (R211, R218). -/
def State.runs (s : State) (c : Nat) : Bool :=
  match s.capsuleOf? c with
  | some cap => cap.stage == .running
  | none => false

/-- A free slot takes the chosen entry of the arrival queue, R79. -/
def execSlotLoad (core slot : Nat) (s : State) : Host.Outcome State Fault Refusal :=
  match s.chooseEntry core with
  | none => .next s
  | some p =>
    event ((s.slot core slot).state == .empty && decide (slot < 8) && !(s.core core).evicting && s.runs core)
      (fun s => (s.loadSlot core slot p).settle core) s

/-! Departures (R95, R100, R181) -/

/-- The destination of a slot's departure: GO's own, or the replica of the pc's segment. -/
def departTo (cap : Capsule) (c : Nat) (sl : Slot) : Option Nat :=
  match sl.depart with
  | some ⟨d, true, _⟩ => some d
  | _ => cap.replica? c sl.task.pc.toNat sl.task.tid

/-- Every W, A and F access that the task issued on the core is complete at a scope, R181. -/
def State.drained (s : State) (c n serial scope : Nat) : Bool :=
  s.accesses.all fun a => !(a.core == c && a.slot == n && a.slotSerial == serial && a.isLsu) ||
    a.kind == .r || s.completeAt c scope a.id

/-- The target of a departure is checked before its packet is packed (R417); a GO goes on at the next instruction (DEDUCED, log 63). -/
def Slot.departFault (sl : Slot) (cap : Capsule) : Option FaultInfo :=
  match sl.depart with
  | some ⟨_, true, _⟩ => none
  | _ => targetFault cap false sl.task.pc.toNat

/-- Pack the task of a departing slot and send it on class 2. -/
def State.packTask (s : State) (cap : Capsule) (core slot d : Nat) : State :=
  let sl := s.slot core slot
  let p : Packet :=
    { id := 0, inst := cap.inst, src := core, dest := d, cls := 2, body := .task sl.task sl.mmat sl.fromFault, state := .moving,
      slot := slot % 8, slotSerial := sl.serial, parks := false, leaves := true, role := cap.roleOfCore d, order := 0,
      pc := sl.depart.map (·.pc) }
  (s.setSlot core slot { sl with state := .sending s.serial }).sendPacket p

/-- A departure or GO whose results are in and whose accesses are drained packs the task and sends it on class 2. -/
def execDepartureSend (core slot : Nat) (s : State) : Host.Outcome State Fault Refusal :=
  let sl := s.slot core slot
  match s.capsuleOf? core with
  | none => .next s
  | some cap =>
    let ready := sl.state == .departing && !(s.core core).evicting && !(s.core core).outstanding slot && cap.stage == .running &&
      (s.refusedChild? core slot).isNone
    match sl.departFault cap with
    | some i => event ready (fun s => s.takeFault core slot i sl.task.pc.toNat 0 []) s
    | none =>
      match departTo cap core sl with
      | none => .next s
      | some d => event (ready && s.drained core (slot % 8) sl.serial (scopeOf core d)) (fun s => s.packTask cap core slot d) s

/-! Barriers (R92, R93, R455) -/

/-- A combining message is counted at the core's logic, or refused by its slot, or brings a completion down the tree, in the order of R85, R93. -/
def execBarrierLineArrival (pkt : Nat) (s : State) : Host.Outcome State Fault Refusal :=
  match s.packet? pkt with
  | none => .next s
  | some p =>
    match p.body, (s.capsule? p.inst) with
    | .barrier group role down, some _ =>
      let f := fun (s : State) =>
        let s1 := s.dropPacket pkt
        match down, s.reportAt? p group with
        | none, some (g, at_) => if g.broken then s1 else s.arriveReport p g group at_ role
        | some status, some (g, at_) => if g.broken then s1 else s1.completeRole p.inst group at_ status
        | _, none => s1
      event (p.state == .moving && !s.packetOvertakes p && !s.packetParked p) f s
    | _, _ => .next s

/-- A phase completes: on lines at every member, rows + cols + 6 local cycles after the last arrival; in the tree at role 0 once it
has every count, from where the completion goes down (R92, R93). -/
def execBarrierPhaseComplete (inst group : Nat) (s : State) : Host.Outcome State Fault Refusal :=
  match s.capsule? inst with
  | none => .next s
  | some cap =>
    match cap.groups[group]? with
    | none => .next s
    | some g =>
      match g.complete with
      | none => .next s
      | some last =>
        let due := match g.cores.head? with
          | some c => decide (last + g.a + g.b + 6 ≤ s.cycOf c)
          | none => false
        let status := s.phaseStatus cap group g
        event (!g.onLines || due)
          (fun s => if g.onLines then s.completePhase inst group status else s.completeRole inst group 0 status) s

/-- A wait that reaches its limit ends with status 3 and a class 12 record, R455. -/
def execBarrierTimeout (core slot : Nat) (s : State) : Host.Outcome State Fault Refusal :=
  let sl := s.slot core slot
  match sl.bar, s.capsuleOf? core with
  | some b, some cap =>
    let f := fun (s : State) =>
      let pc := sl.task.pc.toNat
      (s.setSlot core slot { sl with bar := some { b with result := some 3 } }).reportFault cap.inst core sl.task.member pc
        (cap.insnAt pc) 1 ⟨12, 2, b.group, 0, false⟩ sl.fromFault
    event (b.result.isNone && decide (b.limit ≠ 0 ∧ b.limit ≤ (s.cycOf core + 2 ^ 64 - b.began) % 2 ^ 64)) f s
  | _, _ => .next s

end Sys2Proof.Machine
end

