-- ==== Sys2Proof/Machine/Faults.lean ====
section
/-! DEFINITION. Fault records and resume packets (R400-R406), the faults of the issue port (R413, R417) with the filling of the
instruction store (R99), and the eviction and return of sparse pages (R428-R435). -/

namespace Sys2Proof.Machine

open Sys2Proof

/-! The issue port -/

/-- What the issue port of a core fetches, when its capsule runs and a slot of it may issue. -/
def State.fetchAt? (s : State) (c : Nat) : Option Fetched :=
  match s.capsuleOf? c with
  | some cap => if ((s.core c).slot (s.core c).port).state = .ready then some (s.fetch c cap) else none
  | none => none

/-- The task at the issue port is held on a fault of its fetch. -/
def State.fetchFault (s : State) (c : Nat) (cls detail aux len : Nat) (insn : List Byte) : State :=
  let n := (s.core c).port % 8
  s.takeFault c n ⟨cls, detail, aux, 0, false⟩ ((s.core c).slot n).task.pc.toNat len insn

/-- A word that is no instruction is a class 3 fault, R413; an instruction of details 1 and 2 has no length (R414). A set switch
marker parks the task first while it has results outstanding (R82, R411). -/
def execEncodingFault (detail aux : Nat) (s : State) : Host.Outcome State Fault Refusal :=
  let c := s.actor
  match s.fetchAt? c, s.capsuleOf? c with
  | some (.bad e), some cap =>
    let pc := ((s.core c).slot (s.core c).port).task.pc.toNat
    let insn := cap.codeBytes pc (min 16 (32 - pc % 32))
    let len := if detail ≤ 2 then 0 else lenBytes ((insn.getD 0 0).toNat % 4)
    let parks := (insn.getD 0 0).getLsbD 2 && (s.core c).outstanding (s.core c).port
    event (e.detail == detail && e.aux == aux)
      (fun s => if parks then s.endTurn c ((s.core c).port % 8) .parked else s.fetchFault c 3 detail aux len insn) s
  | _, _ => .next s

/-- Sequential flow that reaches CODELEN is a class 5 fault, R417. -/
def execSequentialFlowPastCodelen (s : State) : Host.Outcome State Fault Refusal :=
  let c := s.actor
  match s.fetchAt? c, s.capsuleOf? c with
  | some .pastEnd, some cap => .next (s.fetchFault c 5 3 cap.code.length 0 [])
  | _, _ => .next s

/-- The 512 blocks that an instruction store of 16 KiB holds (R94; DESIGN CHOICE, log 12). -/
def storeBlocks : Nat := 512

/-- A miss of the instruction store fills the block from the code image; a parity error refetches it (R99, R409). In promenade
mode the store holds the pinned segment and nothing else (R94) (DESIGN CHOICE, log 16). -/
def execInstructionStoreFill (core block : Nat) (s : State) : Host.Outcome State Fault Refusal :=
  match s.capsuleOf? core with
  | none => .next s
  | some cap =>
    event (decide (32 * block < cap.code.length) && inSegment (s.core core) (32 * block))
      (fun s =>
        let k := s.core core
        s.setCore core { k with istore := (block :: k.istore.filter fun b => b != block).take storeBlocks }) s

/-! Fault packets (R400-R402, R406) -/

/-- The capsule has a fault handler: HDL3 of its header has MASK = 0 (R402). -/
def Header.hasHandler (h : Header) : Bool := decide (h.hdls.getD 3 1 % 2 = 0)

/-- The task held under a record, on its core or in its image. -/
def State.holdOf? (s : State) (cap : Capsule) (r : FaultRec) : Option Hold :=
  if r.disp = 0 ∧ r.slot < 8 then
    match cap.coreOf? 0 r.role with
    | none => none
    | some c => match ((s.coreOrImage cap c).slot r.slot).hold with
      | some h => if h.record = r ∧ h.seq.isNone then some h else none
      | none => none
  else none

/-- The held task of a record is held under its SEQ from now on. -/
def State.linkHold (s : State) (cap : Capsule) (r : FaultRec) (seq : Nat) : State :=
  match s.holdOf? cap r, cap.coreOf? 0 r.role with
  | some h, some c =>
    let k := s.coreOrImage cap c
    s.setCoreOrImage cap c (k.setSlot r.slot { k.slot r.slot with hold := some { h with seq := some seq } })
  | _, _ => s

/-- A record is written: SEQ, FREC.COUNT, the member's counts, and the lines of the record leave the first-level cache
(R219, R400, R401). A record is overwritten 4,096 faults later (DEDUCED, log 64). -/
def State.writeRecord (s : State) (cap : Capsule) (d : Nat) (r : FaultRec) : State :=
  let seq := cap.recCount
  let count := fun (i : Nat) (m : Member) => if i = r.member then
      { m with
        nfault := m.nfault + 1
        first := if m.nfault = 0 then r.info.cls else m.first }
    else m
  let cap' :=
    { cap with
      records := (cap.records.filter fun q => q.2 + 4096 != seq) ++ [(r, seq)]
      recWords := cap.recWords.filter fun e => e.1 / 32 != seq % 4096
      recCount := seq + 1
      members := cap.members.mapIdx count }
  (s.setCapsule cap').l1DropRun d (2 ^ 64 + faultWindow + 256 * (seq % 4096)) 256

/-- THE HANDLING OF A FAULT PACKET at the core of the supervisor role, R401, R402, R406. A fault of disposition H in a capsule
without a handler, and a fault in a task that a fault message started, end the capsule with status 0x0002. -/
def State.handleFault (s : State) (cap : Capsule) (d : Nat) (r : FaultRec) (late : Bool) : State :=
  let seq := cap.recCount
  let s1 := (s.writeRecord cap d r).linkHold cap r seq
  if late || cap.stage == .completing then s1
  else
    let s2 := if cap.hdr.hasHandler then
        (s1.setCore d { s1.core d with lane := (s1.core d).lane ++ [.message seq r] }).settle d
      else s1
    let unhandled := !cap.hdr.hasHandler && r.disp == 0 && r.slot != 0xFF
    if unhandled || r.handler then s2.endCapsule cap.inst 2 else s2

/-- A packet that its core's logic serves has arrived: the core is not parked, and no earlier packet of the
same source and class is still on its way (R85, R224). -/
def State.atLogic (s : State) (p : Packet) : Bool :=
  p.state == .moving && !s.packetParked p && !s.packetOvertakes p

/-- The supervisor core handles a fault packet. -/
def execFaultPacketHandle (pkt : Nat) (s : State) : Host.Outcome State Fault Refusal :=
  match s.packet? pkt with
  | none => .next s
  | some p =>
    match p.body, s.capsule? p.inst with
    | .fault r late, some cap => event (s.atLogic p) (fun s => (s.dropPacket pkt).handleFault cap (s.destOf p) r late) s
    | _, _ => .next s

/-! Resume packets (R403, R404) -/

/-- The slot of a core that holds a task under a SEQ. -/
def Core.heldUnder? (k : Core) (seq : Nat) : Option Nat :=
  (List.range 8).find? fun n => match (k.slot n).hold with
    | some h => (k.slot n).state == .held && h.seq == some seq
    | none => false

/-- The instruction's length is known to the frame (R414). -/
def Hold.skips (h : Hold) : Bool := h.len != 0

/-- Put a value into the general register that a resume packet names, R403. -/
def State.resumeReg (s : State) (d n : Nat) (w0 : Nat) (w2 : Word × Bool) : State :=
  if bits w0 40 1 = 1 then s.setTask d n ((s.slot d n).task.setReg (bits w0 36 4) w2.1 w2.2) else s

/-- THE RELEASE OF A HELD TASK by a resume packet, R404, R414, R417, R454 (DEDUCED, log 76). -/
def State.resume (s : State) (cap : Capsule) (d : Nat) (words : List (Word × Bool)) : State :=
  let w0 := (words.getD 0 (0, false)).1.toNat
  let action := bits w0 32 4
  match (s.core d).heldUnder? (bits w0 0 32) with
  | none => s
  | some n => match (s.slot d n).hold with
    | none => s
    | some h =>
      let s1 := s.resumeReg d n w0 (words.getD 2 (0, false))
      match action with
      | 0 => s1.releaseTask d n h.record.pc
      | 1 => if h.skips then s1.releaseTask d n (h.record.pc + h.len) else s
      | 2 =>
        let t := (words.getD 1 (0, false)).1.toNat
        match targetFault cap true t with
        | some i => s1.takeFault d n { i with guard := (words.getD 1 (0, false)).2 } h.record.pc h.len (h.record.insn.take h.len)
        | none => s1.releaseTask d n t
      | 3 => (s1.freeSlot d n).breakGroups d h.record.pc h.record.member (h.record.insn.take h.len)
      | 4 => (s1.setSlot d n { s1.slot d n with hold := some { h with seq := none } }).endCapsule cap.inst 4
      | _ => s

/-- A resume packet is served by the logic of its destination core; after the first ending it is dropped (R218). -/
def execResumePacketApply (pkt : Nat) (s : State) : Host.Outcome State Fault Refusal :=
  match s.packet? pkt with
  | none => .next s
  | some p =>
    match p.body, s.capsule? p.inst with
    | .resume words, some cap =>
      event (s.atLogic p)
        (fun s => if cap.stage == .completing then s.dropPacket pkt else (s.dropPacket pkt).resume cap (s.destOf p) words) s
    | _, _ => .next s

/-! Sparse pages (R428-R435) -/

/-- A lookaside entry of a member that sees the extent holds the page. -/
def Lookaside.holds (l : Lookaside) (e : Extent) (page : Nat) : Bool := l.ext == e.index && l.page == some page && e.seen l.member

/-- Every lookaside entry of the capsule's cores that holds a page is invalidated, R431. -/
def State.dropLookasides (s : State) (cap : Capsule) (e : Extent) (page : Nat) : State :=
  (((cap.groups[0]?).map (·.cores)).getD []).foldl (fun s c =>
    let k := s.coreOrImage cap c
    s.setCoreOrImage cap c { k with lookaside := k.lookaside.filter fun l => !l.holds e page }) s

/-- An access of the capsule that was translated through a page is not yet performed at its home (R431, R435) (DEDUCED, log 61). -/
def State.pageInUse (s : State) (a : Access) (cap : Capsule) (e : Extent) (page : Nat) : Bool :=
  s.accesses.any fun b => b.id != a.id && b.usesPage cap e page && b.state != .performed && b.state != .replied

/-- The 2 MiB of a page as the capsule's requests read them. -/
def State.pageBytes (s : State) (b : Bearer) (page : Nat) : List Byte :=
  (List.range 32768).flatMap fun i => s.readDev b (page + 64 * i) 64

/-- VERSION and the stored tag of a page, R141, R428. -/
def State.pageVersion (s : State) (b : Bearer) (e : Extent) (n : Nat) : Nat := leNat (s.readDev b (e.recordAddr n) 4)
def State.storedTag (s : State) (b : Bearer) (e : Extent) (n : Nat) : List Byte := s.readDev b (e.tagAddr n) 32

/-- TAG(n) over the page at an address, R429. -/
def State.tagOf (s : State) (cap : Capsule) (e : Extent) (n page : Nat) : List Byte :=
  pageTag cap.hdr.owner (e.entryAddr n) (s.pageVersion cap.bearer e n) (s.pageBytes cap.bearer page)

/-- The device stores bytes of its own at a home, under an owner's key and lane. -/
def State.storeOwn (s : State) (b : Bearer) (addr : Nat) (data : List Byte) : State :=
  ((s.dropCross addr).writeDev b addr data).markLine b addr data.length false false

/-- Eviction of a page but for the entry's own write, R431. -/
def State.evictPage (s : State) (cap : Capsule) (e : Extent) (n page : Nat) : State :=
  let s1 := s.dropLookasides cap e n
  let v := (s1.pageVersion cap.bearer e n + 1) % 2 ^ 32
  let s2 := s1.storeOwn cap.bearer (e.recordAddr n) (leBytes 4 v)
  s2.storeOwn cap.bearer (e.tagAddr n) (s2.tagOf cap e n page)

/-- The check of a return, R432: a tag of zeros beside VERSION 0 marks a page that has never been evicted. -/
def State.returns (s : State) (cap : Capsule) (e : Extent) (n page : Nat) : Bool :=
  let tag := s.storedTag cap.bearer e n
  (tag == List.replicate 32 0 && s.pageVersion cap.bearer e n == 0) || tag == s.tagOf cap e n page

/-- Engine entries of a core that wait on a page of an extent retry their translation, R432. -/
def Core.retryPages (k : Core) (e : Extent) : Core :=
  let hit := fun (member : Nat) (w : Option (Nat × Nat)) => match w with
    | some (ext, _) => ext == e.index && e.seen member
    | none => false
  let f := fun (o : CopyEntry) => if hit o.member o.waitPage then { o with waitPage := none } else o
  let g := fun (o : QmEntry) => if hit o.member o.waitPage then { o with waitPage := none } else o
  { k with q0 := k.q0.map f, q1 := k.q1.map f, qn := k.qn.map f, qm := k.qm.map g }

/-- The cores of a capsule, by role. -/
def Capsule.cores (cap : Capsule) : List Nat := ((cap.groups[0]?).map (·.cores)).getD []

/-- Every entry of the capsule that waits on a page of an extent retries. -/
def State.retryPages (s : State) (cap : Capsule) (e : Extent) : State :=
  cap.cores.foldl (fun s c => s.setCoreOrImage cap c ((s.coreOrImage cap c).retryPages e)) s

/-- The records of a failed return for one core: its tasks held on class 9 for the page, and its entries that wait on it. -/
def State.returnRecords (s : State) (cap : Capsule) (e : Extent) (n c : Nat) : State :=
  let k := s.coreOrImage cap c
  let aux := n + e.index * 2 ^ 32
  let s1 := k.slots.toList.foldl (fun (s : State) sl => match sl.hold with
    | some h =>
      if h.record.info.cls = 9 ∧ h.record.info.detail = 1 ∧ h.record.info.aux % 2 ^ 40 = aux ∧ e.seen h.record.member then
        s.sendFault cap.inst c
          { h.record with
            info := ⟨10, 2, aux, h.record.info.addr, false⟩
            disp := 2
            frame := some sl.task
            cyc := s.cycOf c
            handler := false }
      else s
    | none => s) s
  let waits := fun (member : Nat) (w : Option (Nat × Nat)) => w == some (e.index, n) && e.seen member
  let s2 := k.copies.foldl (fun (s : State) o => if waits o.member o.waitPage then
      s.reportFault cap.inst c o.member o.pc o.insn 2 ⟨10, 3, o.queue % 4 + o.undone.headD 0 % 2 ^ 12 * 2 ^ 4 + n % 2 ^ 32 * 2 ^ 32, 0, false⟩
    else s) s1
  k.qm.foldl (fun (s : State) o => if waits o.member o.waitPage then
      s.reportFault cap.inst c o.member o.pc o.insn 2 ⟨10, 3, 3 + o.step % 2 ^ 12 * 2 ^ 4 + n % 2 ^ 32 * 2 ^ 32, 0, false⟩
    else s) s2

/-- A return that fails its check ends the capsule whose page vector it writes, R433; the record of the returning store is the storing
capsule's own (DEDUCED, log 62). -/
def State.returnFails (s : State) (a : Access) (cap : Capsule) (e : Extent) (n : Nat) : State :=
  let s1 := s.reportFault a.inst a.core a.member a.pc a.insn 2 ⟨10, 1, n + e.index * 2 ^ 32, a.ca, false⟩
  (cap.cores.foldl (fun s c => s.returnRecords cap e n c) s1).endCapsule cap.inst 3

/-- The entry is written with the data of the store, PRESENT as given, and the store is performed. -/
def State.writeEntry (s : State) (a : Access) (present : Bool) : State :=
  let v := leNat a.data / 2 * 2 + if present then 1 else 0
  ((s.storeAt a (s.placeOf a) (leBytes 8 v) a.guard).forwarded (s.placeOf a) a.id a.inst).acknowledge a

/-- Return of a page: the entry is written and waiting entries retry, or the check fails (R432, R433). -/
def State.returnPage (s : State) (a : Access) (cap : Capsule) (e : Extent) (n page : Nat) : State :=
  if s.returns cap e n page then (s.writeEntry a true).retryPages cap e
  else (s.writeEntry a false).returnFails a cap e n

/-- A page holds a line with an error that a reader of it would meet (R437). -/
def State.pageError? (s : State) (page : Nat) : Option Nat :=
  (s.bad.find? fun e => decide (page / 64 ≤ e.1 ∧ e.1 < page / 64 + 32768 ∧ (e.2 = 6 ∨ e.2 = 8))).map (·.2)

/-- The error that a read of the record or the tag of a page meets (R437). -/
def State.recordError? (s : State) (b : Bearer) (e : Extent) (n : Nat) : Option Nat :=
  [e.recordAddr n, e.tagAddr n].findSome? fun a => s.memError? b (s.homeOf a false) a 4 false

/-- A page-vector store is at its home, and no error stops its procedure: `go` performs it on pages. -/
def State.pageStore (s : State) (a : Access) (cap : Capsule) (e : Extent) (n : Nat) (pages : List Nat) (go : State → State) : State :=
  match s.memError? (s.bearer a.inst) (s.homeNow a) (s.placeOf a) a.size false with
  | some code => (s.afterError (s.placeOf a) a.size a.core false).memFault a code
  | none => match (s.recordError? cap.bearer e n).toList ++ pages.filterMap s.pageError? with
    | code :: _ => s.memFault a code
    | [] => go s

/-- The store has arrived at its home in its turn. -/
def State.storeArrived (s : State) (a : Access) : Bool := a.state == .sent && !s.overtakes a && !s.destParked a

/-- Eviction of a page, or of the old page and then return of the new, as one store (R430, R431). -/
def execPageEviction (acc : Nat) (s : State) : Host.Outcome State Fault Refusal :=
  match s.access? acc with
  | none => .next s
  | some a =>
    match s.vectorStore? a with
    | some (cap, e, n, old, new) =>
      let back := entryPresent new
      let f := fun (s : State) =>
        s.pageStore a cap e n (entryPage old :: if back then [entryPage new] else []) fun s =>
          let s1 := s.evictPage cap e n (entryPage old)
          if back then s1.returnPage a cap e n (entryPage new) else s1.writeEntry a false
      event (s.storeArrived a && s.isEviction a && !s.pageInUse a cap e n) f s
    | none => .next s

/-- Return of a page, R432, R433. -/
def execPageReturn (acc : Nat) (s : State) : Host.Outcome State Fault Refusal :=
  match s.access? acc with
  | none => .next s
  | some a =>
    match s.vectorStore? a with
    | some (cap, e, n, _, new) =>
      event (s.storeArrived a && s.isReturn a)
        (fun s => s.pageStore a cap e n [entryPage new] fun s => s.returnPage a cap e n (entryPage new)) s
    | none => .next s

end Sys2Proof.Machine
end

