-- ==== Sys2Proof/Machine/Plaza.lean ====
section
/-! DEFINITION. What the Plaza's steps share: accesses by device address (R137, R159, R367), owner lanes (R157), completion
records (R218, R219, R440), the device error log's refusals (R445) and the run lists (R200-R204). -/

namespace Sys2Proof.Machine

/-! Accesses by device address -/

/-- What open accesses carry: the open tag in place of an owner lane (R367). -/
def openBearer : Bearer := ⟨1, 4096, none⟩

/-- A device address can be reached: it exists, and towards another package of the pod a port is enabled and up (R136, R369). -/
def State.devReach (s : State) (addr : Nat) : Bool := s.reachable addr && s.linkUp addr

/-- Read a range of device addresses. -/
def State.devRead (s : State) (b : Bearer) (addr n : Nat) : List Byte × State :=
  (unitsOf (addr, n)).foldl (fun (r : List Byte × State) u => (r.1 ++ r.2.readDev b u.1 u.2, r.2.drawRead b.key u.1)) ([], s)

/-- Write bytes of one line at its home, where it can be reached; a line in error is good again once it is written whole (R162, R167,
R409). -/
def State.devPut (s : State) (b : Bearer) (addr : Nat) (data : List Byte) : State :=
  if s.devReach addr then
    (((s.afterError addr data.length 0 true).dropCross addr).writeDev b addr data).markLine b addr data.length false false
  else s

/-- Write a range of device addresses, at the homes of its lines. -/
def State.devWrite (s : State) (b : Bearer) (addr : Nat) (data : List Byte) : State :=
  (unitsOf (addr, data.length)).foldl (fun (s : State) u => s.devPut b u.1 ((data.drop (u.1 - addr)).take u.2)) s

/-- The Plaza can read a range: its addresses can be reached and no line of it is in error (R136, R369, R437). -/
def State.devReadable (s : State) (b : Bearer) (addr n : Nat) : Bool :=
  (unitsOf (addr, n)).all fun u => s.devReach u.1 && (s.memError? b (s.homeOf u.1 false) u.1 u.2 false).isNone

/-- A line of a page vector that the translation of an address reads is in error (R409, R437). -/
def State.entryError (s : State) (e : Extent) (ca : Nat) : Bool :=
  match e.pageOf? ca with
  | some n => (s.vectorError? e n).isSome
  | none => false

/-- Read capsule addresses through one extent; none where the extent does not hold them all, a page is absent, or an error is met. -/
def State.extRead (s : State) (b : Bearer) (e : Extent) (ca n : Nat) : Option (List Byte × State) :=
  if e.vbase ≤ ca ∧ ca + n ≤ e.vbase + e.len then
    (unitsOf (ca, n)).foldl (fun (r : Option (List Byte × State)) u =>
      r.bind fun (l, s) => (s.translate b e u.1).bind fun a =>
        if s.devReadable b a u.2 && !s.entryError e u.1 then some (l ++ s.readDev b a u.2, s.drawRead b.key a) else none) (some ([], s))
  else none

/-! Owner lanes (R157) -/

/-- The lane an owner holds. -/
def State.laneOfOwner? (s : State) (owner : Nat) : Option Nat := (s.plaza.lanes.find? fun l => l.2 == owner).map (·.1)

/-- The lowest free lane. -/
def State.spareLane? (s : State) : Option Nat :=
  (List.range 4096).find? fun n => !s.plaza.lanes.any fun l => l.1 == n

/-- The owner's lane, assigned if it holds none; none when all 4,096 are held. -/
def State.takeLane (s : State) (owner : Nat) : Option (Nat × State) :=
  match s.laneOfOwner? owner with
  | some n => some (n, s)
  | none => s.spareLane?.map fun n => (n, { s with plaza := { s.plaza with lanes := SMap.put s.plaza.lanes n owner } })

/-! Completion records and refusals -/

/-- A completion record, R219. -/
def completionBytes (status member rflags nfault first discarded inst : Nat) (cycs : List Nat) : List Byte :=
  leBytes 2 status ++ leBytes 1 member ++ leBytes 1 rflags ++ leBytes 2 nfault ++ leBytes 2 first ++ leBytes 4 discarded ++
    leBytes 4 inst ++ (List.range 12).flatMap fun l => leBytes 4 (cycs.getD l 0)

/-- A completion record is written as one open write, R218, R367. -/
def State.putRecord (s : State) (compl : Nat) (bytes : List Byte) : State :=
  s.devWrite openBearer compl bytes

/-- The message of a queue's vector is due, R368; a child has no queue. -/
def State.dueMsix (s : State) (queue : Option Nat) : State :=
  match queue with
  | some q => { s with plaza := { s.plaza with msixDue := s.plaza.msixDue ++ [q] } }
  | none => s

/-- RFLAGS of a completion record, R219. -/
def rflags (wasParked merged : Bool) : Nat := (if wasParked then 1 else 0) + if merged then 2 else 0

/-- The records of a refused launch: STATUS 0x0007 for every member, R219, R440, R444. -/
def State.refusedRecords (s : State) (compls : List Nat) (merged : Bool) (queue : Option Nat) : State :=
  ((compls.zipIdx).foldl (fun (s : State) c => s.putRecord c.1 (completionBytes 7 c.2 (rflags false merged) 0 0 0 0 [])) s).dueMsix queue

/-- The units that the device error log names, and its kind "refused seal" (R408, R445, R451; PRESUMED, log 26). -/
def unitPlaza : Nat := 16
def unitLysgeza : Nat := 17

/-- A refused seal, with the address it is logged under, R445. -/
def State.refuseSeal (s : State) (unit addr : Nat) : State := s.logError ⟨unit, addr, 4, 1, 0⟩

/-- A kill under way finds no running capsule of an instance: its launch has been refused (R441). -/
def State.killMisses (s : State) (inst : Nat) : State :=
  if s.host.killGo ∧ s.host.killInst = inst then { s with host := { s.host with killGo := false, killResult := 2 } } else s

/-- A capsule that has taken its instance number is refused: its records are written, its lane is given up, and its number is
not used again (R206, R444). -/
def State.refuseLaunch (s : State) (cap : Capsule) : State :=
  let s1 := { s with capsules := s.capsules.filter fun c => c.inst != cap.inst }.killMisses cap.inst
  (s1.refusedRecords (cap.members.map (·.compl)) cap.merged cap.queue).freeLane cap.hdr.owner

/-! Run lists (R200, R203, R204) -/

/-- A queue's registers and QSB; a queue never configured has the reset values of R363. -/
def Queue.reset : Queue :=
  { en := false, merge := false, qprio := 0, slotlog := 1, array := 0, consumed := 0, latch := 0, own := false }

/-- A host queue. -/
def State.queue (s : State) (q : Nat) : Queue := SMap.get Queue.reset s.plaza.queues q

/-- Replace a host queue. -/
def State.setQueue (s : State) (q : Nat) (v : Queue) : State :=
  { s with plaza := { s.plaza with queues := SMap.put s.plaza.queues q v } }

/-- A QSB is inserted at the end of the run list of a priority, R204; the rules name no place in it (DESIGN CHOICE, log 116). -/
def State.insertQsb (s : State) (q prio : Nat) : State :=
  { s with plaza := { s.plaza with runLists := SMap.put s.plaza.runLists prio (SMap.get [] s.plaza.runLists prio ++ [q]) } }

/-- A QSB is removed from its run list, R204. -/
def State.removeQsb (s : State) (q prio : Nat) : State :=
  { s with plaza := { s.plaza with
      runLists := SMap.put s.plaza.runLists prio ((SMap.get [] s.plaza.runLists prio).filter fun p => p != q) } }

/-- A queue loses EN and its QSB, R363, R447; the walker leaves a QSB that it serves (R204). -/
def State.disableQueue (s : State) (q : Nat) : State :=
  let v := s.queue q
  let s1 := (s.removeQsb q v.qprio).setQueue q { v with en := false, own := false }
  if s1.plaza.serving = some (.queue q) then { s1 with plaza := { s1.plaza with serving := none } } else s1

/-- A capsule that has been taken and has not been committed: it waits, or is being placed (R206, R211). -/
def Capsule.uncommitted (c : Capsule) : Bool :=
  match c.stage with
  | .taken | .placing _ | .pointWait _ => true
  | _ => false

/-- An uncommitted placement is aborted: the reserved cores are released, the checks stand (R211, R449). -/
def Capsule.abort (c : Capsule) : Capsule :=
  match c.stage with
  | .placing _ | .pointWait _ => { c with stage := .placing [] }
  | _ => c

end Sys2Proof.Machine
end

