-- ==== Sys2Proof/Machine/Launch.lean ====
section
/-! DEFINITION. The launch of a capsule: the walker (R203, R208, R211), taking and checking (R201, R206, R213, R214, R440,
R444, R445), the code image, placement (R207-R211) and the commit with its seeds (R86, R111, R145, R146, R156, R183, R212,
R227). Where a capsule is placed is the dispatchers' choice, which the reservation events carry (DESIGN CHOICE, log 17). -/

namespace Sys2Proof.Machine

open Sys2Proof

/-! The walker -/

/-- A queued child that may be launched now: a child with AFTER waits for its parent's completion record (R215). -/
def State.postReady (s : State) (p : Post) : Bool :=
  p.queued && !p.taken && (!p.after || (s.capsule? p.inst).isNone)

/-- The child queue of a priority has a child that may be launched: the one queued first (DEDUCED, log 68). -/
def State.nextChild? (s : State) (prio : Nat) : Option Post :=
  let l := s.plaza.posts.filter fun p => p.prio == prio && s.postReady p
  (l.mergeSort fun a b => decide (a.queuedAt ≤ b.queuedAt)).head?

/-- A QSB has work, R202, R203. -/
def State.hasWork (s : State) : Serve → Bool
  | .queue q => let v := s.queue q; v.en && v.own && decide (v.consumed < v.latch)
  | .child p => (s.nextChild? p).isSome

/-- The run list of a priority: the Plaza's own child queue, then the host queues (R203). -/
def State.runList (s : State) (prio : Nat) : List Serve := .child prio :: (SMap.get [] s.plaza.runLists prio).map .queue

/-- The QSB that a list serves next: the first with work after the one served last, wrapping (R203). Where the one served last has
been removed from its list, service starts at the head (DESIGN CHOICE, log 93). -/
def State.serveFrom (s : State) (prio : Nat) : Option Serve :=
  let l := s.runList prio
  let after := match s.plaza.lastServed.find? fun e => e.1 == prio with
    | some (_, x) => match l.findIdx? fun y => y = x with
      | some i => l.drop (i + 1) ++ l.take (i + 1)
      | none => l
    | none => l
  after.find? s.hasWork

/-- The highest priority with work, and the QSB it serves. -/
def State.topServe? (s : State) : Option (Nat × Serve) :=
  ((List.range 64).map (63 - ·)).findSome? fun p => (s.serveFrom p).map fun x => (p, x)

/-- The Plaza takes capsules: it is brought up, powered, not halted (R448), its domain 0 is not in error (R464), and no
commanded IDLE or GATED is pending (R374). -/
def State.plazaTakes (s : State) : Bool :=
  s.host.ready && s.host.power == .run && !s.host.waking && !s.plaza.halted && !s.host.lockErr.getLsbD 0 &&
    !(s.host.pwrPending && decide (s.host.pwrctl ≠ 0))

/-- A waiting capsule blocks every capsule of equal or lower priority until it is placed, R208. -/
def State.blockedBy (s : State) (prio : Nat) : Bool := s.capsules.any fun c => c.uncommitted && decide (prio ≤ c.hdr.prio)

/-- Another capsule that waits or is being placed comes first: it has the higher priority, or the same and was taken before (R208, R211). -/
def State.outranked (s : State) (cap : Capsule) : Bool :=
  s.capsules.any fun c => c.uncommitted && (decide (cap.hdr.prio < c.hdr.prio) || (cap.hdr.prio == c.hdr.prio && decide (c.inst < cap.inst)))

/-- Uncommitted placements below a priority are aborted, R211. -/
def State.abortBelow (s : State) (prio : Nat) : State :=
  { s with capsules := s.capsules.map fun c => if c.uncommitted ∧ c.hdr.prio < prio then c.abort else c }

/-- The walker serves; uncommitted placements of lower priority are aborted (R211). -/
def execWalkerServe (s : State) : Host.Outcome State Fault Refusal :=
  match s.topServe? with
  | none => .next s
  | some (p, x) =>
    let f := fun (s : State) =>
      { s.abortBelow p with plaza := { s.plaza with serving := some x, lastServed := SMap.put s.plaza.lastServed p x } }
    event (s.plaza.serving.isNone && s.plazaTakes && !s.blockedBy p) f s

/-! Taking and checking -/

/-- What the first three checks of R444 say. -/
inductive Judged where
  | ok | seal | refused
  deriving DecidableEq, Repr

/-- Checks 1 to 3 of R444 for a capsule posted to a queue of a priority (R205), with R445. -/
def judge (b : List Byte) (prio : Nat) : Judged :=
  let h := headerOf b
  if !h.framed then .seal
  else if b.drop (b.length - 32) != sealOf h.owner (b.take (b.length - 32)) then .seal
  else if !h.complOk then .seal
  else if imageOk b && h.prio == prio then .ok
  else .refused

/-- A capsule whose seal is accepted passes check 3 of R444. -/
def passes (b : List Byte) (prio : Nat) : Bool := imageOk b && (headerOf b).prio == prio

/-- Read the capsule that a slot's address names; none where the address is none that the Plaza can read (R201, R445). -/
def State.readCapsule (s : State) (a : Nat) : Option (List Byte) × State :=
  if a % 32 = 0 ∧ openSpace a ∧ s.devReadable openBearer a 8 then
    let (b, s1) := s.devRead openBearer a 8
    let n := fieldAt b 6 2
    if n < 352 ∨ 16384 < n then (some b, s1)
    else if s1.devReadable openBearer a n then
      let (c, s2) := s1.devRead openBearer a n
      (some c, s2)
    else (none, s1)
  else (none, s)

/-- The next slot of a queue, R201: its capsule's address and image. -/
def State.nextSlot (s : State) (q : Nat) : Nat × Option (List Byte) × State :=
  let v := s.queue q
  let at_ := v.array + 16 * (v.consumed % 2 ^ v.slotlog)
  let (b, s1) := s.devRead openBearer at_ 8
  let a := leNat b
  let (c, s2) := s1.readCapsule a
  (a, c, s2)

/-- A capsule of a queue counts as taken, R201. -/
def State.consume (s : State) (q : Nat) : State := s.setQueue q { s.queue q with consumed := (s.queue q).consumed + 1 }

/-- The extents of one capsule's section that every member sees. -/
def CapImage.shared (im : CapImage) : List Extent := im.exts.filter (·.allm)

/-- A capsule matches member 0, R213. -/
def matchesFirst (first b : List Byte) : Bool :=
  let h := headerOf first
  let part := fun (l : List Byte) (lo n : Nat) => (l.drop lo).take n
  part first 8 120 == part b 8 120 && part first 136 120 == part b 136 120 &&
    part first h.groupOff (h.rostOff + 2 * h.nrost - h.groupOff) == part b h.groupOff (h.rostOff + 2 * h.nrost - h.groupOff) &&
    decide ((headerOf b).arglen ≤ 2048) && (imageOf first).shared == (imageOf b).shared

/-- Entries of the launch's extent table, R214. -/
def tableSize (members : List (Nat × List Byte)) : Nat :=
  match members with
  | [] => 0
  | m :: _ => (imageOf m.2).shared.length + (members.map fun e => ((imageOf e.2).exts.filter fun x => !x.allm).length).sum

/-- Take the members of a launch from a queue, R213, with the refused seals of R445 on the way; one that fails check 3 is a member
like the others, which R440 refuses with all of them. `n` bounds the slots (DEDUCED, log 65). -/
def State.gather (q prio : Nat) (merge : Bool) : Nat → List (Nat × List Byte) → State → List (Nat × List Byte) × State
  | 0, got, s => (got, s)
  | n + 1, got, s =>
    if (s.queue q).latch ≤ (s.queue q).consumed ∨ 256 ≤ got.length ∨ (merge = false ∧ got ≠ []) then (got, s)
    else
      let (a, image, s1) := s.nextSlot q
      match image with
      | none => State.gather q prio merge n got ((s1.consume q).refuseSeal unitPlaza a)
      | some b => match judge b prio with
        | .seal => State.gather q prio merge n got ((s1.consume q).refuseSeal unitPlaza a)
        | .ok | .refused =>
          let fits := match got with
            | [] => true
            | m :: _ => matchesFirst m.2 b && decide (tableSize (got ++ [(a, b)]) ≤ 2048)
          if fits then State.gather q prio merge n (got ++ [(a, b)]) (s1.consume q) else (got, s1)

/-- The extents of a launch, R214: in a merged launch the own extents of member m carry m. -/
def launchExtents (images : List CapImage) : List Extent :=
  match images with
  | [] => []
  | [im] => im.exts
  | im :: _ => im.shared ++ (images.zipIdx).flatMap fun e => (e.1.exts.filter fun x => !x.allm).map fun x => { x with member := e.2 }

/-- The launch of some members, with its instance number and owner lane. A merge lane that gathers one member makes a launch that is
not merged (DESIGN CHOICE, log 92). -/
def launchOf (inst lane : Nat) (queue : Option Nat) (post parent : Option Nat) (got : List (Nat × List Byte)) : Capsule :=
  let images := got.map fun e => imageOf e.2
  let im := imageOf ((got.headD (0, [])).2)
  { inst := inst, queue := queue, post := post, parent := parent, hdr := im.hdr, origin := (got.headD (0, [])).1,
    merged := decide (1 < got.length), members := images.map fun i => ⟨i.args, i.hdr.compl, 0, 0⟩,
    exts := launchExtents images, groups := im.groups, tensors := im.tensors, segs := im.segs, roster := im.roster,
    lane := lane, code := [], stage := .taken, status := 0, endReqs := [], killed := false, holders := [], records := [],
    recWords := [], recCount := 0, discarded := 0, saveCounter := 0, wasParked := false, parked := [], firstLoad := [] }

/-- Before the instance number 0 is used again, every scratchpad is scrubbed of what an ended instance has left; a register space that
no running capsule holds is empty (R160; DESIGN CHOICE, log 94: what a running instance holds is kept). -/
def State.scrubSpaces (s : State) : State :=
  let stale := fun (line : Nat) => match s.stag.find? fun e => e.1 == line with
    | some (_, i) => (s.capsule? i).isNone
    | none => false
  let gone := fun (a : Nat) => devSpace a == 2 && stale (a / 64)
  { s with
    mem := s.mem.filter fun e => !gone e.1
    full := s.full.filter fun e => !gone (8 * e.1)
    sguard := s.sguard.filter fun e => !gone (64 * e.1)
    bad := s.bad.filter fun e => !gone (64 * e.1)
    stag := s.stag.filter fun e => !stale e.1 }

/-- The next instance number is used up; the scrub comes before the number 0 does again (R160). -/
def State.nextInstance (s : State) : State :=
  let n := (s.plaza.instCount + 1) % 2 ^ 32
  let s1 := if n = 0 then s.scrubSpaces else s
  { s1 with plaza := { s1.plaza with instCount := n } }

/-- A taken launch gets its instance number and lane and goes on to the code checks; none while it must wait for a lane
(R157, R160, R206). -/
def State.letIn (s : State) (queue : Option Nat) (post parent : Option Nat) (got : List (Nat × List Byte)) : Option State :=
  let done := { s with plaza := { s.plaza with serving := none } }
  if got.isEmpty then some done
  else match done.takeLane (headerOf ((got.headD (0, [])).2)).owner with
    | none => none
    | some (lane, s1) =>
      let cap := launchOf s1.plaza.instCount lane queue post parent got
      some { s1 with capsules := s1.capsules ++ [cap] }.nextInstance

/-- What was served has been taken: the launch of some members is let in, or refused with a record for every member where one of them
fails check 3 (R440, R444); placements of lower priority are aborted (R211). -/
def State.takeLaunch (s : State) (q prio : Nat) (got : List (Nat × List Byte)) : Option State :=
  let s1 := s.abortBelow prio
  if got.all fun e => passes e.2 prio then s1.letIn (some q) none none got
  else
    let s2 := s1.refusedRecords (got.map fun e => (headerOf e.2).compl) (decide (1 < got.length)) (some q)
    some { s2 with plaza := { s2.plaza with serving := none } }

/-- The Plaza takes what the walker serves. -/
def execCapsuleTake (s : State) : Host.Outcome State Fault Refusal :=
  match s.plaza.serving with
  | none => .next s
  | some (.queue q) =>
    let v := s.queue q
    let n := if v.merge then v.latch - v.consumed else 1
    let (got, s1) := s.gather q v.qprio v.merge n []
    .next (if s.plazaTakes then (s1.takeLaunch q v.qprio got).getD s else s)
  | some (.child prio) =>
    match s.nextChild? prio with
    | none => .next { s with plaza := { s.plaza with serving := none } }
    | some p =>
      let s1 := s.setPost { p with taken := true }
      .next (if s.plazaTakes then ((s1.abortBelow prio).letIn none (some p.id) (some p.inst) [(p.addr, p.image)]).getD s else s)

/-! The code image (R206, R444) -/

/-- Check 4 of R444, but for the pages of a sparse extent. -/
def Capsule.codeNamed (cap : Capsule) : Bool :=
  let h := cap.hdr
  decide (0 < h.codelen ∧ h.entry < h.codelen) &&
    (if h.xext = 0xFF then openSpace h.codeaddr
     else match cap.exts.find? fun e => e.index == h.xext with
       | some e => e.x && decide (e.vbase ≤ h.codeaddr ∧ h.codeaddr + h.codelen ≤ e.vbase + e.len)
       | none => false)

/-- Read CODELEN bytes of the code image, R206: an open access for a device address, else under the owner's key. -/
def State.readCode (s : State) (cap : Capsule) : Option (List Byte × State) :=
  let h := cap.hdr
  if h.xext = 0xFF then
    if s.devReadable openBearer h.codeaddr h.codelen then some (s.devRead openBearer h.codeaddr h.codelen) else none
  else (cap.exts.find? fun e => e.index == h.xext).bind fun e => s.extRead cap.bearer e h.codeaddr h.codelen

/-- The launch goes on with its code image; a cached image of another length than CODELEN is cut or filled with zeros (DESIGN CHOICE,
log 95). -/
def State.setCode (s : State) (cap : Capsule) (code : List Byte) : State :=
  s.setCapsule { cap with code := padTo cap.hdr.codelen code, stage := .placing [] }

/-- The code image is found in the identity cache, or read, hashed, compared and cached; a failure refuses the launch. -/
def State.verifyCode (s : State) (cap : Capsule) : State :=
  if !cap.codeNamed then s.refuseLaunch cap
  else match s.plaza.idCache.find? fun e => e.1 == cap.hdr.codeid with
    | some (_, code) => s.setCode cap code
    | none => match s.readCode cap with
      | none => s.refuseLaunch cap
      | some (code, s1) =>
        if sha3_512 code = cap.hdr.codeid then
          ({ s1 with plaza := { s1.plaza with idCache := s1.plaza.idCache ++ [(cap.hdr.codeid, code)] } }).setCode cap code
        else s1.refuseLaunch cap

/-- Check 4 and check 5 of R444. -/
def execCodeImageVerify (inst : Nat) (s : State) : Host.Outcome State Fault Refusal :=
  match s.capsule? inst with
  | none => .next s
  | some cap => event (cap.stage == .taken) (fun s => s.verifyCode cap) s

/-! Placement (R68, R88, R207-R210) -/

/-- A present core of sufficient class, R208. -/
def State.suits (s : State) (h : Header) (c : Nat) : Bool :=
  decide (c < 18432) && !s.absentCores.contains c && (decide (h.regs ≤ 24576) || !s.smallCores.contains c)

/-- The cores that uncommitted placements have reserved. -/
def State.reserved (s : State) : List Nat :=
  s.capsules.flatMap fun k => match k.stage with
    | .placing r | .pointWait r => (r.filter fun e => decide (e.1 < 6)).flatMap (·.2)
    | _ => []

/-- A core that belongs to no capsule and is not reserved. -/
def State.isFree (s : State) (c : Nat) : Bool := (s.core c).inst.isNone && !s.reserved.contains c

/-- Two cores lie in one cluster, or in clusters one router hop apart (R88). -/
def hopNear (a b : Nat) : Bool :=
  clusterOf a == clusterOf b ||
    decide (layerOf a = layerOf b ∧
      absDiff (clusterX (clusterOf a)) (clusterX (clusterOf b)) + absDiff (clusterY (clusterOf a)) (clusterY (clusterOf b)) = 1)

/-- Core `c` may be the next role of a group after the cores `acc`: its shape (R68, R88) and its scope allow it. -/
def Group.roleFits (g : Group) (acc : List Nat) (c : Nat) : Bool :=
  let i := acc.length
  let inScope := match acc.head? with
    | some f => decide (scopeOf f c ≤ g.scope)
    | none => decide (1 ≤ g.scope)
  inScope && match g.shape with
    | 0 | 1 => match acc.head? with
      | some f => c == coreAt (layerOf f) (rowOf f + i / g.b) (colOf f + i % g.b)
      | none => decide (rowOf c + g.a ≤ 32 ∧ colOf c + g.b ≤ 48)
    | 2 => match acc.getLast?, acc.head? with
      | some l, some f => hopNear l c && (decide (i + 1 < g.a) || hopNear c f)
      | _, _ => true
    | _ => true

/-- The cores are a binding of the group, in role order. -/
def Group.fits (g : Group) (cs : List Nat) : Bool :=
  decide (cs.length = g.members) && cs.Nodup && (List.range cs.length).all fun i => g.roleFits (cs.take i) (cs.getD i 0)

/-- The die layer that the WS extent of lowest index names for a group 0 of die-layer scope or narrower, R209; of members' own extents
of one index, that of the first member. -/
def Capsule.wsLayer? (cap : Capsule) : Option Nat :=
  let l := (cap.exts.filter (·.ws)).mergeSort fun a b => decide (a.index ≤ b.index)
  match cap.groups.head? with
  | some g => if g.scope ≤ 3 then l.head?.map fun e => wsLayer e.dbase else none
  | none => none

/-- Group 0 of a capsule. -/
def Capsule.group0 (cap : Capsule) : Group := cap.groups.headD (groupAt [] 0)

/-- The shares of group 0 that R207 allows: members for each chiplet (DEDUCED, log 67). -/
def Capsule.shares (cap : Capsule) : List (List Nat) :=
  let g := cap.group0
  let m := g.members
  let even := fun (chips : List Nat) => (List.range 6).map fun c =>
    match chips.findIdx? fun x => x = c with
    | some i => m / chips.length + if i < m % chips.length then 1 else 0
    | none => 0
  if cap.hdr.part.any (· != 0) then [cap.hdr.part]
  else if g.scope ≤ 4 then (List.range 6).map fun c => even [c]
  else if g.scope = 5 then [even [0, 1, 2], even [3, 4, 5]]
  else [even [0, 1, 2, 3, 4, 5]]

/-- The chiplet of a role under a share vector: chiplets take roles in ascending order (R207). -/
def chipletOfRole : List Nat → Nat → Nat → Nat
  | [], c, _ => c
  | n :: rest, c, r => if r < n then c else chipletOfRole rest (c + 1) (r - n)

/-- The roles that a list group names, R89. In a merged launch LEXT may be the index of an extent with ALLM = 0, of which each member has
its own: the first found gives the list, which is member 0's where it has one (DESIGN CHOICE, log 108). -/
def State.listRoles (s : State) (cap : Capsule) (g : Group) : Option (List Nat) :=
  (cap.exts.find? fun e => e.index == g.lext).bind fun e =>
    (s.extRead cap.bearer e g.laddr (4 * g.a)).bind fun r =>
      let l := fieldsAt r.1 0 4 g.a
      if l.all fun i => decide (i < cap.group0.members) then some l else none

/-- A search for a binding: each role takes the first candidate with which the rest can be bound. -/
def searchRoles (ok : List Nat → Nat → Bool) (final : List Nat → Bool) (cands : List Nat) : Nat → List Nat → Bool
  | 0, acc => final acc
  | n + 1, acc => cands.any fun c => ok acc c && searchRoles ok final cands n (acc ++ [c])

/-- The cores reserved under a key of a reservation list: a chiplet's share, or group k's binding under 5 + k. -/
def reservedAt (ready : List (Nat × List Nat)) (key : Nat) : Option (List Nat) := (ready.find? fun e => e.1 == key).map (·.2)

/-- Group 0's cores in role order, once every dispatcher is ready. -/
def gangCores (ready : List (Nat × List Nat)) : Option (List Nat) :=
  ((List.range 6).mapM (reservedAt ready)).map List.flatten

/-- The cores of a further group keep its shape and scope (R68, R88), and each of them, a core of group 0 that `used` lists once for
each other group that it is in, comes to at most four groups (R207). -/
def Group.bindsTo (g : Group) (cs used l : List Nat) : Bool :=
  decide (l.length = g.members) && ((List.range l.length).all fun i => g.roleFits (l.take i) (l.getD i 0)) &&
    (g.shape == 3 || decide l.Nodup) && l.all fun c => cs.contains c && decide (used.count c < 3)

/-- The groups after group 0 can be bound to its cores, or stand bound to them by a list or by a reservation, each core in at most
four groups (R89, R207); `used` lists the cores of the groups already bound, each once for each group, and `k` numbers the first
group. -/
def State.groupsBind (s : State) (cap : Capsule) (ready : List (Nat × List Nat)) (cs : List Nat) :
    List Group → Nat → List Nat → Bool
  | [], _, _ => true
  | g :: rest, k, used =>
    let bound := fun (l : List Nat) => g.bindsTo cs used l && s.groupsBind cap ready cs rest (k + 1) (used ++ l.eraseDups)
    if g.shape = 7 then s.groupsBind cap ready cs rest (k + 1) used
    else if g.shape = 3 then
      match s.listRoles cap g with
      | none => false
      | some roles => bound (roles.map fun r => cs.getD r 0)
    else match reservedAt ready (5 + k) with
      | some l => bound l
      | none => searchRoles (fun acc c => !acc.contains c && decide (used.count c < 3) && g.roleFits acc c) bound cs g.members []

/-- What the reservations say of a role of group 0 under a share vector: the cores of a chiplet whose dispatcher is ready stand; any
other must be available. -/
def reservedRole (ready : List (Nat × List Nat)) (v : List Nat) (avail : Nat → Bool) (role c : Nat) : Bool :=
  let chip := chipletOfRole v 0 role
  chipletOf c == chip && match reservedAt ready chip with
    | some l => l[role - (v.take chip).sum]? == some c
    | none => avail c

/-- A placement of the capsule exists that keeps what is reserved and takes its other cores from those that are available,
R207-R210; it uses every core of `must`. A group 0 of SHAPE 3 has no roles to index: its list is never read, and any cores within its
scope bind it (DESIGN CHOICE, log 109). -/
def State.placeableOn (s : State) (cap : Capsule) (ready : List (Nat × List Nat)) (avail : Nat → Bool)
    (must : List Nat := []) : Bool :=
  let g := cap.group0
  let onLayer := fun (c : Nat) => match cap.wsLayer? with
    | some l => layerOf c == l
    | none => true
  cap.shares.any fun v => decide (v.sum = g.members) &&
    (ready.all fun e => decide (6 ≤ e.1) || v.getD e.1 0 == e.2.length) &&
    searchRoles
      (fun acc c => reservedRole ready v avail acc.length c && s.suits cap.hdr c && !acc.contains c && g.roleFits acc c && onLayer c)
      (fun cs => (must.all fun c => cs.contains c) && s.groupsBind cap ready cs (cap.groups.drop 1) 1 []) (List.range 18432) g.members []

/-- A capsule can be placed on the package as built, every present core being free, R210. -/
def State.placeable (s : State) (cap : Capsule) : Bool := s.placeableOn cap [] fun _ => true

/-- Other capsules with a WS extent wait while a running stocking capsule writes its layer, R154. -/
def State.wsBlocked (s : State) (cap : Capsule) : Bool :=
  cap.exts.any fun e => e.ws && s.capsules.any fun k => k.inst != cap.inst && !k.uncommitted && k.hdr.stock &&
    k.exts.any fun x => x.ws && x.w && devPkg x.dbase == devPkg e.dbase && wsLayer x.dbase == wsLayer e.dbase

/-- A core would serve a parked image that is restored ahead of the capsule, R225, R450. -/
def State.keptForParked (s : State) (cap : Capsule) (c : Nat) : Bool :=
  s.capsules.any fun k => !k.parked.isEmpty && decide (cap.hdr.prio ≤ k.hdr.prio) && s.suits k.hdr c

/-- A core that a dispatcher may reserve for the capsule. -/
def State.reservable (s : State) (cap : Capsule) (c : Nat) : Bool := s.isFree c && !s.keptForParked cap c

/-- The reservation of a chiplet's share, from which a placement can be completed (R207-R210). -/
def State.shareOk (s : State) (cap : Capsule) (ready : List (Nat × List Nat)) (key : Nat) (cores : List Nat) : Bool :=
  (cores.all fun c => s.reservable cap c) && s.placeableOn cap (ready ++ [(key, cores)]) (s.reservable cap)

/-- The binding of a further group, with which the groups after it can be bound (R207). -/
def State.groupOk (s : State) (cap : Capsule) (ready : List (Nat × List Nat)) (key : Nat) (cores : List Nat) : Bool :=
  match gangCores ready, cap.groups[key - 5]? with
  | some _, some g => decide (g.shape ≤ 2) && s.placeableOn cap (ready ++ [(key, cores)]) (s.reservable cap)
  | _, _ => false

/-- A dispatcher reserves the cores of its share, in role order, and reports ready; under 5 + k the dispatchers bind group k.
Reservations from which no placement can be completed any more, since a parked core has been restored to one that they counted on, are
given up first (R210). A capsule that could not be placed even with every core free is refused (R207-R211; DESIGN CHOICE, log 17). -/
def execGangReserve (inst chiplet : Nat) (cores : List Nat) (s : State) : Host.Outcome State Fault Refusal :=
  match s.capsule? inst with
  | none => .next s
  | some cap =>
    match cap.stage with
    | .placing ready =>
      if s.placeable cap = false then .next (s.refuseLaunch cap)
      else
        let (ready, s1) := if s.placeableOn cap ready (s.reservable cap) then (ready, s) else ([], s.setCapsule cap.abort)
        let ok := (reservedAt ready chiplet).isNone && !s1.outranked cap &&
          (if chiplet < 6 then s1.shareOk cap ready chiplet cores else s1.groupOk cap ready chiplet cores)
        event ok (fun _ => s1.setCapsule { cap with stage := .placing (ready ++ [(chiplet, cores)]) }) s
    | _ => .next s

/-! The commit (R206, R211, R212, R227) -/

/-- The groups with their bindings, R90; none while some group is not bound. -/
def State.bindings (s : State) (cap : Capsule) (ready : List (Nat × List Nat)) : Option (List Group) :=
  (gangCores ready).bind fun cs => (cap.groups.zipIdx).mapM fun (g, k) =>
    if k = 0 then some { g with cores := cs }
    else if g.shape = 7 then some g
    else if g.shape = 3 then (s.listRoles cap g).map fun l => { g with cores := l.map fun r => cs.getD r 0 }
    else (reservedAt ready (5 + k)).map fun l => { g with cores := l }

/-- The memberships of a core, R132. A list that names a role twice gives its core one membership, with the first index (DESIGN CHOICE,
log 96). -/
def membershipsOf (groups : List Group) (c : Nat) : List Membership :=
  (groups.zipIdx).filterMap fun (g, k) => if g.shape = 7 then none else
    (g.cores.findIdx? fun d => d = c).map fun r => ⟨k, r, false, false, false, 0, false, false⟩

/-- The handler entries of a header, R86, R125, R193. -/
def Header.handlers (h : Header) : Vector Handler 16 :=
  Vector.ofFn fun i => let v := h.hdls.getD i.val 1; ⟨decide (v % 2 = 1), false, decide (v / 2 % 2 = 1), v / 4 * 4⟩

/-- A core of a capsule as the commit sets it, R86, R94, R113-R127, R183. -/
def launchCore (cap : Capsule) (groups : List Group) (serial role c : Nat) : Core :=
  let h := cap.hdr
  let seg := cap.segs.find? fun g => g.roles.contains role
  let view := fun (i : Nat) => BitVec.ofNat 64 (h.views.getD i 0)
  { Core.idle with
    inst := some cap.inst
    role := role
    members := membershipsOf groups c
    seg := if h.prom then seg.map fun g => (g.start, g.len) else none
    istore := if h.prom then (seg.map fun g => (List.range (g.len / 32)).map (g.start / 32 + ·)).getD [] else []
    vwv := view 0
    vwm := view 1
    vwa := view 2
    fmt := Vector.ofFn fun i => fdKept (BitVec.ofNat 32 (h.fmts.getD i.val 0))
    hdl := h.handlers
    mode := BitVec.ofNat 24 h.classmode
    tensors := cap.tensors.map fun e => (e.1, tKept e.2)
    acquired := serial }

/-- The holders of writer capabilities at launch, R145; a capability that the parent has promised is not held yet (R217). -/
def State.launchHolders (s : State) (cap : Capsule) : List Holder :=
  let barred := match s.plaza.posts.find? fun p => cap.post == some p.id with
    | some p => p.barred
    | none => []
  (cap.exts.filter (·.u)).map fun e => ⟨e.member, e.index, if barred.contains e.index then none else some e.wrole, none⟩

/-- A stocking launch clears a bank and gives it the owner's tag, R156, R437. -/
def State.stockBank (s : State) (owner layer bank : Nat) : State :=
  let lo := 2 ^ 60 + s.pkgId * 2 ^ 47 + layer * 2 ^ 28 + bank * 2 ^ 24
  let inside := fun (a : Nat) => decide (lo ≤ a ∧ a < lo + 2 ^ 24)
  { s with
    mem := clearRange s.mem lo (lo + 2 ^ 24)
    bad := s.bad.filter fun e => !inside (64 * e.1)
    cross := s.cross.filter fun l => !inside (64 * l.line)
    stock := SMap.put s.stock (16 * layer + bank) (stockTag owner layer bank) }

/-- The banks of package `pkg` that the writable WS extents of a stocking capsule touch. -/
def Capsule.stockBanks (cap : Capsule) (pkg : Nat) : List (Nat × Nat) :=
  if cap.hdr.stock then
    (cap.exts.filter fun e => e.ws && e.w && devPkg e.dbase == pkg).flatMap fun e =>
      let lo := e.dbase % 2 ^ 28
      (List.range ((lo + e.len - 1) / 2 ^ 24 - lo / 2 ^ 24 + 1)).map fun i => (wsLayer e.dbase, lo / 2 ^ 24 + i)
  else []

/-- The seed of a member on the core of a role, R102, R111, R212. -/
def seedTask (h : Header) (role member : Nat) : Task :=
  let t : Task :=
    { Task.fresh with
      pc := BitVec.ofNat 64 h.entry
      tsr := BitVec.ofNat 64 member
      tid := mix 0 role }
  ((t.setReg 0 (BitVec.ofNat 64 role) false).setReg 1 (BitVec.ofNat 64 (argWindow + 2048 * member)) false).setReg 2
    (BitVec.ofNat 64 member) false

/-- The seeds of one core, in ascending member. -/
def State.sendSeeds (s : State) (cap : Capsule) (role c : Nat) : State :=
  (List.range cap.members.length).foldl (fun (s : State) m =>
    s.sendPacket
      { id := 0, inst := cap.inst, src := plazaSrc, dest := c, cls := 2, body := .task (seedTask cap.hdr role m) none false, state := .moving,
        slot := 8, slotSerial := 0, parks := false, leaves := false, role := role, order := 0, pc := none }) s

/-- A post whose child has been committed or refused is kept only while its parent may name it (R357). -/
def State.prunePosts (s : State) : State :=
  let keep := fun (p : Post) => !p.taken || (s.capsule? p.inst).isSome || s.capsules.any fun c => c.uncommitted && c.post == some p.id
  { s with plaza := { s.plaza with posts := s.plaza.posts.filter keep } }

/-- THE COMMIT: what the discovery table shows of the pod is loaded (R6, R188), every core is set, every stocked bank is cleared, and the seeds are sent. A scratchpad needs no clearing: what another
instance has left there is gone for the new one (R146, R160). -/
def State.commit (s : State) (cap : Capsule) (groups : List Group) : State :=
  let cs := (groups.headD (groupAt [] 0)).cores
  let cap' := { cap with groups := groups, stage := .running, holders := s.launchHolders cap, onzId := s.host.onzId }
  let s1 := (s.setCapsule cap').tick
  let s2 := (cap.stockBanks s.pkgId).foldl (fun s b => s.stockBank cap.hdr.owner b.1 b.2) s1
  let s3 := (cs.zipIdx).foldl (fun (s : State) e => s.setCore e.1 (launchCore cap' groups s1.serial e.2 e.1)) s2
  ((cs.zipIdx).foldl (fun s e => s.sendSeeds cap' e.2 e.1) s3).prunePosts

/-- OPDEFn, R373. -/
def State.opdefReg (s : State) (n : Nat) : Nat := s.host.opdef[n % 4]'(Nat.mod_lt _ (by decide))

/-- The clock of a point; a domain 16 in error holds every class at 600 MHz (R464). -/
def State.pointClock (s : State) (n : Nat) : Nat := if s.host.lockErr.getLsbD 16 then 600 else s.opdefReg n

/-- The cores are clocked: the package is in RUN (R374). -/
def State.clocked (s : State) : Bool := s.host.power == .run

/-- The point that a frequency class asks for. -/
def State.classPoint (s : State) (cls : Nat) : Nat := bits s.host.opctl (2 * cls) 2

/-- The chiplets of a placement that run below the requested point, when the host permits that point, R227. -/
def State.slowChiplets (s : State) (cap : Capsule) (cs : List Nat) : List Nat :=
  let n := s.classPoint cap.hdr.fclass
  if bits s.host.opctl (8 + n) 1 = 1 ∧ s.host.lockErr.getLsbD 16 = false then
    (List.range 6).filter fun c => cs.any (fun d => chipletOf d == c) &&
      decide (s.pointClock (s.host.points.toList.getD c 0) < s.pointClock n)
  else []

/-- The bindings keep R207; the lists of list groups may have been written since the reservation. -/
def groupsStand (groups : List Group) : Bool :=
  let cs := (groups.headD (groupAt [] 0)).cores
  let others := (groups.drop 1).filter fun g => g.shape != 7
  (others.zipIdx).all fun (g, i) => g.bindsTo cs ((others.take i).flatMap fun h => h.cores.eraseDups) g.cores

/-- All dispatchers are ready: the gang is committed, or the commit waits for the requested operating point (R211, R227). Where a list
group has come to name roles that break R207, the capsule is placed anew. -/
def execGangCommit (inst : Nat) (s : State) : Host.Outcome State Fault Refusal :=
  match s.capsule? inst with
  | none => .next s
  | some cap =>
    match cap.stage with
    | .placing ready =>
      match s.bindings cap ready with
      | none => .next s
      | some groups =>
        event (!s.wsBlocked cap && s.clocked && !s.outranked cap)
          (fun s => if groupsStand groups = false then s.setCapsule cap.abort
            else if s.slowChiplets cap (groups.headD (groupAt [] 0)).cores = [] then s.commit cap groups
            else s.setCapsule { cap with stage := .pointWait ready }) s
    | _ => .next s

/-- The chiplets run at a point. -/
def State.setPoints (s : State) (chips : List Nat) (n : Nat) : State :=
  { s with host := { s.host with points := Vector.ofFn fun i => if chips.contains i.val then n else s.host.points[i] } }

/-- A chiplet on which no capsule runs is held at FLOOR, R373 (DEDUCED, log 69). -/
def State.floorPoints (s : State) : State :=
  let idle := (List.range 6).filter fun c => !s.cores.any fun e => chipletOf e.1 == c && e.2.inst.isSome
  s.setPoints idle (bits s.host.opctl 12 2)

/-- The requested point is reached and the held commit proceeds, R227. -/
def execOperatingPointReached (inst : Nat) (s : State) : Host.Outcome State Fault Refusal :=
  match s.capsule? inst with
  | none => .next s
  | some cap =>
    match cap.stage with
    | .pointWait ready =>
      match s.bindings cap ready with
      | none => .next s
      | some groups =>
        let chips := s.slowChiplets cap (groups.headD (groupAt [] 0)).cores
        event (!s.wsBlocked cap && s.clocked && !s.outranked cap) (fun s => if groupsStand groups = false then s.setCapsule cap.abort else (s.setPoints chips (s.classPoint cap.hdr.fclass)).commit cap groups) s
    | _ => .next s

end Sys2Proof.Machine
end

