-- ==== Sys2Proof/Machine/Complete.lean ====
section
/-! DEFINITION. The end of a capsule: the stop and the drain (R218, R405, R406, R442), the completion records with what is freed
(R157, R217, R219, R441), and the MSI-X message (R368). -/

namespace Sys2Proof.Machine

open Sys2Proof

/-! The stop (R218, step 1) -/

/-- A packet that counts as discarded: a task, a message or a fault message (R218). -/
def PktBody.counts : PktBody → Bool
  | .task _ _ _ | .message _ _ _ | .faultMessage _ _ _ => true
  | _ => false

/-- A fault packet is recorded whenever it arrives. -/
def PktBody.isFault : PktBody → Bool
  | .fault _ _ => true
  | _ => false

/-- What a core holds that is discarded: the tasks in its slots, and the packets of its queue and lanes, with the fault messages
not yet entered (DEDUCED, log 45). -/
def Core.holdings (k : Core) : Nat :=
  (k.slots.toList.filter fun sl => sl.state != .empty).length + k.queue.length + k.lane.length

/-- Core `k` stopped: no slot holds a task, and nothing waits to enter one. -/
def Core.stopped (k : Core) : Core :=
  { k with
    slots := Vector.replicate 8 Slot.fresh
    port := 7
    portCount := 0
    queue := []
    tickets := []
    lane := []
    faultQ := [] }

/-- Faults of a core leave in their order of detection, a held task's with its frame as it stands. -/
def State.flushNow (cap : Capsule) (c : Nat) : List FaultItem → State → State
  | [], s => s
  | .record r late :: rest, s => State.flushNow cap c rest (s.sendRecord cap c r late)
  | .held n late :: rest, s =>
    State.flushNow cap c rest (match (s.slot c n).hold with
      | some h => if h.sent then s else s.sendFrame cap c n h late
      | none => s)

/-- The faults that a core has detected and not yet sent leave now (R406; DEDUCED, log 45). -/
def State.flushHeld (s : State) (inst c : Nat) : State :=
  match s.capsule? inst with
  | some cap => State.flushNow cap c (s.core c).faultQ s
  | none => s

/-- Discarded tasks and packets are counted, R219. -/
def State.countDiscarded (s : State) (inst n : Nat) : State :=
  match s.capsule? inst with
  | some cap => s.setCapsule { cap with discarded := cap.discarded + n }
  | none => s

/-- The tasks of a core stop and its packets are dropped; all are counted. -/
def State.stopCore (s : State) (inst c : Nat) : State :=
  let k := s.core c
  let gone := k.queue ++ k.overflow ++ k.restoredQ
  let s1 := (s.flushHeld inst c).countDiscarded inst k.holdings
  { s1.setCore c (s1.core c).stopped with packets := s1.packets.filter fun p => !gone.contains p.id }

/-- Packets of the capsule that are on their way, or wait at a sender, are delivered and dropped: those that carry a task or a
message are counted, but a departing task only in its slot. Fault packets stay, and so does what the images of parked cores hold, in
their queues, lanes and spill areas, which is counted with them. -/
def State.dropPackets (s : State) (cap : Capsule) : State :=
  let held := cap.parked.flatMap fun p => p.spills ++ p.saved.queue ++ p.saved.overflow ++ p.saved.restoredQ
  let mine := fun (p : Packet) => p.inst == cap.inst && !held.contains p.id && !p.body.isFault
  let n := (s.packets.filter fun p => mine p && p.body.counts && !p.leaves).length
  { s with packets := s.packets.filter fun p => !mine p }.countDiscarded cap.inst n

/-! The drain (R218, step 3; R405, R442) -/

/-- Tagged operations of the capsule that wait at their homes are cancelled; a fetch leaves its entry as R457 does. -/
def State.cancelWaits (s : State) (inst : Nat) : State :=
  let waits := fun (a : Access) => a.inst == inst && a.op.tagged && (match a.state with
    | .waiting | .ticketed | .granted | .refused _ => true
    | _ => false)
  (s.accesses.filter waits).foldl (fun (s : State) a =>
    let s1 := match s.homeNow a with
      | .core c => ((s.useTicket c a.id).cancelAccess a).grantHome c
      | _ => s.cancelAccess a
    if a.op = .fetch then s1.dropFetch a else s1) s

/-- The copy and qm entries of a core that are cancelled when the capsule ends with a status: a DONE cancels those that wait on
an absent page, with a record; a fault also those that have not begun (R405); a kill all of them (R442) (DEDUCED, log 66). -/
def State.cancelEntries (s : State) (cap : Capsule) (c status : Nat) : State :=
  let k := s.core c
  let s1 := k.copies.foldl (fun (s : State) e => match e.waitPage with
    | some (_, page) =>
      (if status = 6 then s else s.drainRecord cap.inst c e.member e.pc e.insn e.queue (e.undone.headD 0) page e.handler).finishCopy c e
    | none => if status = 6 ∨ (2 ≤ status ∧ e.begun = false) then s.finishCopy c e else s) s
  k.qm.foldl (fun (s : State) e => match e.waitPage with
    | some (_, page) => (if status = 6 then s else s.drainRecord cap.inst c e.member e.pc e.insn 3 e.step page e.handler).finishQm cap c e
    | none =>
      if status = 6 ∨ (2 ≤ status ∧ e.begun = false) then
        (s.finishQm cap c e).accesses.foldl (fun (s : State) a => if a.entry = some e.id then s.cancelAccess a else s)
          (s.finishQm cap c e)
      else s) s1

/-- A parked role is lost: it will not be restored (R442, R451) (DEDUCED, log 70). -/
def State.lostRole (s : State) (cap : Capsule) (role : Nat) : Bool :=
  cap.isParked role && (cap.killed || s.plaza.refusals.any fun r => r.1 == cap.inst && r.2.1 == role && decide (16 ≤ r.2.2))

/-- Work aimed at a lost role is recorded as the refused image is, with disposition C (R405, R451; DESIGN CHOICE, log 97). -/
def lostInfo (ca : Nat) : FaultInfo := ⟨10, 4, 0, ca, false⟩

/-- An access whose link is gone is recorded under the class of the link's failure (R405, R410; DESIGN CHOICE, log 97). -/
def linkInfo (ca : Nat) : FaultInfo := ⟨17, (Config.freeDetail 17).toNat, 0, ca, false⟩

/-- An access that cannot be completed is dropped and recorded, R405. -/
def State.dropWork (s : State) (a : Access) (i : FaultInfo) : State :=
  let s1 := (s.reportFault a.inst a.core a.member a.pc a.insn 1 i).cancelAccess a
  if a.op = .fetch then s1.dropFetch a else s1

/-- A capsule address lies in the scratchpad of a lost role. -/
def State.lostAddr (s : State) (cap : Capsule) (ca : Nat) : Bool := windowOf ca == .scratch && s.lostRole cap (scratchRole ca)

/-- A core number names a lost role, whose image holds what the role had not sent (R473, R478). -/
def State.lostCore (s : State) (cap : Capsule) (c : Nat) : Bool :=
  (s.core c).inst != some cap.inst && s.lostRole cap (cap.roleOfCore c)

/-- An access that the image of a lost role holds unsent. A kill completes it, with no result to write, but for a tagged operation,
which is cancelled as the waiting ones are, and for one to the scratchpad of a lost role (R442). What a refused image holds is undrained
work that the image's record stands for (R451). -/
def State.releaseLost (s : State) (cap : Capsule) (a : Access) : State :=
  if cap.killed && !a.op.tagged && !s.lostAddr cap a.ca then
    ((s.leave a).setAccess { a with state := .sent, order := s.serial, stl := none, result := none, fill := false }).tick
  else s.cancelAccess a

/-- An access of a capsule cannot be completed: it is aimed at the scratchpad of a lost role, or waits for a link that is gone. -/
def State.lostAccess (s : State) (cap : Capsule) (gone : Bool) (a : Access) : State :=
  if s.lostCore cap a.core && !a.isSent then s.releaseLost cap a
  else if s.lostAddr cap a.ca then s.dropWork a (lostInfo a.ca)
  else if gone && a.state == .sent && !s.linkReady a then s.dropWork a (linkInfo a.ca)
  else s

/-- The record of an engine entry that cannot be completed: it reads or writes the scratchpad of a lost role, or, where a link is gone,
needs it (R405, R442; DESIGN CHOICE, log 97). -/
def State.entryLost (s : State) (cap : Capsule) (gone : Bool) (member : Nat) (runs : List Run) : Option FaultInfo :=
  let units := runs.flatMap unitsOf
  if units.any fun u => s.lostAddr cap u.1 then some (lostInfo 0)
  else if gone && units.any (fun u => match s.engAt cap member u.1 with
    | .at addr _ => decide (addr < 2 ^ 64) && !s.linkUp addr
    | _ => false) then some (linkInfo 0)
  else none

/-- The entries of a core that cannot be completed are dropped and recorded. -/
def State.dropEntries (s : State) (cap : Capsule) (gone : Bool) (c : Nat) : State :=
  let k := s.core c
  let s1 := k.copies.foldl (fun (s : State) e => match s.entryLost cap gone e.member (e.crRuns ++ e.dstRuns) with
    | some i => (s.reportFault cap.inst c e.member e.pc e.insn 1 i).finishCopy c e
    | none => s) s
  k.qm.foldl (fun (s : State) e => match s.entryLost cap gone e.member (e.mrRuns ++ e.mwRuns) with
    | some i => (s.reportFault cap.inst c e.member e.pc e.insn 1 i).finishQm cap c e
    | none => s) s1

/-- What of a capsule cannot be completed is dropped and recorded (R405): work aimed at the scratchpad of a lost role, and, where a fault
has ended the capsule or a link has failed since, work that waits for a link that is not there. What the image of a lost role holds is
completed or cancelled. -/
def State.cancelLost (s : State) (cap : Capsule) (gone : Bool) : State :=
  let s1 := (s.accesses.filter fun a => a.inst == cap.inst).foldl (fun (s : State) a => s.lostAccess cap gone a) s
  let s2 :=
    { s1 with
      results := s1.results.filter fun r => !(r.inst == cap.inst && s.lostCore cap r.core)
      fences := s1.fences.filter fun f => !(f.inst == cap.inst && s.lostCore cap f.core) }
  (cap.cores.filter fun c => (s2.core c).inst == some cap.inst).foldl (fun s c => s.dropEntries cap gone c) s2

/-- A kill does not restore parked cores: their tasks and packets are counted, R442. -/
def State.discardParked (s : State) (cap : Capsule) : State :=
  let spilled := cap.parked.flatMap (·.spills)
  let held := cap.parked.flatMap fun p => p.saved.queue ++ p.saved.overflow ++ p.saved.restoredQ
  let n := (cap.parked.map fun p => p.saved.holdings).sum +
    (s.packets.filter fun p => spilled.contains p.id && p.body.counts).length
  { s with packets := s.packets.filter fun p => !(spilled ++ held).contains p.id }.countDiscarded cap.inst n

/-- The cores of the capsule that are not parked. -/
def State.liveCores (s : State) (cap : Capsule) : List Nat := cap.cores.filter fun c => (s.core c).inst == some cap.inst

/-- THE FIRST ENDING TAKES EFFECT, R218, R405, R406, R442. -/
def State.endNow (s : State) (cap : Capsule) (status : Nat) : State :=
  let cap' :=
    { cap with
      stage := .completing
      status := status
      endReqs := []
      killed := status == 6 }
  let s1 := s.setCapsule cap'
  let live := s1.liveCores cap'
  let s2 := live.foldl (fun s c => s.stopCore cap.inst c) s1
  let s3 := s2.dropPackets cap'
  let s4 := if status = 6 then s3.discardParked cap' else s3
  let s5 := live.foldl (fun s c => s.cancelEntries cap' c status) (s4.cancelWaits cap.inst)
  s5.cancelLost cap' (decide (2 ≤ status))

/-- The first ending of a capsule reaches the Plaza. An eviction under way is finished first (R218: a completing capsule is
never chosen for pre-emption). -/
def execCapsuleComplete (inst : Nat) (s : State) : Host.Outcome State Fault Refusal :=
  match s.capsule? inst with
  | none => .next s
  | some cap =>
    match cap.endReqs with
    | [] => .next s
    | status :: _ =>
      event (cap.stage != .completing && !cap.cores.any fun c => (s.core c).inst == some inst && (s.core c).evicting)
        (fun s => s.endNow cap status) s

/-! Completion records (R217-R219) -/

/-- Everything that the capsule issued is complete at system scope, the flushing reads behind its writes to host space included (R176),
and every parked role is restored or lost (R183, R218). -/
def State.drainedCapsule (s : State) (cap : Capsule) : Bool :=
  cap.parked.all (fun p => s.lostRole cap p.role) && !(s.accesses.any fun a => a.inst == cap.inst) &&
    !(s.host.flushes.any fun f => f.2 == cap.inst) &&
    !(s.packets.any fun p => p.inst == cap.inst && !(cap.parked.any fun q => q.spills.contains p.id ||
      (q.saved.queue ++ q.saved.overflow ++ q.saved.restoredQ).contains p.id)) &&
    ((s.liveCores cap).all fun c => (s.core c).copies.isEmpty && (s.core c).qm.isEmpty) &&
    !(s.plaza.posts.any fun p => p.inst == cap.inst && !p.queued && !cap.coreParked p.core)

/-- One capability moves to a child as R217 gives: a committed child's role WROLE holds it from now on; a child not yet
committed will hold it at its launch. -/
def State.moveToChild (s : State) (cap : Capsule) (h : Holder) : State :=
  match h.child.bind fun id => s.plaza.posts.find? fun p => p.id == id,
      cap.exts.find? fun e => e.u && e.member == h.member && e.index == h.ext with
  | some p, some e =>
    match childExtent? (imageOf p.image) e with
    | none => s
    | some c =>
      let s1 := s.setPost { p with barred := p.barred.filter fun i => i != c.index }
      match s1.capsules.find? fun k => k.post == some p.id && !k.uncommitted with
      | some child => s1.setCapsule (child.mapHolderOf c.member c.index fun o => { o with role := some c.wrole })
      | none => s1
  | _, _ => s

/-- LAYERCYC of a launch, R219. -/
def State.layerCycs (s : State) (cap : Capsule) : List Nat :=
  (List.range 12).map fun l => match cap.firstLoad.find? fun e => e.1 == l with
    | some (_, first) => min (((s.layer l).cyc.toNat + 2 ^ 64 - first) % 2 ^ 64) (2 ^ 32 - 1)
    | none => 0

/-- The records of a launch, one for each member, R219. -/
def State.writeRecords (s : State) (cap : Capsule) : State :=
  (cap.members.zipIdx).foldl (fun (s : State) m =>
    s.putRecord m.1.compl
      (completionBytes cap.status m.2 (rflags cap.wasParked cap.merged) m.1.nfault (if m.1.nfault = 0 then 0 else m.1.first) cap.discarded cap.inst
        (s.layerCycs cap))) s

/-- The cores, the bay and the lane of a capsule are freed, R218. -/
def State.freeCapsule (s : State) (cap : Capsule) : State :=
  let live := s.liveCores cap
  { s with
    cores := s.cores.filter fun e => !live.contains e.1
    capsules := s.capsules.filter fun c => c.inst != cap.inst
    fences := s.fences.filter fun f => f.inst != cap.inst
    results := s.results.filter fun r => r.inst != cap.inst
    capMoves := s.capMoves.filter fun m => m.inst != cap.inst
    packets := s.packets.filter fun p => p.inst != cap.inst
    plaza := { s.plaza with
      bays := s.plaza.bays.filter fun b => b.inst != cap.inst
      refusals := s.plaza.refusals.filter fun r => r.1 != cap.inst
      posts := s.plaza.posts.filter fun p => !(p.inst == cap.inst && !p.queued) } }.prunePosts.freeLane cap.hdr.owner

/-- A kill of the capsule has ended, R441, R442. -/
def State.killEnds (s : State) (cap : Capsule) : State :=
  if s.host.killGo ∧ s.host.killInst = cap.inst ∧ cap.killed then
    { s with host := { s.host with killGo := false, killResult := 1 } }
  else s

/-- The drain is done: capabilities move, the records are written, and everything is freed. -/
def execCompletionRecordWrite (inst : Nat) (s : State) : Host.Outcome State Fault Refusal :=
  match s.capsule? inst with
  | none => .next s
  | some cap =>
    let f := fun (s : State) =>
      let s1 := if cap.status ≤ 1 then cap.holders.foldl (fun s h => s.moveToChild cap h) s else s
      (((s1.writeRecords cap).freeCapsule cap).floorPoints.dueMsix cap.queue).killEnds cap
    event (cap.stage == .completing && s.drainedCapsule cap) f s

/-- The message of a vector that is due, R368; a masked vector's message waits. -/
def execMsixSend (queue : Nat) (s : State) : Host.Outcome State Fault Refusal :=
  event (s.plaza.msixDue.contains queue && !s.host.msixMask.contains queue)
    (fun s => { s with
      plaza := { s.plaza with msixDue := s.plaza.msixDue.erase queue }
      host := { s.host with out := s.host.out ++ [.msix queue] } }) s

end Sys2Proof.Machine
end

