-- ==== Sys2Proof/Machine/Registers.lean ====
section
/-! DEFINITION. The registers behind BAR0 (R362-R381, R441, R463): their reads, their writes, and what a write with an effect
does: queues (R200-R204, R363), HBM windows (R365, R366), locks (R380, R381, R463, R464), the Onazal link (R371), power and
operating points (R228, R373, R374), the attestation mailbox (R376-R379) and the kill register (R441). -/

namespace Sys2Proof.Machine

open Sys2Proof

/-! PCI Express configuration space (R361; the layout is that of the PCI Express header: PRESUMED, log 101) -/

/-- Read-only bytes of the header and the capabilities: the list of capabilities with power management, PCI Express, MSI-X and Advanced
Error Reporting, Device Capabilities with a payload of 512 bytes, Link Capabilities of 128 GT/s, x16 and L1, the low half of the MSI-X
table's size, and the kinds and sizes of the two BARs (R361, R362). -/
def cfgConstants : SMap Byte :=
  [(0x06, 0x10), (0x10, 0x04), (0x11, 0), (0x18, 0x0C), (0x19, 0), (0x1A, 0), (0x1B, 0), (0x1C, 0), (0x34, 0x40),
   (0x40, 0x01), (0x41, 0x50), (0x50, 0x10), (0x51, 0xB0), (0x52, 0x02), (0x54, 0x22), (0x55, 0x80), (0x56, 0), (0x57, 0),
   (0x5C, 0x07), (0x5D, 0x09), (0x5E, 0), (0x5F, 0), (0xB0, 0x11), (0xB1, 0), (0xB2, 0), (0x100, 0x01), (0x101, 0), (0x102, 0x02),
   (0x103, 0)]

/-- The bits of a byte that always read as one: the MSI-X table has 257 vectors, and its size field holds 256. -/
def cfgOnes (o : Nat) : Byte := if o = 0xB3 then 1 else 0

/-- The bits of a byte that a write reaches: those of BAR0 below its size stay 0, and of the high byte of MSI-X Message Control only the
enable and the function mask are written. -/
def cfgWritable (o : Nat) : Byte := if o = 0x12 then 0xF0 else if o = 0xB3 then 0xC0 else 0xFF

/-- The bytes that the device fixes: Vendor ID and Subsystem IDs from the blob, the Device ID, and the constants. -/
def State.cfgFixed? (s : State) (o : Nat) : Option Byte :=
  let ids := (s.host.blob.map (·.ids)).getD 0
  if o < 2 then some (BitVec.ofNat 8 (bits ids (8 * o) 8))
  else if o < 4 then some (BitVec.ofNat 8 (bits 0xC768 (8 * (o - 2)) 8))
  else if 0x2C ≤ o ∧ o < 0x30 then some (BitVec.ofNat 8 (bits ids (16 + 8 * (o - 0x2C)) 8))
  else (cfgConstants.find? fun e => e.1 == o).map (·.2)

/-- Where the uncorrectable error status of Advanced Error Reporting and the power state of the function stand. -/
def cfgAer : Nat := 0x104
def cfgPower : Nat := 0x44

/-- A byte of configuration space as it reads. -/
def State.cfgByte (s : State) (o : Nat) : Byte :=
  match s.cfgFixed? o with
  | some b => b
  | none => if cfgAer ≤ o ∧ o < cfgAer + 4 then BitVec.ofNat 8 (bits s.host.aer.toNat (8 * (o - cfgAer)) 8)
    else SMap.get 0 s.host.pcieCfg o ||| cfgOnes o

/-- What a write leaves in a byte: a power state other than D0 and D3hot, which the function does not support, is not taken (R361). -/
def State.cfgKept (s : State) (o : Nat) (b : Byte) : Byte :=
  if o = cfgPower ∧ (b.toNat % 4 = 1 ∨ b.toNat % 4 = 2) then (b &&& 0xFC) ||| (s.cfgByte o &&& 3) else b &&& cfgWritable o

/-- A byte of configuration space is written: a fixed byte stays, and a 1 clears a bit of the error status. -/
def State.writeCfgByte (s : State) (o : Nat) (b : Byte) : State :=
  if (s.cfgFixed? o).isSome then s
  else if cfgAer ≤ o ∧ o < cfgAer + 4 then
    { s with host := { s.host with aer := s.host.aer &&& ~~~ (BitVec.ofNat 32 (b.toNat * 2 ^ (8 * (o - cfgAer)))) } }
  else { s with host := { s.host with pcieCfg := SMap.put s.host.pcieCfg o (s.cfgKept o b) } }

/-- The function is in D3hot (R361): it takes no request through its BARs. -/
def State.d3hot (s : State) : Bool := decide ((s.cfgByte cfgPower).toNat % 4 = 3)

/-! Queues (R200-R204, R363, R446) -/

/-- Field values of QCFG. -/
def qcfgMerge (v : Nat) : Bool := decide (bits v 16 1 = 1)
def qcfgPrio (v : Nat) : Nat := bits v 8 6
def qcfgLog (v : Nat) : Nat := bits v 0 5
def qcfgEn (v : Nat) : Bool := decide (bits v 31 1 = 1)

/-- A QCFG write that sets EN: the latch and CONSUMED are 0, and the QSB is inserted; SLOTLOG 0 or 17 to 31 is ignored as a
whole. -/
def State.enableQueue (s : State) (q value : Nat) : State :=
  if (s.queue q).en ∨ qcfgLog value = 0 ∨ 16 < qcfgLog value then s
  else
    let v : Queue :=
      { s.queue q with
        en := true
        merge := qcfgMerge value
        qprio := qcfgPrio value
        slotlog := qcfgLog value
        consumed := 0
        latch := 0
        own := true }
    (s.setQueue q v).insertQsb q (qcfgPrio value)

/-- A write of QCFG, R363. -/
def State.writeQcfg (s : State) (q value : Nat) : State :=
  if (s.queue q).en then (if qcfgEn value then s else s.disableQueue q)
  else if qcfgEn value then s.enableQueue q value
  else s.setQueue q { s.queue q with merge := qcfgMerge value, qprio := qcfgPrio value, slotlog := qcfgLog value }

/-- The value QCFG reads as. -/
def Queue.qcfg (v : Queue) : Nat :=
  v.slotlog + v.qprio * 2 ^ 8 + (if v.merge then 2 ^ 16 else 0) + if v.en then 2 ^ 31 else 0

/-- The host's registers answer: the BARs are enabled at bring-up (R375) (DEDUCED, log 31), and not in D3hot (R361; PRESUMED, log 101). -/
def hostEvent (s : State) (ok : Bool) (f : State → State) : Host.Outcome State Fault Refusal :=
  event (s.host.ready && !s.d3hot && ok) f s

/-- Setting QCFG.EN. -/
def execQcfgEnable (queue value : Nat) (s : State) : Host.Outcome State Fault Refusal :=
  hostEvent s (decide (queue < 256) && qcfgEn value && !(s.queue queue).en) fun s => s.enableQueue queue value

/-- Clearing QCFG.EN. -/
def execQcfgDisable (queue : Nat) (s : State) : Host.Outcome State Fault Refusal :=
  hostEvent s (decide (queue < 256) && (s.queue queue).en) fun s => s.disableQueue queue

/-- A package in IDLE is in RUN at once; in GATED the wake sequence starts (R228, R374). A power state entered is an event of the STATUS
register (R368; DEDUCED, log 99). -/
def State.wake (s : State) : State :=
  match s.host.power with
  | .run => s
  | .idle => { s with host := { s.host with power := .run, pwrctl := 0, pwrPending := false } }.signalEvent
  | .gated => { s with host := { s.host with waking := true, pwrctl := 0, pwrPending := false } }

/-- A post word of 16 bytes: bytes 0 and 1 hold the queue number, bytes 8 to 15 the post number (R202). It changes nothing when it
is no single 16-byte write, names another queue, or names one whose EN is 0 (R446), or when its number is not higher than
the latch's (DEDUCED, log 72). -/
def State.post (s : State) (queue size word : Nat) : State :=
  let v := s.queue queue
  let p := bits word 64 64
  if size = 16 ∧ bits word 0 8 = queue ∧ v.en ∧ v.latch < p then (s.setQueue queue { v with latch := p }).wake else s

/-- A post word reaches the intake latch, behind every earlier posted write of its requester (R396). -/
def execSubmit (rid queue size word : Nat) (s : State) : Host.Outcome State Fault Refusal :=
  hostEvent s (decide (queue < 256) && !s.host.inbound.any fun w => w.rid == rid && !w.read) fun s => s.post queue size word

/-! HBM windows (R365, R366) -/

/-- The registers of a window never written. -/
def Window.reset : Window := { base := 0, size := 0, owner := 0, en := false, refused := false, token := List.replicate 32 0 }

/-- A window. -/
def State.window (s : State) (w : Nat) : Window := SMap.get Window.reset s.host.windows w

/-- Replace a window. -/
def State.setWindow (s : State) (w : Nat) (v : Window) : State :=
  { s with host := { s.host with windows := SMap.put s.host.windows w v } }

/-- A domain is locked; a domain is in ERROR. -/
def State.locked (s : State) (d : Nat) : Bool := s.host.lock.getLsbD d
def State.domainError (s : State) (d : Nat) : Bool := s.host.lockErr.getLsbD d

/-- The range and token of a window allow it to be enabled, R365. -/
def State.windowOk (s : State) (w : Nat) : Bool :=
  let v := s.window w
  let clash := s.host.windows.any fun e => e.1 != w && e.2.en && decide (v.base < e.2.base + e.2.size ∧ e.2.base < v.base + v.size)
  decide (v.size ≠ 0 ∧ v.base % 2 ^ 21 = 0 ∧ v.size % 2 ^ 21 = 0 ∧ v.base + v.size ≤ 768 * 2 ^ 30) && !clash &&
    (v.owner == 0 || v.token == windowToken v.owner v.base v.size)

/-- WCTL.EN is set: the window is enabled, its owner holding a lane, or REFUSED is set. -/
def State.enableWindow (s : State) (w : Nat) : State :=
  let v := s.window w
  if v.en ∨ s.domainError 1 then s
  else if s.windowOk w then
    if v.owner = 0 then s.setWindow w { v with en := true, refused := false }
    else match s.takeLane v.owner with
      | some (_, s1) => s1.setWindow w { v with en := true, refused := false }
      | none => s.setWindow w { v with refused := true }
  else s.setWindow w { v with refused := true }

/-- WCTL.EN is cleared; the owner's lane is freed when nothing else holds it (R157). -/
def State.disableWindow (s : State) (w : Nat) : State :=
  let v := s.window w
  (s.setWindow w { v with en := false }).freeLane v.owner

/-- Setting WCTL.EN. -/
def execWindowEnable (window : Nat) (s : State) : Host.Outcome State Fault Refusal :=
  hostEvent s (decide (window < 64) && !(s.window window).en) fun s => s.enableWindow window

/-- Clearing WCTL.EN. -/
def execWindowDisable (window : Nat) (s : State) : Host.Outcome State Fault Refusal :=
  hostEvent s (decide (window < 64) && (s.window window).en) fun s => s.disableWindow window

/-- A write of a window register. -/
def State.writeWindow (s : State) (w off value : Nat) : State :=
  let v := s.window w
  if off = 0x18 then
    (if value % 2 = 1 then s.enableWindow w else if v.en then s.disableWindow w else s)
  else if v.en ∨ s.locked 1 then s
  else match off with
    | 0x00 => s.setWindow w { v with base := value }
    | 0x08 => s.setWindow w { v with size := value }
    | 0x10 => s.setWindow w { v with owner := value }
    | _ =>
      if 0x20 ≤ off ∧ off < 0x40 then
        s.setWindow w { v with token := spliceBytes v.token (off - 0x20) (leBytes 8 value) }
      else s

/-! Onazal (R371) -/

/-- ONZCTL fields. -/
def State.onzEn (s : State) : Bool := decide (s.host.onzCtl % 2 = 1)
def State.onzPortEn (s : State) (p : Nat) : Bool := decide (bits s.host.onzCtl (8 + p) 1 = 1)

/-- A port. -/
def State.onzPort (s : State) (p : Nat) : OnzPort := s.host.onzPorts[p % 18]'(Nat.mod_lt _ (by decide))

/-- Replace a port. -/
def State.setOnzPort (s : State) (p : Nat) (v : OnzPort) : State :=
  { s with host := { s.host with onzPorts := s.host.onzPorts.set (p % 18) v (Nat.mod_lt _ (by decide)) } }

/-- ONZID is valid: PODSZ from 1 to 6,144, and PKGID below it. -/
def State.onzIdOk (s : State) : Bool :=
  let pod := bits s.host.onzId 32 13
  decide (1 ≤ pod ∧ pod ≤ 6144 ∧ s.pkgId < pod)

/-- A write of ONZCTL; ports that are no longer enabled are down. -/
def State.writeOnzCtl (s : State) (value : Nat) : State :=
  if s.locked 2 ∨ (value % 2 = 1 ∧ s.onzIdOk = false) then s
  else
    let v := value % 2 + bits value 8 18 * 2 ^ 8
    let keep := fun (p : Nat) => v % 2 = 1 ∧ bits v (8 + p) 1 = 1
    { s with host := { s.host with
        onzCtl := v
        onzPorts := Vector.ofFn fun i =>
          let p := s.host.onzPorts[i]
          if keep i.val then p else { p with up := false, lanes := 0 } } }

/-- The keys of a map renamed. -/
def rekey {α : Type} (f : Nat → Nat) (m : SMap α) : SMap α := m.foldl (fun acc e => SMap.put acc (f e.1) e.2) []

/-- A device address of the package under another package id: what it names is the same memory (R136, R371). -/
def renamed (a b unit x : Nat) : Nat :=
  let addr := x * unit
  if devSpace addr = 4 ∨ 2 ^ 64 ≤ addr then x
  else if devPkg addr = a then x + b * 2 ^ 47 / unit - a * 2 ^ 47 / unit
  else if devPkg addr = b then x + a * 2 ^ 47 / unit - b * 2 ^ 47 / unit
  else x

/-- The package takes another id: its own memory is found under the new id. HBM stays encrypted under the keys of the old one, so
that what was written before reads as unpredictable bytes (R159, R367). -/
def State.setPkg (s : State) (value : Nat) : State :=
  let a := s.pkgId
  let b := bits value 0 13
  let s1 := { s with host := { s.host with onzId := b + bits value 32 13 * 2 ^ 32 } }
  if a = b then s1
  else { s1 with
    mem := rekey (renamed a b 1) s.mem
    hbmKeys := rekey (renamed a b 64) s.hbmKeys
    full := rekey (renamed a b 8) s.full
    sguard := rekey (renamed a b 64) s.sguard
    stag := rekey (renamed a b 64) s.stag
    bad := rekey (renamed a b 64) s.bad
    slice := s.slice.map fun l => { l with line := renamed a b 64 l.line }
    cross := s.cross.map fun l => { l with line := renamed a b 64 l.line } }

/-- A write of ONZID, ignored while ONZCTL.EN is 1. -/
def State.writeOnzId (s : State) (value : Nat) : State := if s.onzEn ∨ s.locked 2 then s else s.setPkg value

/-- Setting ONZCTL.EN. -/
def execOnazalEnable (value : Nat) (s : State) : Host.Outcome State Fault Refusal :=
  hostEvent s (decide (value % 2 = 1) && !s.onzEn) fun s => s.writeOnzCtl value

/-- Setting PORTS bits while EN is 1. -/
def execOnazalPortEnable (value : Nat) (s : State) : Host.Outcome State Fault Refusal :=
  hostEvent s (decide (value % 2 = 1) && s.onzEn) fun s => s.writeOnzCtl value

/-- An enabled port has been trained, with 1 to 8 lanes. -/
def execOnazalPortTrained (port lanes : Nat) (s : State) : Host.Outcome State Fault Refusal :=
  event (s.onzEn && decide (port < 18 ∧ 1 ≤ lanes ∧ lanes ≤ 8) && s.onzPortEn port && !(s.onzPort port).up && !s.domainError 2)
    (fun s => s.setOnzPort port { s.onzPort port with up := true, lanes := lanes }) s

/-! Power and operating points (R228, R373, R374) -/

/-- The number of a power state. -/
def Power.code : Power → Nat
  | .run => 0
  | .idle => 1
  | .gated => 2

/-- STATUS, R373. -/
def State.statusReg (s : State) : Nat :=
  (if s.host.ready then 1 else 0) + (if s.host.error then 2 else 0) +
    (if s.host.pwrPending || s.host.waking then 3 else s.host.power.code) * 4 + 0xB0 * 2 ^ 8 + s.pkgId * 2 ^ 16

/-- A power state is commanded; it is pending until it is entered. A value of 3 is ignored. While the wake sequence runs, the state
that it leads to is RUN. -/
def State.command (s : State) (n : Nat) : State :=
  let at_ := if s.host.waking then 0 else s.host.power.code
  if n = 3 then s else { s with host := { s.host with pwrctl := n, pwrPending := n != at_ } }

/-- PWRCTL = 0. -/
def execPwrctlRun (s : State) : Host.Outcome State Fault Refusal := hostEvent s true fun s => s.command 0
/-- PWRCTL = 1. -/
def execPwrctlIdle (s : State) : Host.Outcome State Fault Refusal := hostEvent s true fun s => s.command 1
/-- PWRCTL = 2. -/
def execPwrctlGated (s : State) : Host.Outcome State Fault Refusal := hostEvent s true fun s => s.command 2

/-- No capsule runs on a core. -/
def State.noneRunning (s : State) : Bool := !s.cores.any fun e => e.2.inst.isSome

/-- No capsule runs or is parked. -/
def State.nonePlaced (s : State) : Bool := !s.capsules.any fun c => !c.uncommitted

/-- Entering GATED clears every weight store bank to zero with no stock tag, R374; the unpowered caches hold nothing. -/
def State.gate (s : State) : State :=
  let ws := fun (a : Nat) => devSpace a == 1 && devPkg a == s.pkgId
  { s with
    mem := s.mem.filter fun c => !ws c.1
    bad := s.bad.filter fun e => !(ws (64 * e.1) || decide (3 ≤ e.2 ∧ e.2 ≤ 6))
    stock := []
    slice := []
    cross := []
    host := { s.host with power := .gated, pwrPending := false } }

/-- The die layers that GATED had left without power are powered up: each counts its local cycles anew (R130, R374). -/
def State.powerLayers (s : State) : State :=
  if s.host.power = .gated then { s with layers := s.layers.map fun l => { l with cyc := 0 } } else s

/-- A power state is entered. -/
def State.enterPower (s : State) (p : Power) : State :=
  let s1 := s.powerLayers
  { s1 with host := { s1.host with power := p, pwrPending := false } }.signalEvent

/-- A commanded power state is entered once its condition holds, and not before a wake sequence under way has ended. -/
def execPowerStateEnter (s : State) : Host.Outcome State Fault Refusal :=
  let due := s.host.pwrPending && !s.host.waking
  match s.host.pwrctl with
  | 0 => event due (fun s => s.enterPower .run) s
  | 1 => event (due && s.noneRunning) (fun s => s.enterPower .idle) s
  | _ => event (due && s.nonePlaced) (fun s => s.gate.signalEvent) s

/-- The Plaza state is restored, and the package is in RUN (R228). -/
def execWakeSequenceComplete (s : State) : Host.Outcome State Fault Refusal :=
  let f := fun (s : State) =>
    let s1 := s.powerLayers
    { s1 with host := { s1.host with power := .run, waking := false } }.signalEvent
  event s.host.waking f s

/-- A write of OPDEFn. -/
def State.writeOpdef (s : State) (n value : Nat) : State :=
  let v := bits value 0 16
  if s.locked 16 ∨ v < 600 ∨ 1900 < v ∨ v % 25 ≠ 0 then s
  else { s with host := { s.host with opdef := s.host.opdef.set (n % 4) v (Nat.mod_lt _ (by decide)) } }

/-! The kill register (R441, R442) -/

/-- KILLCTL with GO: the capsule ends with status 0x0006, or RESULT says that there is none to kill (DEDUCED, log 35). -/
def State.kill (s : State) (inst : Nat) : State :=
  if s.host.killGo then s
  else match s.capsule? inst with
    | some cap =>
      if cap.ending then { s with host := { s.host with killInst := inst, killResult := 2 } }
      else { s with host := { s.host with killInst := inst, killResult := 0, killGo := true } }.endCapsule inst 6
    | none => { s with host := { s.host with killInst := inst, killResult := 2 } }

/-- A write of KILLCTL, ignored while BUSY is 1. -/
def State.writeKill (s : State) (value : Nat) : State :=
  if bits value 63 1 = 1 then s.kill (bits value 0 32)
  else if s.host.killGo then s
  else { s with host := { s.host with killInst := bits value 0 32 } }

/-- A kill of an instance is commanded. -/
def execKillctlGo (inst : Nat) (s : State) : Host.Outcome State Fault Refusal :=
  hostEvent s (decide (inst < 2 ^ 32)) fun s => s.kill inst

/-- KILLCTL as it reads. -/
def State.killReg (s : State) : Nat :=
  (if s.host.killGo then 2 ^ 62 else 0) + s.host.killResult % 4 * 2 ^ 60 + s.host.killInst % 2 ^ 32

/-! The mailbox (R376-R379) -/

/-- A byte and a run of bytes of the mailbox areas, by BAR0 offset. -/
def State.mbByte (s : State) (o : Nat) : Byte := SMap.get 0 s.host.mbox o
def State.mbBytes (s : State) (o n : Nat) : List Byte := (List.range n).map fun i => s.mbByte (o + i)

/-- Where the reply and the request stand. -/
def mbReply : Nat := 0x08010
def mbRequest : Nat := 0x0C000

/-- The request is done: CODE reads 0, RESULT as given, and the reply area holds the reply and zeros. -/
def State.mbDone (s : State) (result : Nat) (reply : List Byte) : State :=
  let rest := s.host.mbox.filter fun e => decide (mbRequest ≤ e.1)
  let box := (reply.zipIdx).foldl (fun m e => SMap.put m (mbReply + e.2) e.1) rest
  { s with host := { s.host with mbCode := 0, mbResult := result, mbox := box } }

/-- The seed and the public key of the device identity, R376. -/
def identitySeed : List Byte := kmac256 (leBytes 32 Config.rootKey.toNat) (ascii "identity") 32
def identityKey : List Byte := Config.mldsaPublic identitySeed

/-- A signature by the identity key over the SHA3-512 hash of some bytes. -/
def identitySign (b : List Byte) : List Byte := Config.mldsaSign identitySeed (sha3_512 b)

/-- The evidence for a nonce, R377, R379. -/
def State.evidence (s : State) : List Byte :=
  let fields := padTo 64 s.host.measurement ++ leBytes 2 0xB0 ++ leBytes 2 s.pkgId ++ leBytes 4 0 ++ s.mbBytes mbRequest 64 ++
    padTo 2592 identityKey
  fields ++ padTo 4627 (identitySign fields)

/-- Mailbox request 1. -/
def execMailboxEvidence (s : State) : Host.Outcome State Fault Refusal :=
  event (s.host.mbCode == 1) (fun s => s.mbDone 0 s.evidence) s

/-- Exclusive or of two byte strings. -/
def xorList (a b : List Byte) : List Byte := List.zipWith (· ^^^ ·) a b

/-- The owner-key reply for a verified request, R378, R379: the encapsulation draws fresh randomness (DESIGN CHOICE, log 6) (DEDUCED, log 73). -/
def State.ownerKeyReply (s : State) (owner : Nat) (ek nonce : List Byte) : List Byte :=
  let (ct, ss) := Config.mlkemEncapsulate ek (leBytes 32 (Config.freeRandom s.freeCount).toNat)
  let fields := padTo 1568 ct ++ xorList (ownerKey owner) (kmac256 ss (ascii "wrap") 32) ++
    kmac256 ss (ascii "tag" ++ leBytes 8 owner ++ nonce) 32 ++ leBytes 8 owner ++ leBytes 8 0
  fields ++ padTo 4627 (identitySign fields)

/-- The answer to mailbox request 2, with its RESULT. -/
def State.answerOwner (s : State) : State :=
  let pk := s.mbBytes mbRequest 2592
  let ek := s.mbBytes 0x0CA20 1568
  let nonce := s.mbBytes 0x0D040 64
  let sig := s.mbBytes 0x0D080 4627
  let owner := ownerId pk
  if Config.mldsaVerify pk (sha3_512 (nonce ++ padTo 2592 identityKey ++ ek)) sig = false then s.mbDone 1 []
  else if owner = 0 then s.mbDone 2 []
  else if Config.mlkemKeyValid ek = false then s.mbDone 3 []
  else { s.mbDone 0 (s.ownerKeyReply owner ek nonce) with freeCount := s.freeCount + 1 }

/-- Mailbox request 2. -/
def execMailboxOwnerKey (s : State) : Host.Outcome State Fault Refusal :=
  event (s.host.mbCode == 2) (fun s => s.answerOwner) s

/-- A write of MBCTL, ignored while CODE reads nonzero; an unknown code is answered with RESULT 4. -/
def State.writeMbctl (s : State) (value : Nat) : State :=
  let c := bits value 0 8
  if s.host.mbCode ≠ 0 ∨ c = 0 then s
  else if c ≤ 2 then { s with host := { s.host with mbCode := c } }
  else s.mbDone 4 []

/-! Ethernet (R372) and the peer table (R370) -/

/-- An Ethernet port. -/
def State.ethPort (s : State) (p : Nat) : EthPort := s.host.eth[p % 12]'(Nat.mod_lt _ (by decide))

/-- Replace a port. -/
def State.setEthPort (s : State) (p : Nat) (v : EthPort) : State :=
  { s with host := { s.host with eth := s.host.eth.set (p % 12) v (Nat.mod_lt _ (by decide)) } }

/-- The bits of a word of a secure association that are not reserved, by word: SCI, SAFLAGS, KEY, PN. -/
def saMask (w : Nat) : Nat :=
  match w with
  | 0 | 2 | 3 | 4 | 5 => 2 ^ 64 - 1
  | 1 => 0x83
  | 6 => 2 ^ 32 - 1
  | _ => 0

/-- A word of an entry of 64 bytes replaced. -/
def setEntryWord (e : BitVec 512) (w value : Nat) : BitVec 512 := BitVec.ofNat 512 (setBits e.toNat (64 * w) 64 value)

/-- A write of an Ethernet port's block. -/
def State.writeEth (s : State) (p off value : Nat) : State :=
  let v := s.ethPort p
  let on := decide (v.ctl % 2 = 1)
  if s.locked (3 + p) then s
  else match off with
    | 0x000 => s.setEthPort p { v with ctl := value % 4 }
    | 0x008 => if on then s else s.setEthPort p { v with mac := value % 2 ^ 48 }
    | 0x010 => if on then s else s.setEthPort p { v with ip := setBits v.ip 0 64 value }
    | 0x018 => if on then s else s.setEthPort p { v with ip := setBits v.ip 64 64 value }
    | _ =>
      if 0x100 ≤ off ∧ off < 0x500 then
        let i := (off - 0x100) / 64
        let w := off % 64 / 8
        s.setEthPort p { v with sas := SMap.put v.sas i (setEntryWord (SMap.get 0 v.sas i) w (value &&& saMask w)) }
      else s

/-- ETHSTAT: the link of a port is up while the port is enabled and not stopped (R372; DESIGN CHOICE, log 100). -/
def State.ethStat (s : State) (p : Nat) : Nat :=
  let v := s.ethPort p
  let up := decide (v.ctl % 2 = 1) && !s.host.lockErr.getLsbD (3 + p)
  (if up then 1 else 0) + (if up && v.macsec then 2 else 0) + v.drops % 2 ^ 32 * 2 ^ 32

/-- A read of an Ethernet port's block; the KEY of an association reads as zero. -/
def State.readEth (s : State) (p off : Nat) : Nat :=
  let v := s.ethPort p
  match off with
  | 0x000 => v.ctl
  | 0x008 => v.mac
  | 0x010 => bits v.ip 0 64
  | 0x018 => bits v.ip 64 64
  | 0x020 => s.ethStat p
  | _ =>
    if 0x100 ≤ off ∧ off < 0x500 then
      let w := off % 64 / 8
      if 2 ≤ w ∧ w ≤ 5 then 0 else bits (SMap.get 0 v.sas ((off - 0x100) / 64)).toNat (64 * w) 64
    else 0

/-- A write of a peer table entry; bytes 49 to 63 are reserved, and so is the top of QPN's word. -/
def State.writePeer (s : State) (off value : Nat) : State :=
  let i := (off - 0x20000) / 64
  let w := off % 64 / 8
  let mask := match w with
    | 3 => 2 ^ 64 - 1 - 0xFF000000
    | 6 => 3
    | 7 => 0
    | _ => 2 ^ 64 - 1
  if s.locked 15 then s
  else { s with host := { s.host with
    peers := SMap.put s.host.peers i (setEntryWord (SMap.get 0 s.host.peers i) w (value &&& mask)) } }

/-! Locks (R380, R381, R463, R464) -/

/-- The bytes of an SMap of entries, each with its key. -/
def entryBytes (m : SMap (BitVec 512)) : List Byte := m.flatMap fun e => leBytes 8 e.1 ++ leBytes 64 e.2.toNat

/-- A secure association as the host has written it: the packet number of a transmit one, which the port itself moves on, is status
(R372, R381; DESIGN CHOICE, log 100). -/
def hostSas (m : SMap (BitVec 512)) : SMap (BitVec 512) :=
  m.map fun e => if e.1 < 8 then (e.1, BitVec.ofNat 512 (setBits e.2.toNat 384 32 0)) else e

/-- What the host has written of a window that is not as at reset. -/
def Window.written (v : Window) : Bool := { v with en := false, refused := false } != Window.reset

/-- The fields that LOCK freezes in a domain; no status bit is one of them (R381). -/
def State.domainBytes (s : State) (d : Nat) : List Byte :=
  match d with
  | 0 => s.host.pcieCfg.flatMap fun e => leBytes 8 e.1 ++ [e.2]
  | 1 => (s.host.windows.filter fun e => e.2.written).flatMap fun e => leBytes 8 e.1 ++ leBytes 8 e.2.base ++ leBytes 8 e.2.size ++ leBytes 8 e.2.owner ++ padTo 32 e.2.token
  | 2 => leBytes 8 s.host.onzId ++ leBytes 8 s.host.onzCtl
  | 15 => entryBytes s.host.peers
  | 16 => s.host.opdef.toList.flatMap fun v => leBytes 8 v
  | _ =>
    let v := s.ethPort (d - 3)
    leBytes 8 v.ctl ++ leBytes 8 v.mac ++ leBytes 16 v.ip ++ entryBytes (hostSas v.sas)

/-- The bits of LOCK that a write newly sets; each domain's digest is taken. -/
def State.setLocks (s : State) (value : Nat) : State :=
  let new := (List.range 17).filter fun d => decide (bits value d 1 = 1) && !s.locked d
  { s with host := { s.host with
      lock := s.host.lock ||| BitVec.ofNat 17 value
      digests := new.foldl (fun m d => SMap.put m d (sha3_512 (s.domainBytes d))) s.host.digests } }

/-- A write of LOCK. -/
def execLockSet (bits : Nat) (s : State) : Host.Outcome State Fault Refusal := hostEvent s true fun s => s.setLocks bits

/-- A request or reply of an access is on its way. -/
def Access.travels (a : Access) : Bool := a.state == .sent || a.state == .performed

/-- The accesses of a capsule that are on their way by an Onazal port (R369). -/
def State.onPort (s : State) (cap : Capsule) (port : Nat) : List Access :=
  s.accesses.filter fun a => a.inst == cap.inst && a.travels && (match s.homeNow a with
    | .remote pkg => s.onzPort? a.core pkg (s.spreadOf a) == some port
    | _ => false)

/-- The accesses of a capsule that are on their way to or from another package. -/
def State.onLink (s : State) (cap : Capsule) : List Access :=
  s.accesses.filter fun a => a.inst == cap.inst && a.travels && (match s.homeNow a with
    | .remote _ => true
    | _ => false)

/-- The class 17 record of a capsule: it names the instruction of the oldest access that is lost, or of the oldest access or packet on
its way; a capsule with neither has none to name (R399, R410; DEDUCED, log 34). -/
def State.linkRecord (s : State) (cap : Capsule) (lost : List Access) : State :=
  let i := linkInfo 0
  match lost ++ s.accesses.filter fun a => a.inst == cap.inst && a.travels with
  | a :: _ => s.reportFault cap.inst a.core a.member a.pc a.insn 2 { i with addr := a.ca }
  | [] => match s.packets.find? fun p => p.inst == cap.inst && p.state == .moving && p.pc.isSome with
    | some p => s.reportFault cap.inst p.src p.body.member (p.pc.getD 0) (p.insn cap) 2 i
    | none => s.reportFault cap.inst cap.superCore 0 0 [] 2 i

/-- A link that fails is a class 17 fault of a capsule, which ends with status 0x0005 (R410; DESIGN CHOICE, log 6 for DETAIL); the
accesses that were on it are lost, and recorded by that fault (R405). Of a capsule that is completing already, what waits for a link
that is gone is dropped. -/
def State.linkFault (s : State) (cap : Capsule) (lost : List Access) : State :=
  let s1 := lost.foldl (fun (s : State) a => s.cancelAccess a) ((s.linkRecord cap lost).endCapsule cap.inst 5)
  match s1.capsule? cap.inst with
  | some c => if c.stage = .completing then s1.cancelLost c true else s1
  | none => s1

/-- What a domain's ERROR stops, R464. Domains 0, 3 to 16 act where ERR is read. -/
def State.stopDomain (s : State) (d : Nat) : State :=
  match d with
  | 1 => (s.host.windows.map (·.1)).foldl (fun s w => if (s.window w).en then s.disableWindow w else s) s
  | 2 =>
    let s1 := { s with host := { s.host with onzPorts := s.host.onzPorts.map fun p => { p with up := false, lanes := 0 } } }
    (s.capsules.filter fun c => !c.uncommitted && s.onLink c != []).foldl (fun t c => t.linkFault c (s.onLink c)) s1
  | 16 => s.setPoints (List.range 6) (bits s.host.opctl 12 2)
  | _ => s

/-- A locked domain's digest does not match: ERR and STATUS.ERROR are set, the error is logged, and the domain is stopped. -/
def State.lockMismatch (s : State) (d : Nat) : State :=
  let s1 := { s with host := { s.host with lockErr := s.host.lockErr ||| BitVec.twoPow 17 d, error := true } }
  (s1.logError ⟨unitLysgeza, d, 5, 1, 0⟩).stopDomain d

/-- The walker checks a locked domain. -/
def execLockWalkerCheck (domain : Nat) (s : State) : Host.Outcome State Fault Refusal :=
  event (decide (domain < 17) && s.locked domain && !s.domainError domain &&
      (SMap.get [] s.host.digests domain != sha3_512 (s.domainBytes domain)))
    (fun s => s.lockMismatch domain) s

/-! Register writes and reads by BAR0 offset (R6, R362) -/

/-- A write of 8 bytes to a register of the device block. -/
def State.writeDevice (s : State) (off value : Nat) : State :=
  match off with
  | 0x008 => s.command (bits value 0 2)
  | 0x010 => { s with host := { s.host with opctl := bits value 0 14 } }.floorPoints
  | 0x018 => s.writeOpdef 0 value
  | 0x020 => s.writeOpdef 1 value
  | 0x028 => s.writeOpdef 2 value
  | 0x030 => s.writeOpdef 3 value
  | 0x040 => s.writeKill value
  | _ => s

/-- A write of 8 bytes to a queue block; SUBMIT takes only 16 bytes. -/
def State.writeQueue (s : State) (q off value : Nat) : State :=
  match off with
  | 0x18 => s.writeQcfg q value
  | 0x20 =>
    if (s.queue q).en ∨ value % 64 ≠ 0 ∨ openSpace value = false then s else s.setQueue q { s.queue q with array := value }
  | _ => s

/-- The offsets from which PCI Express configuration space and the MSI-X mask bits are written and read: the model's own, since
BAR0 ends below them (DESIGN CHOICE, log 29). -/
def cfgBase : Nat := 0x100000
def msixBase : Nat := 0x200000

/-- A write of 8 bytes at an 8-byte aligned offset; a read-only or reserved field keeps its value (R5, R6) (DEDUCED, log 30). -/
def State.writeReg (s : State) (off value : Nat) : State :=
  if off < 0x1000 then s.writeDevice off value
  else if off = 0x8000 then s.writeMbctl value
  else if off < 0xC000 then s
  else if off < 0x10000 then
    { s with host := { s.host with
      mbox := ((leBytes 8 value).zipIdx).foldl (fun m e => SMap.put m (off + e.2) e.1) s.host.mbox } }
  else if off < 0x14000 then s.writeQueue ((off - 0x10000) / 64) (off % 64) value
  else if off < 0x15000 then s.writeWindow ((off - 0x14000) / 64) (off % 64) value
  else if off = 0x15000 then s.setLocks value
  else if off < 0x16000 then s
  else if off = 0x16000 then s.writeOnzId value
  else if off = 0x16008 then s.writeOnzCtl value
  else if off < 0x18000 then s
  else if off < 0x1E000 then s.writeEth ((off - 0x18000) / 0x800) (off % 0x800) value
  else if off < 0x20000 then s
  else if off < 0x40000 then s.writePeer off value
  else if cfgBase ≤ off ∧ off < cfgBase + 4096 then
    if s.locked 0 then s
    else ((leBytes 8 value).zipIdx).foldl (fun (s : State) e => s.writeCfgByte (off - cfgBase + e.2) e.1) s
  else if msixBase ≤ off ∧ off < msixBase + 8 * 257 then
    let v := (off - msixBase) / 8
    let rest := s.host.msixMask.filter fun x => x != v
    { s with host := { s.host with msixMask := if value % 2 = 1 then v :: rest else rest } }
  else s

/-- A host write to a register of 8 bytes. -/
def execRegisterWrite (offset value : Nat) (s : State) : Host.Outcome State Fault Refusal :=
  event (s.host.ready && (!s.d3hot || decide (cfgBase ≤ offset)) && decide (offset % 8 = 0 ∧ value < 2 ^ 64))
    (fun s => s.writeReg offset value) s

/-- A word of the Onazal block. -/
def State.readOnz (s : State) (off : Nat) : Nat :=
  match off with
  | 0x00 => s.host.onzId
  | 0x08 => s.host.onzCtl
  | 0x10 => packBits (s.host.onzPorts.toList.map (·.up))
  | _ =>
    if 0x20 ≤ off ∧ off < 0xB0 then
      let p := s.onzPort ((off - 0x20) / 8)
      p.lanes % 16 + p.retrains % 2 ^ 16 * 2 ^ 8
    else 0

/-- What a read of 8 bytes at an 8-byte aligned BAR0 offset returns. -/
def State.readReg (s : State) (off : Nat) : Nat :=
  if off = 0x000 then s.statusReg
  else if off = 0x008 then s.host.pwrctl
  else if off = 0x010 then s.host.opctl
  else if 0x018 ≤ off ∧ off ≤ 0x030 then s.opdefReg ((off - 0x018) / 8)
  else if off = 0x040 then s.killReg
  else if off = 0x8000 then s.host.mbCode + s.host.mbResult * 2 ^ 8
  else if 0x8010 ≤ off ∧ off < 0x10000 then leNat (s.mbBytes off 8)
  else if 0x10000 ≤ off ∧ off < 0x14000 then
    let v := s.queue ((off - 0x10000) / 64)
    match off % 64 with
    | 0x10 => v.consumed
    | 0x18 => v.qcfg
    | 0x20 => v.array
    | _ => 0
  else if 0x14000 ≤ off ∧ off < 0x15000 then
    let v := s.window ((off - 0x14000) / 64)
    match off % 64 with
    | 0x00 => v.base
    | 0x08 => v.size
    | 0x10 => v.owner
    | 0x18 => (if v.en then 1 else 0) + if v.refused then 2 else 0
    | _ => 0
  else if off = 0x15000 then s.host.lock.toNat
  else if off = 0x15008 then s.host.lockErr.toNat
  else if 0x16000 ≤ off ∧ off < 0x16100 then s.readOnz (off - 0x16000)
  else if 0x18000 ≤ off ∧ off < 0x1E000 then s.readEth ((off - 0x18000) / 0x800) (off % 0x800)
  else if 0x20000 ≤ off ∧ off < 0x40000 then
    if s.domainError 15 ∧ off % 64 = 48 then bits (SMap.get 0 s.host.peers ((off - 0x20000) / 64)).toNat 384 64 / 2 * 2
    else bits (SMap.get 0 s.host.peers ((off - 0x20000) / 64)).toNat (8 * (off % 64)) 64
  else if cfgBase ≤ off ∧ off < cfgBase + 4096 then leNat ((List.range 8).map fun i => s.cfgByte (off - cfgBase + i))
  else if msixBase ≤ off ∧ off < msixBase + 8 * 257 then (if s.host.msixMask.contains ((off - msixBase) / 8) then 1 else 0)
  else 0

end Sys2Proof.Machine
end

