-- ==== Sys2Proof/Machine/Inbound.lean ====
section
/-! DEFINITION. What reaches the package from outside: bring-up (R375), inbound writes and reads (R364-R367, R396, R397, R439),
requests from other packages (R157, R369), link errors (R410), the scrubber and self-checks (R408, R409, R437, R438). -/

namespace Sys2Proof.Machine

open Sys2Proof

/-! Bring-up (R375) -/

/-- The blob copy that is accepted: A, or B when A fails its check. -/
def State.acceptedBlob (s : State) : Option Blob :=
  let good := fun (b : Blob) => b.signed && decide (s.host.minVersion ≤ b.version)
  if good s.host.flashA then some s.host.flashA else if good s.host.flashB then some s.host.flashB else none

/-- From reset, the blob is checked and loaded and READY is set; if both copies fail, ERROR is set and READY stays 0. Either is an event
of the STATUS register (R368; DEDUCED, log 99). -/
def State.bringUp (s : State) : State :=
  match s.acceptedBlob with
  | some b => { s with host := { s.host with ready := true, blob := some b, measurement := sha3_512 b.bytes } }.signalEvent
  | none => { s with host := { s.host with error := true } }.signalEvent

/-- Lysgeza brings the package up. -/
def execBringUp (s : State) : Host.Outcome State Fault Refusal :=
  event (!s.host.ready && !s.host.error) (fun s => s.bringUp) s

/-! Inbound requests (R364-R367, R396, R397, R439) -/

/-- The unit number of the I/O dies in the device error log (PRESUMED, log 26). -/
def unitIo : Nat := 18

/-- The enabled window that holds every byte of a range of HBM local addresses, R365. -/
def State.windowFor? (s : State) (addr n : Nat) : Option Window :=
  (s.host.windows.find? fun e => e.2.en && decide (e.2.base ≤ addr ∧ addr + n ≤ e.2.base + e.2.size)).map (·.2)

/-- The device address of an HBM local address of the package, R136. -/
def State.hbmAddr (s : State) (loc : Nat) : Nat := s.pkgId * 2 ^ 47 + loc

/-- The line pieces of a request of `n` bytes, numbered from `id`. -/
def State.piecesOf (s : State) (loc n id : Nat) (data : List Byte) (st : PieceState) : List LinePiece :=
  ((unitsOf (s.hbmAddr loc, n)).zipIdx).map fun u =>
    { id := id + u.2, index := u.2, addr := u.1.1, size := u.1.2, data := (data.drop (u.1.1 - s.hbmAddr loc)).take u.1.2,
      state := st, order := id + u.2, failed := false }

/-- An inbound request enters the I/O die (DEDUCED, log 32). -/
def State.addInbound (s : State) (rid owner addr n : Nat) (data : List Byte) (read : Bool) : State :=
  let ps := s.piecesOf addr n s.serial data (if read then .sent else .waiting)
  let seq := if read then s.host.inboundSeq else s.host.inboundSeq + 1
  { s with
    serial := s.serial + ps.length
    host := { s.host with
      inboundSeq := seq
      inbound := s.host.inbound ++ [⟨seq, rid, owner, read, addr, ps⟩] } }

/-- A BAR2 request outside every enabled window is reported through Advanced Error Reporting, as an unsupported request (bit 20;
PRESUMED, log 101), and in the device error log, R439 (DEDUCED, log 33). -/
def State.reportOutside (s : State) (addr : Nat) : State :=
  { s with host := { s.host with aer := s.host.aer ||| BitVec.twoPow 32 20 } }.logError ⟨unitIo, addr, 1, 1, 0⟩

/-- The bytes of a request lie in one 4 KiB block, as PCI Express has it (R365). -/
def oneBlock (addr n : Nat) : Bool := decide (0 < n ∧ addr / 4096 = (addr + n - 1) / 4096)

/-- Unacknowledged writes at the I/O die. -/
def State.writesHeld (s : State) : Nat := (s.host.inbound.filter fun w => !w.read).length

/-- An inbound posted write of up to 512 bytes: space 2 is BAR2, space 0 a register write of 8 bytes in BAR0. In D3hot the
function takes no request through its BARs (R361; PRESUMED, log 101). -/
def execInboundWrite (rid space addr : Nat) (data : List (BitVec 8)) (s : State) : Host.Outcome State Fault Refusal :=
  match space with
  | 2 =>
    hostEvent s (oneBlock addr data.length && decide (data.length ≤ 512 ∧ s.writesHeld < 512)) fun s =>
      match s.windowFor? addr data.length with
      | some w => s.addInbound rid w.owner addr data.length data false
      | none => s.reportOutside addr
  | 0 => hostEvent s (decide (addr % 8 = 0 ∧ addr < 2 ^ 20 ∧ data.length = 8)) fun s => s.writeReg addr (leNat data)
  | _ => .next s

/-- Every piece of every earlier write of the requester to another home is acknowledged, and those to the same home are sent. -/
def State.pieceReady (s : State) (w : Inbound) (p : LinePiece) : Bool :=
  s.host.inbound.all fun v => v.rid != w.rid || v.read || decide (w.seq ≤ v.seq) || v.pieces.all fun q =>
    q.state == .answered || (q.state != .waiting && s.homeOf q.addr false == s.homeOf p.addr false)

/-- A piece of a write is sent to its home. -/
def execInboundPieceSend (seq piece : Nat) (s : State) : Host.Outcome State Fault Refusal :=
  match s.host.inbound.find? fun w => w.seq == seq && !w.read with
  | none => .next s
  | some w => match w.pieces.find? fun p => p.index == piece with
    | none => .next s
    | some p =>
      event (p.state == .waiting && s.pieceReady w p)
        (fun s => (s.setPiece { p with state := PieceState.sent, order := s.serial }).tick) s

/-- Register bytes: BAR0 reads of whole aligned words. -/
def State.readRegs (s : State) (addr n : Nat) : List Byte :=
  ((List.range ((n + 7) / 8)).flatMap fun i => leBytes 8 (s.readReg (addr + 8 * i))).take n

/-- An inbound read: space 2 is BAR2, space 0 BAR0. It is sent once every earlier write of the requester is acknowledged. -/
def execInboundRead (rid space addr len : Nat) (s : State) : Host.Outcome State Fault Refusal :=
  let clear := !s.host.inbound.any fun w => w.rid == rid && !w.read
  let answer := fun (s : State) (o : HostOut) => { s with host := { s.host with out := s.host.out ++ [o] } }
  if s.host.ready && s.d3hot then .next (answer s (.unsupported rid addr))
  else match space with
  | 2 =>
    hostEvent s (oneBlock addr len && clear) fun s =>
      match s.windowFor? addr len with
      | some w => s.addInbound rid w.owner addr len [] true
      | none => answer (s.reportOutside addr) (.unsupported rid addr)
  | 0 =>
    hostEvent s (decide (addr % 8 = 0) && oneBlock addr len && decide (addr + len ≤ 2 ^ 20) && clear) fun s =>
      answer s (.readData rid addr (s.readRegs addr len))
  | _ => .next s

/-! Other packages (R157, R369) -/

/-- The Onazal link carries traffic: a port is enabled and up. -/
def State.onzUp (s : State) : Bool := s.onzEn && (List.range 18).any fun p => s.onzPortEn p && (s.onzPort p).up

/-! The header of a request from another package, as REMOTE_REQUEST_ARRIVE carries it (DESIGN CHOICE, log 24): the owner id in bits
[63:0], what it asks in [71:64], the guard bit of its data in bit 72, the MSA of its extent in bit 73, in bit 74 that its capsule is
a stocking one, the requesting core in [94:80] and its package in [108:96], the instance in [159:128], and FN or the compare value of
CAS above. -/

def reqOwner (header : Nat) : Nat := bits header 0 64
def reqInst (header : Nat) : Nat := bits header 128 32
def reqCore (header : Nat) : Nat := bits header 80 15
def reqPkg (header : Nat) : Nat := bits header 96 13

/-- What a request asks: 0 a load, 1 a store, 2 AMO, 3 RED, 4 CAS, 5 AMOF, 6 REDF. -/
def remoteOp? (header : Nat) : Option RemoteOp :=
  let fn := header / 2 ^ 160
  match bits header 64 8 with
  | 0 => some .load
  | 1 => some .store
  | 2 => some (.atomic (.amo fn))
  | 3 => some (.atomic (.red fn))
  | 4 => some (.atomic (.cas fn))
  | 5 => some (.atomic (.amof fn))
  | 6 => some (.atomic (.redf fn))
  | _ => none

/-- The data that a request carries: none for a load, and otherwise its size, which for an atomic is 4 or 8 bytes, aligned. -/
def RemoteOp.shapeOk (o : RemoteOp) (addr size : Nat) (data : List Byte) : Bool :=
  match o with
  | .load => data.isEmpty
  | .store => data.length == size
  | .atomic _ => data.length == size && decide ((size = 4 ∨ size = 8) ∧ addr % size = 0)

/-- A request from another package takes a lane for its owner; it waits while all lanes are held. -/
def execRemoteRequestArrive (header addr size : Nat) (data : List (BitVec 8)) (s : State) : Host.Outcome State Fault Refusal :=
  match s.takeLane (reqOwner header), remoteOp? header with
  | some (_, s1), some o =>
    let q : RemoteReq :=
      { id := s.serial, owner := reqOwner header, op := o, addr := addr, size := size, store := data, inst := reqInst header,
        guard := decide (bits header 72 1 = 1), msa := decide (bits header 73 1 = 1), stock := decide (bits header 74 1 = 1),
        core := reqCore header, pkg := reqPkg header }
    event (s.host.ready && s.onzUp && devPkg addr == s.pkgId && devSpace addr != 4 &&
        decide (0 < size ∧ addr / 64 = (addr + size - 1) / 64) && o.shapeOk addr size data)
      (fun _ => { s1 with serial := s1.serial + 1, host := { s1.host with remote := s1.host.remote ++ [q] } }) s
  | _, _ => .next s

/-! Links (R410) -/

/-- Failed replays of a flit so far. -/
def State.replaysOf (s : State) (link flit : Nat) : Nat :=
  match s.host.replays.find? fun r => r.1 == link && r.2.1 == flit with
  | some r => r.2.2
  | none => 0

/-- The die layer of a link: links 0 to 17 are the Onazal ports, 18 the PCI Express link, 19 to 30 the Ethernet ports, 31 to 63 the
die-to-die ports, and 64 + 4,096 × layer onwards the router links of a die layer (DESIGN CHOICE, log 102). -/
def linkLayer? (link : Nat) : Option Nat := if 64 ≤ link ∧ link < 64 + 12 * 4096 then some ((link - 64) / 4096) else none

/-- The unit that the log names for a link, and its CYC (R408; PRESUMED, log 26). -/
def linkUnit (link : Nat) : Nat := match linkLayer? link with
  | some l => 32 + l
  | none => if link < 31 then unitIo else 19
def State.linkCyc (s : State) (link : Nat) : Nat := ((linkLayer? link).map s.layerCyc).getD 0

/-- PCI Express and Ethernet have a link protection of their own, and only count their errors in the log. -/
def ownProtection (link : Nat) : Bool := decide (18 ≤ link ∧ link < 31)

/-- A flit fails its CRC and is replayed with every flit after it; nothing is lost, doubled or reordered. -/
def execLinkCrcReplay (link flit : Nat) (s : State) : Host.Outcome State Fault Refusal :=
  let log := fun (s : State) => s.logError ⟨linkUnit link, link, 2, 1, s.linkCyc link⟩
  event (ownProtection link || decide (s.replaysOf link flit < 8))
    (fun s =>
      let rest := s.host.replays.filter fun r => !(r.1 == link && r.2.1 == flit)
      if ownProtection link then log s
      else log { s with host := { s.host with replays := rest ++ [(link, flit, s.replaysOf link flit + 1)] } }) s

/-- A capsule has a packet, or the request or reply of an access, on its way, which a link may hold. -/
def State.underWay (s : State) (inst : Nat) : Bool :=
  s.packets.any (fun p => p.inst == inst && p.state == .moving) || s.accesses.any fun a => a.inst == inst && a.travels

/-- A link retrains after 8 failed replays. With no lane it has failed, and the capsules with a packet on it take a class 17
fault: of an Onazal port those that it carries accesses of, of another link those that the event names. -/
def execLinkRetrain (link lanes : Nat) (insts : List Nat) (s : State) : Host.Outcome State Fault Refusal :=
  let on := fun (c : Capsule) => if link < 18 then s.onPort c link else []
  let hit := s.capsules.filter fun c => !c.uncommitted && (insts.contains c.inst || on c != [])
  let f := fun (s : State) =>
    let rest := s.host.replays.filter fun r => r.1 != link
    let s1 := { s with host := { s.host with replays := rest } }.logError ⟨linkUnit link, link, 3, 1, s.linkCyc link⟩
    let s2 := if link < 18 then
        let p := s1.onzPort link
        s1.setOnzPort link { p with retrains := (p.retrains + 1) % 2 ^ 16, lanes := min lanes 8, up := p.up && lanes != 0 }
      else s1
    if lanes = 0 then hit.foldl (fun s c => s.linkFault c (on c)) s2 else s2
  event ((s.host.replays.any fun r => r.1 == link && decide (8 ≤ r.2.2)) && insts.all fun i => s.underWay i) f s

/-! The scrubber and self-checks (R408, R409, R437, R438) -/

/-- The last level that an error is found at; the unit of the log entry is the level's code. -/
def levelOk (level : Nat) : Bool := decide (1 ≤ level ∧ level ≤ 8)

/-- The capsules of a lane end: a dirty slice line of their owner is lost. -/
def State.endLane (s : State) (lane : Nat) : State :=
  (s.capsules.filter fun c => c.lane == lane && !c.uncommitted).foldl (fun s c => s.endCapsule c.inst 5) s

/-- A granule of a core's register space is in error: location 512 × core + granule (DESIGN CHOICE, log 74). -/
def State.breakGranule (s : State) (at_ : Nat) : State :=
  let k := s.core (at_ / 512)
  s.setCore (at_ / 512) { k with badGrans := if k.badIn [at_ % 512] then k.badGrans else at_ % 512 :: k.badGrans }

/-- The scrubber finds an uncorrectable error in a line, R437: caches drop it, a dirty slice line is lost with the capsules of its
lane, and elsewhere the line is bad (DESIGN CHOICE, log 74). -/
def State.scrubbed (s : State) (level addr : Nat) : State :=
  let line := addr / 64
  let kind := if level = 3 ∨ level = 4 ∨ level = 5 then 0 else 1
  let s1 := s.logError ⟨level, addr, kind, 1, s.lineCyc level addr⟩
  match level with
  | 3 => { s1 with cores := s1.cores.map fun e => (e.1, { e.2 with l1 := e.2.l1.filter fun l => l.line != line }) }
  | 4 => s1.dropCross addr
  | 5 => { s1 with slice := s1.slice.filter fun l => !(l.line == line && !l.dirty) }
  | 6 =>
    let lost := s1.slice.filter fun l => l.line == line && l.dirty
    let s2 := lost.foldl (fun s l => s.endLane l.lane) s1
    if lost.isEmpty then s1
    else { s2 with
      slice := s2.slice.filter fun l => l.line != line
      mem := writeBytes s2.mem (64 * line) (freeBytes s2.freeCount 64)
      freeCount := s2.freeCount + 1 }
  | 2 => s1.breakGranule addr
  | _ => { s1 with bad := SMap.put s1.bad line level }

/-- The scrubber passes over a line: error 0 finds nothing, 1 a correctable error, 2 an uncorrectable one; with error 3 an
uncorrectable error has arisen that an access may meet first (DESIGN CHOICE, log 28). -/
def execScrubPass (level addr error : Nat) (s : State) : Host.Outcome State Fault Refusal :=
  match error with
  | 1 => event (levelOk level) (fun s => s.logError ⟨level, addr, 0, 1, s.lineCyc level addr⟩) s
  | 2 => event (levelOk level) (fun s => s.scrubbed level addr) s
  | 3 => event (levelOk level) (fun s => if level = 2 then s.breakGranule addr else { s with bad := SMap.put s.bad (addr / 64) level }) s
  | _ => .next s

/-- A unit fails its self-check: a crossing cache (4, by 6 × its chiplet + the next one) drops every line; a home slice (9) or base
die (10) makes every access homed there a class 16 fault. -/
def execSelfCheckFail (unit index : Nat) (s : State) : Host.Outcome State Fault Refusal :=
  match unit with
  | 4 => event (decide (index < 36)) (fun s =>
      { s with cross := s.cross.filter fun l => !(l.chiplet == index / 6 && l.port == index % 6) }.logError ⟨4, index, 0, 1, 0⟩) s
  | 9 => event (decide (index < 2304)) (fun s => { s with failedHomes := s.failedHomes ++ [(9, index)] }.logError ⟨9, index, 1, 1, s.lineCyc 9 index⟩) s
  | 10 => event (decide (index < 12)) (fun s => { s with failedHomes := s.failedHomes ++ [(10, index)] }.logError ⟨10, index, 1, 1, 0⟩) s
  | _ => .next s

end Sys2Proof.Machine
end

