-- ==== Sys2Proof/Machine/Park.lean ====
section
/-! DEFINITION. Pre-emption and parking: eviction (R221, R224), the image and the spill area (R222, R223, R473, R474, R478,
R479), restore and its refusals (R225, R226, R450, R451, R456), and the Plaza's restarts and capability faults (R447-R449). -/

namespace Sys2Proof.Machine

open Sys2Proof

/-! The positions that R207 allows a role -/

/-- Core `c` at role `i` of a group agrees with core `d` at role `j` (R68, R88, R207, R456). -/
def Group.agrees (g : Group) (i c j d : Nat) : Bool :=
  decide (scopeOf c d ≤ g.scope) && match g.shape with
    | 0 | 1 =>
      layerOf c == layerOf d && decide (rowOf c + j / g.b = rowOf d + i / g.b ∧ colOf c + j % g.b = colOf d + i % g.b)
    | 2 => hopNear c d || !((i + 1) % g.a == j || (j + 1) % g.a == i)
    | _ => true

/-- Core `c` at role `i` leaves room for the rectangle of a rect or torus group on its die layer. -/
def Group.roomAt (g : Group) (i c : Nat) : Bool :=
  match g.shape with
  | 0 | 1 => decide (i / g.b ≤ rowOf c ∧ rowOf c - i / g.b + g.a ≤ 32 ∧ i % g.b ≤ colOf c ∧ colOf c - i % g.b + g.b ≤ 48)
  | _ => true

/-- A core may hold a parked role: it keeps R207 in every group the role belongs to, beside the roles that are not parked. -/
def State.keepsShape (s : State) (cap : Capsule) (role c : Nat) : Bool :=
  let old := (cap.coreOf? 0 role).getD 0
  let live := fun (d : Nat) => d != old && (s.core d).inst == some cap.inst
  (cap.groups.all fun g => g.shape == 7 || (match g.cores.findIdx? fun d => d = old with
    | none => true
    | some i => g.roomAt i c && (g.cores.zipIdx).all fun e => !live e.1 || g.agrees i c e.2 e.1)) &&
    cap.shares.any fun v => decide (v.sum = cap.group0.members) && chipletOf c == chipletOfRole v 0 role &&
      (cap.cores.zipIdx).all fun e => !live e.1 || chipletOf e.1 == chipletOfRole v 0 e.2

/-- A core is of sufficient class for a parked role and keeps R207 for it (R225). -/
def State.restorable (s : State) (cap : Capsule) (role c : Nat) : Bool := s.suits cap.hdr c && s.keepsShape cap role c

/-! Eviction (R221, R224) -/

/-- What waits for cores, R221: the priority of the head, and whether it could be placed on the available cores with the use of some of
them: a capsule to be placed, or a parked image to be restored (R450). -/
def State.heads (s : State) : List (Nat × ((Nat → Bool) → List Nat → Bool)) :=
  (s.capsules.filterMap fun k => match k.stage with
    | .placing _ => some (k.hdr.prio, fun avail must => s.placeableOn k [] avail must)
    | _ => none) ++
  s.capsules.flatMap fun k => (k.parked.filter fun p => !s.lostRole k p.role).map fun p =>
    (k.hdr.prio, fun avail must => (List.range 18432).any fun c => s.restorable k p.role c && avail c && must.all (· == c))

/-- A running capsule that a head of a priority may take cores from, R218, R221. -/
def Capsule.victimOf (cap : Capsule) (prio : Nat) : Bool :=
  cap.stage == .running && cap.endReqs.isEmpty && decide (cap.hdr.prio < prio ∧ cap.hdr.park ≠ 0)

/-- Victims are taken in ascending PRIO, and among equal PRIO the latest instance first. -/
def Capsule.beforeVictim (a b : Capsule) : Bool := decide (a.hdr.prio < b.hdr.prio ∨ (a.hdr.prio = b.hdr.prio ∧ b.inst < a.inst))

/-- The roles that share an MMAR in flight with a role, as its source or as its requester (R221). -/
def State.mmarPartners (s : State) (cap : Capsule) (role : Nat) : List Nat :=
  let c := (cap.coreOf? 0 role).getD 0
  let sends := fun (a b : Nat) => (s.core a).qm.any fun e => e.op == .mmar && e.begun && e.src == b
  (cap.cores.zipIdx).filterMap fun e =>
    if e.1 ≠ c ∧ (s.core e.1).inst = some cap.inst ∧ (sends c e.1 || sends e.1 c) then some e.2 else none

/-- The eviction of some roles serves a head (R221): without these cores, and with every victim that comes before, the head could not be
placed. Where this victim's cores suffice, the evicted ones do, and none of them, with its MMAR partners, can be spared; where they do
not, each of them or a partner stands in a placement that takes the rest from the victims that come after. -/
def State.needed (s : State) (cap : Capsule) (roles : List Nat) (prio : Nat) (fits : (Nat → Bool) → List Nat → Bool) : Bool :=
  let victims := s.capsules.filter fun k => k.victimOf prio
  let free := fun (c : Nat) => (s.core c).inst.isNone || (s.core c).evicting
  let earlier := fun (c : Nat) => free c || victims.any fun k => k.beforeVictim cap && (s.core c).inst == some k.inst
  let later := fun (c : Nat) => victims.any fun k => cap.beforeVictim k && (s.core c).inst == some k.inst
  let coresOf := fun (l : List Nat) => l.filterMap fun r => cap.coreOf? 0 r
  let taken := coresOf roles
  let own := fun (c : Nat) => (s.core c).inst == some cap.inst
  let unit := fun (r : Nat) => r :: (s.mmarPartners cap r).filter fun q => roles.contains q
  let lone := coresOf (roles.filter fun r => (unit r).length == 1)
  cap.victimOf prio && !fits earlier [] &&
    (if fits (fun c => earlier c || own c) [] then
       fits (fun c => earlier c || taken.contains c) [] &&
         roles.all fun r => !fits (fun c => earlier c || (taken.contains c && !(coresOf (unit r)).contains c)) []
     else roles.all fun r => (coresOf (unit r)).any fun c =>
       fits (fun d => earlier d || taken.contains d || later d) (c :: lone))

/-- A role that may be evicted: its core runs and is not being evicted. -/
def State.liveRole (s : State) (cap : Capsule) (role : Nat) : Bool :=
  match cap.coreOf? 0 role with
  | some c => (s.core c).inst == some cap.inst && !(s.core c).evicting
  | none => false

/-- The tagged operations and fetches of a core that wait at their homes are cancelled there, R224. -/
def State.cancelTagged (s : State) (inst c : Nat) : State :=
  let waits := fun (a : Access) => a.core == c && a.inst == inst && a.op.tagged && (match a.state with
    | .waiting | .ticketed | .granted | .refused _ => true
    | .sent => a.op == .fetch && s.destParked a
    | _ => false)
  (s.accesses.filter waits).foldl (fun (s : State) a =>
    match s.homeNow a with
    | .core d => ((s.useTicket d a.id).takeBack a).grantHome d
    | _ => s.takeBack a) s

/-- A core stops issuing, and its waits are cancelled, R224. -/
def State.evictCore (s : State) (cap : Capsule) (counter : Nat) (roles : List Nat) (role : Nat) : State :=
  match cap.coreOf? 0 role with
  | none => s
  | some c =>
    let partners := (s.mmarPartners cap role).filter fun r => roles.contains r
    (s.setCore c { s.core c with evicting := true, evictAs := (counter, partners) }).cancelTagged cap.inst c

/-- The digest of a record list, R225. -/
def bayDigest (l : List ParkRec) : List Byte := sha3_512 (l.flatMap fun r => leBytes 2 r.role ++ leBytes 8 r.counter ++ r.tag)

/-- The bay of an instance. -/
def State.bay? (s : State) (inst : Nat) : Option Bay := s.plaza.bays.find? fun b => b.inst == inst

/-- Replace the bay of an instance, or open one. -/
def State.setBay (s : State) (b : Bay) : State :=
  let bays := if s.plaza.bays.any fun o => o.inst == b.inst then s.plaza.bays.map fun o => if o.inst = b.inst then b else o
    else s.plaza.bays ++ [b]
  { s with plaza := { s.plaza with bays := bays } }

/-- The bay of a capsule with its counter risen by one, R224, R225. -/
def State.bumpBay (s : State) (cap : Capsule) : Bay :=
  match s.bay? cap.inst with
  | some b => { b with counter := cap.saveCounter + 1 }
  | none => ⟨cap.inst, cap.hdr.owner, cap.saveCounter + 1, bayDigest [], [], 0⟩

/-- An eviction event of a capsule: every image written in it will carry the new save counter (R224). -/
def State.evictEvent (s : State) (cap : Capsule) (roles : List Nat) : State :=
  let s1 := s.setBay (s.bumpBay cap)
  let cap' := { cap with saveCounter := cap.saveCounter + 1, wasParked := true }
  roles.foldl (fun (s : State) r => s.evictCore cap cap'.saveCounter roles r) (s1.setCapsule cap')

/-- The Plaza evicts cores of a running capsule for a waiting head, R221. -/
def execCoreEvict (inst : Nat) (roles : List Nat) (s : State) : Host.Outcome State Fault Refusal :=
  match s.capsule? inst with
  | none => .next s
  | some cap =>
    let top := (s.heads.map (·.1)).foldl max 0
    let ok := !roles.isEmpty && roles.Nodup && (roles.all fun r => s.liveRole cap r &&
        (s.mmarPartners cap r).all fun q => roles.contains q || !s.liveRole cap q) &&
      ((s.bay? inst).isSome || decide (s.plaza.bays.length < 4096)) &&
      s.heads.any fun h => h.1 == top && s.needed cap roles h.1 h.2
    event ok (fun s => s.evictEvent cap roles) s

/-! The image (R222, R223, R473, R478, R479) -/

/-- The size of a parking slot, and the offset of its spill area. -/
def parkSlot : Nat := 327680
def spillOff : Nat := 262144
def tagOff : Nat := 262112

/-- The device address of a role's parking slot, R222. -/
def Capsule.slotAddr (cap : Capsule) (role : Nat) : Nat := cap.hdr.park + role * parkSlot

/-- The kind and header of a packet as it is laid out, R476. -/
def Packet.header (p : Packet) : Nat := routeHeader p.src p.body.kind p.cls p.dest

/-- A packet in 192 bytes, R76, R77; fault packets and combining messages have a format of the device's own (DESIGN CHOICE, log 19). -/
def Packet.bytes (p : Packet) (draw : Nat) : List Byte :=
  padTo 192 (match p.body with
    | .task t _ _ => taskPacket p.header t
    | .message tid member words => messagePacket p.header tid member words
    | .faultMessage tid member words => messagePacket p.header tid member words
    | .resume words => messagePacket p.header 0 0 words
    | .fault _ _ | .barrier _ _ _ | .grant _ => leBytes 8 p.header ++ freeBytes draw 184)

/-- The state byte of a slot, R479. -/
def SlotState.code : SlotState → Nat
  | .empty => 0
  | .ready => 1
  | .parked | .departing | .sending _ => 2
  | .blocked _ => 3
  | .ticketed _ => 4
  | .granted _ => 5
  | .held => 6

/-- The state byte of a creator whose child is refused, R479: as its child's packet stands. -/
def PktState.creatorCode : PktState → Nat
  | .ticketed => 4
  | .granted => 5
  | _ => 2

/-- Slot `n` of an image, R222, R479: the task packet with the state in byte 51. A creator parked by a refused child has the header
zero. -/
def State.slotBytes (s : State) (c n : Nat) : List Byte :=
  let sl := s.slot c n
  let code := match s.refusedChild? c n with
    | some p => p.state.creatorCode
    | none => sl.state.code
  let header := match sl.state with
    | .ticketed p | .granted p => ((s.packet? p).map Packet.header).getD 0
    | _ => 0
  if sl.state = .empty then List.replicate 192 0 else (taskPacket header sl.task).set 51 (BitVec.ofNat 8 code)

/-- A ticket of the arrival queue, R222: the holder's role and slot, and bit 31 once it has been granted. -/
def State.ticketBytes (s : State) (cap : Capsule) (t : Ticket) : List Byte :=
  match s.packet? t.pkt with
  | some p => leBytes 8 (cap.roleOfCore p.src % 2 ^ 15 + p.slot % 8 * 2 ^ 16 + if t.granted then 2 ^ 31 else 0)
  | none => leBytes 8 0

/-- Bits of a list as bytes. Of a REGS or SCRATCH that is not a multiple of 512 the guard bits are no whole number of bytes: each area of
R222 is rounded up to the next byte (DESIGN CHOICE, log 110). -/
def bitBytes (l : List Bool) : List Byte := leBytes ((l.length + 7) / 8) (packBits l)

/-- The state bytes of the arrival queue entries: waiting packets, and entries reserved for a grant. -/
def Core.entryStates (k : Core) : List Byte :=
  padTo 64 (k.queue.map (fun _ => 1) ++ (k.tickets.filter (·.granted)).map fun _ => 2)

/-- Bytes 0 to 255 of an image. -/
def imageHead (cap : Capsule) (role counter : Nat) : List Byte :=
  padTo 256 (leBytes 4 cap.inst ++ leBytes 2 role ++ leBytes 1 (if 24576 < cap.hdr.regs then 1 else 0) ++ leBytes 1 0 ++
    leBytes 8 counter ++ leBytes 8 cap.hdr.owner)

/-- The scratchpad of a core as its capsule reads it, up to SCRATCH: bytes, full words by offset div 8, guarded lines by offset
div 64 (R160). -/
def State.scratchBytes (s : State) (cap : Capsule) (c : Nat) : List Byte :=
  (unitsOf (scratchAddr s.pkgId c 0, cap.hdr.scratch)).flatMap fun u => s.readDev cap.bearer u.1 u.2
def State.scratchFull (s : State) (cap : Capsule) (c : Nat) : List Bool :=
  (List.range (cap.hdr.scratch / 8)).map fun w => s.isFull cap.bearer (scratchAddr s.pkgId c (8 * w))
def State.scratchGuards (s : State) (cap : Capsule) (c : Nat) : List Bool :=
  (List.range (cap.hdr.scratch / 64)).map fun l => s.lineGuard cap.bearer (scratchAddr s.pkgId c (64 * l))

/-- The positions of the set bits of a list. -/
def positions (l : List Bool) : List Nat := (l.zipIdx).filterMap fun e => if e.1 then some e.2 else none

/-- The index within the overflow lane's region of its first packet, R222: packets take the region's places in turn (DESIGN CHOICE, log 19). -/
def Capsule.laneIndex (cap : Capsule) (k : Core) : Nat := if cap.laneSize = 0 then 0 else k.laneHead % cap.laneSize

/-- Bytes 256 to 262,111 of an image before encryption. The areas of R478 hold bytes of the device's own encoding (DESIGN CHOICE,
log 19). -/
def State.imageBody (s : State) (cap : Capsule) (c : Nat) : List Byte :=
  let k := s.core c
  let own := fun (i n : Nat) => (List.range n).map fun j => Config.freeByte s.freeCount (65536 * i + j)
  padTo (tagOff - 256) <|
    ((List.range 8).flatMap fun n => s.slotBytes c n) ++
    padTo 12288 (k.queue.flatMap fun q => match s.packet? q with
      | some p => p.bytes s.freeCount
      | none => List.replicate 192 0) ++
    ((k.trackers.toList.zipIdx).flatMap fun t => leBytes 16 t.1.reg ++ own t.2 16) ++
    own 16 256 ++
    padTo 512 (k.tickets.flatMap fun t => s.ticketBytes cap t) ++
    (k.tables.toList.flatMap fun t => leBytes 32 t.toNat) ++
    leBytes 8 k.tableGuard.toNat ++
    leBytes 4 (cap.laneIndex k) ++ leBytes 4 k.overflow.length ++
    k.entryStates ++ List.replicate 816 0 ++
    own 18 65536 ++
    k.spaceBytes 0 cap.hdr.regs ++ bitBytes ((List.range (cap.hdr.regs / 64)).map fun g => (k.granule g).guard) ++
    s.scratchBytes cap c ++ bitBytes (s.scratchFull cap c) ++ bitBytes (s.scratchGuards cap c)

/-- An image as written: the clear head, the encrypted body, and the tag, R223. -/
def State.imageBytes (s : State) (cap : Capsule) (c role counter : Nat) : List Byte :=
  let key := imageKey cap.hdr.owner cap.inst counter
  let b := imageHead cap role counter ++ aesCtr (key.take 32) 16 (s.imageBody cap c)
  b ++ kmac256 (key.drop 32) b 32

/-- An entry of the spill area, R223. -/
def spillBytes (cap : Capsule) (counter e : Nat) (packet : List Byte) : List Byte :=
  let key := imageKey cap.hdr.owner cap.inst counter
  let enc := aesCtr (key.take 32) ((spillOff + 256 * e) / 16) packet
  enc ++ kmac256 (key.drop 32) (enc ++ leBytes 4 e) 32 ++ List.replicate 32 0

/-- An access of a core has not been sent, or waits at its sender for a parked core (R224, R473). -/
def State.unsent (s : State) (a : Access) : Bool :=
  match a.state with
  | .unplaced | .held => true
  | .sent => s.destParked a
  | _ => false

/-- R473: the image may be written. The accesses that are still unsent are those that stay with the image, and those for which it does
not wait; a result is due only of accesses that stay. Packets that the core has sent have been accepted, refused or diverted (DEDUCED,
log 71). -/
def State.quiet (s : State) (inst c : Nat) : Bool :=
  let stays := s.imageHeld c
  (s.accesses.all fun a => !(a.core == c && a.inst == inst) || a.state == .replied || (stays.any fun b => b.id == a.id) ||
      (s.unsent a && !s.imageDue a)) &&
    (s.results.all fun r => !(r.core == c && r.inst == inst) || stays.any fun a => match a.result with
      | some (id, _) => id == r.id
      | none => false) &&
    !(s.packets.any fun p => p.inst == inst && p.src == c && p.state == .moving)

/-- What a core's accesses and those that waited at its scratchpad become when it is parked; grants on their way to these do nothing. -/
def State.parkAccesses (s : State) (inst c role : Nat) : State :=
  let here := fun (a : Access) => windowOf a.ca == .scratch && a.inst == inst && scratchRole a.ca == role
  let stale := fun (p : Packet) => match p.body with
    | .grant id => s.accesses.any fun a => a.id == id && here a
    | _ => false
  let f := fun (a : Access) =>
    if a.core = c ∧ a.inst = inst then (if a.state = .sent then { a with state := AccState.held } else a)
    else if here a then
      (match a.state with
       | .waiting | .ticketed | .granted | .refused _ => { a with state := AccState.sent }
       | _ => a)
    else a
  { s with accesses := s.accesses.map f, packets := s.packets.filter fun p => !stale p }

/-- What the machine keeps of a parked role beside the bytes of its image. -/
def State.parkedOf (s : State) (cap : Capsule) (c : Nat) : Parked :=
  let k := s.core c
  { role := k.role, counter := k.evictAs.1,
    saved :=
      { k with
        evicting := false
        evictAs := (0, [])
        homeTickets := []
        l1 := []
        lookaside := []
        fills := []
        port := 7
        portCount := 0 },
    scratch := s.scratchBytes cap c, fullWords := positions (s.scratchFull cap c), guardLines := positions (s.scratchGuards cap c),
    spills := [], partners := k.evictAs.2 }

/-- A record is inserted in ascending role order. -/
def insertRec (r : ParkRec) : List ParkRec → List ParkRec
  | [] => [r]
  | x :: l => if r.role < x.role then r :: x :: l else if r.role = x.role then r :: l else x :: insertRec r l

/-- The bay of a capsule with another record list. -/
def State.setRecords (s : State) (inst : Nat) (f : List ParkRec → List ParkRec) : State :=
  match s.bay? inst with
  | some b => s.setBay { b with records := f b.records, digest := bayDigest (f b.records) }
  | none => s

/-- The image is written and the core is free, R222-R225. -/
def State.writeImage (s : State) (cap : Capsule) (c : Nat) : State :=
  let p := s.parkedOf cap c
  let img := s.imageBytes cap c p.role p.counter
  let s1 := { s with freeCount := s.freeCount + 1 }.devWrite openBearer (cap.slotAddr p.role) img
  let s2 := (s1.setRecords cap.inst (insertRec ⟨p.role, p.counter, img.drop tagOff⟩)).parkAccesses cap.inst c p.role
  { s2.setCapsule { cap with parked := cap.parked ++ [p] } with cores := SMap.erase s2.cores c }

/-- Once the results and the accesses to the own scratchpad are in, the image of an evicted core is written. -/
def execImageWrite (core : Nat) (s : State) : Host.Outcome State Fault Refusal :=
  match s.capsuleOf? core with
  | none => .next s
  | some cap => event ((s.core core).evicting && s.quiet cap.inst core) (fun s => s.writeImage cap core) s

/-! The spill area (R223, R224) -/

/-- Change the image of a parked role. -/
def State.mapParked (s : State) (cap : Capsule) (role : Nat) (f : Parked → Parked) : State :=
  s.setCapsule { cap with parked := cap.parked.map fun p => if p.role = role then f p else p }

/-- The saved queue's ticket for a packet is used up. -/
def Parked.dropTicket (q : Parked) (id : Nat) : Parked :=
  { q with saved := { q.saved with tickets := q.saved.tickets.filter fun t => t.pkt != id } }

/-- Write a packet to the next entry of a parked role's spill area, or hold it at its sender when all 256 are in use. The ticket that a
granted packet held is used up either way. -/
def State.divert (s : State) (cap : Capsule) (q : Parked) (p : Packet) : State :=
  if q.spills.length < 256 then
    let e := q.spills.length
    let s1 := { s with freeCount := s.freeCount + 1 }.devWrite openBearer (cap.slotAddr q.role + spillOff + 256 * e)
      (spillBytes cap q.counter e (p.bytes s.freeCount))
    ((s1.mapParked cap q.role fun r => { r.dropTicket p.id with spills := r.spills ++ [p.id] }).setPacket
      { p with state := .queued }).accepted p
  else (s.mapParked cap q.role fun r => r.dropTicket p.id).setPacket { p with state := .parkedWait, spillHeld := true }

/-- A packet reaches a parked core: as it arrives, or as its sender, granted its ticket before the core was parked, resends it. -/
def execParkedPacketDivert (pkt : Nat) (s : State) : Host.Outcome State Fault Refusal :=
  match s.packet? pkt with
  | none => .next s
  | some p =>
    match s.capsule? p.inst with
    | none => .next s
    | some cap => match cap.parked.find? fun q => q.role == p.role with
      | none => .next s
      | some q =>
        match p.state, s.grantFor? pkt with
        | .granted, some g => event (!s.senderParked p) (fun s => (s.dropPacket g.id).divert cap q p) s
        | _, _ => event (p.state == .moving && !s.packetOvertakes p) (fun s => s.divert cap q p) s

/-! Restore (R225, R226, R450, R451, R456) -/

/-- Every check of steps 1 and 2 of R225 passes on the bytes that the slot holds. -/
def State.imageGood (s : State) (cap : Capsule) (q : Parked) : Bool :=
  let at_ := cap.slotAddr q.role
  let img := (s.devRead openBearer at_ spillOff).1
  let key := imageKey cap.hdr.owner cap.inst (fieldAt img 8 8)
  let spill := fun (e : Nat) =>
    let b := (s.devRead openBearer (at_ + spillOff + 256 * e) 256).1
    (b.drop 192).take 32 == kmac256 (key.drop 32) (b.take 192 ++ leBytes 4 e) 32
  s.devReadable openBearer at_ parkSlot && (match s.bay? cap.inst with
    | some b => b.digest == bayDigest b.records && fieldAt img 4 2 == q.role &&
      b.records.contains ⟨q.role, fieldAt img 8 8, img.drop tagOff⟩
    | none => false) &&
    img.drop tagOff == kmac256 (key.drop 32) (img.take tagOff) 32 &&
    (List.range q.spills.length).all spill

/-- Consecutive refusals of a role's slot so far. -/
def State.refusalsOf (s : State) (inst role : Nat) : Nat :=
  match s.plaza.refusals.find? fun r => r.1 == inst && r.2.1 == role with
  | some r => r.2.2
  | none => 0

/-- The refusals of a role's slot set to a count. -/
def State.setRefusals (s : State) (inst role n : Nat) : State :=
  let rest := s.plaza.refusals.filter fun r => !(r.1 == inst && r.2.1 == role)
  { s with plaza := { s.plaza with refusals := if n = 0 then rest else rest ++ [(inst, role, n)] } }

/-- The record of a slot refused 16 times, R451. -/
def State.lostRecord (s : State) (cap : Capsule) (role : Nat) : State :=
  let c := (cap.coreOf? 0 role).getD 0
  s.sendFault cap.inst c
    { info := ⟨10, 4, 0, 0, false⟩, member := 0, disp := 2, role := role, slot := 0xFF, layer := layerOf c, pc := 0,
      insn := List.replicate 16 0, cyc := s.cycOf c, frame := none, handler := false }

/-- Change the capsule of an instance. -/
def State.mapCapsule (s : State) (inst : Nat) (f : Capsule → Capsule) : State :=
  match s.capsule? inst with
  | some c => s.setCapsule (f c)
  | none => s

/-- A restore is refused; the 16th refusal in a row ends the capsule, R451. -/
def State.refuseRestore (s : State) (cap : Capsule) (role : Nat) : State :=
  let n := s.refusalsOf cap.inst role + 1
  let s1 := (s.refuseSeal unitLysgeza (cap.slotAddr role)).setRefusals cap.inst role n
  if n < 16 then s1
  else
    let s2 := s1.lostRecord cap role
    if cap.ending then
      let s3 := s2.mapCapsule cap.inst Capsule.drainFault
      match s3.capsule? cap.inst with
      | some c => if c.stage = .completing then s3.cancelLost c (decide (2 ≤ c.status)) else s3
      | none => s3
    else s2.endCapsule cap.inst 3

/-- Two core numbers exchanged. -/
def swapCore (a b c : Nat) : Nat := if c = a then b else if c = b then a else c

/-- The core numbers that a core's own state names. -/
def Core.swapCores (k : Core) (a b : Nat) : Core :=
  let slot := fun (sl : Slot) => { sl with depart := sl.depart.map fun d => if d.isGo then { d with dest := swapCore a b d.dest } else d }
  { k with
    slots := k.slots.map slot
    qm := k.qm.map fun e => { e with src := swapCore a b e.src } }

/-- THE BINDING TABLE IS REWRITTEN, R225: the role at core `a` is at core `b` from now on, and everything of the capsule that
names the one core names the other. -/
def State.rebind (s : State) (cap : Capsule) (a b : Nat) : State :=
  let sw := swapCore a b
  let inst := cap.inst
  let cap' :=
    { cap with
      groups := cap.groups.map fun g => { g with cores := g.cores.map sw }
      parked := cap.parked.map fun p => { p with saved := p.saved.swapCores a b } }
  { s.setCapsule cap' with
    cores := s.cores.map fun e => if e.2.inst = some inst then (e.1, e.2.swapCores a b) else e
    accesses := s.accesses.map fun x => if x.inst = inst then { x with core := sw x.core } else x
    results := s.results.map fun r => if r.inst = inst then { r with core := sw r.core } else r
    fences := s.fences.map fun f => if f.inst = inst then { f with core := sw f.core } else f
    packets := s.packets.map fun p => if p.inst = inst then { p with src := sw p.src, dest := sw p.dest } else p
    capMoves := s.capMoves.map fun m => if m.inst = inst then { m with fromCore := sw m.fromCore, toCore := sw m.toCore } else m
    plaza := { s.plaza with posts := s.plaza.posts.map fun p => if p.inst = inst then { p with core := sw p.core } else p } }

/-- A time stamp of one layer's CYC carried over to another layer's: the cycles elapsed are kept (R455). -/
def State.carryCyc (s : State) (a b t : Nat) : Nat := (s.cycOf b + 2 ^ 64 - (s.cycOf a + 2 ^ 64 - t) % 2 ^ 64) % 2 ^ 64

/-- The core as loaded: its caches hold nothing (R143, R150), and outside promenade mode its instruction store neither. -/
def State.loadedCore (s : State) (cap : Capsule) (q : Parked) (a b : Nat) : Core :=
  let slot := fun (sl : Slot) => { sl with bar := sl.bar.map fun w => { w with began := s.carryCyc a b w.began } }
  { q.saved with
    slots := q.saved.slots.map slot
    istore := if cap.hdr.prom then q.saved.istore else []
    acquired := s.serial + 1 }

/-- A scratchpad cleared of all it holds, its residency tags and its errors included: every line is about to be written whole. -/
def State.clearScratch (s : State) (c : Nat) : State :=
  let lo := scratchAddr s.pkgId c 0
  let inside := fun (a : Nat) => decide (lo ≤ a ∧ a < lo + 2 ^ 17)
  { s with
    mem := clearRange s.mem lo (lo + 2 ^ 17)
    full := s.full.filter fun e => !inside (8 * e.1)
    sguard := s.sguard.filter fun e => !inside (64 * e.1)
    stag := s.stag.filter fun e => !inside (64 * e.1)
    bad := s.bad.filter fun e => !inside (64 * e.1) }

/-- The scratchpad as the image holds it, under the image's own instance number (R160). -/
def State.loadScratch (s : State) (cap : Capsule) (q : Parked) (b : Nat) : State :=
  let lo := scratchAddr s.pkgId b 0
  let s1 := s.clearScratch b
  { s1 with
    mem := writeBytes s1.mem lo q.scratch
    stag := (List.range (q.scratch.length / 64)).foldl (fun m l => SMap.put m (lo / 64 + l) cap.inst) s1.stag
    full := q.fullWords.foldl (fun m w => SMap.put m (lo / 8 + w) true) s1.full
    sguard := q.guardLines.foldl (fun m l => SMap.put m (lo / 64 + l) true) s1.sguard }

/-- A spilled packet is delivered: tasks and messages wait behind the overflow lane, a fault packet is handled and a resume packet
served in spill order (R225, R401, R404). A combining message or a grant arrives. -/
def State.deliverSpill (s : State) (inst b : Nat) (id : Nat) : State :=
  match s.packet? id, s.capsule? inst with
  | some p, some cap =>
    match p.body with
    | .task _ _ _ | .message _ _ _ | .faultMessage _ _ _ => s.setCore b { s.core b with lane := (s.core b).lane ++ [.spill id] }
    | .fault r late => (s.dropPacket id).handleFault cap b r late
    | .resume words => if cap.stage = .completing then s.dropPacket id else (s.dropPacket id).resume cap b words
    | .barrier _ _ _ | .grant _ => s.setPacket { p with state := .moving }
  | _, _ => s

/-- Packets that waited at their senders for the role are sent again, and what the role's own task waits for without a ticket
counts its wait afresh (R223, R458). -/
def State.wakeSenders (s : State) (inst role b : Nat) : State :=
  let f := fun (p : Packet) =>
    if p.inst = inst ∧ p.role = role ∧ p.state = .parkedWait then { p with state := PktState.moving }
    else if p.inst = inst ∧ p.src = b then (match p.state with
      | .refused _ => { p with state := PktState.refused (s.cycOf b) }
      | _ => p)
    else p
  { s with packets := s.packets.map f }

/-- A restored core of a completing capsule takes no task, R218. -/
def State.stopRestored (s : State) (inst b : Nat) : State :=
  match s.capsule? inst with
  | some cap =>
    if cap.stage = .completing then ((s.stopCore inst b).cancelEntries cap b cap.status) else s
  | none => s

/-- STEPS 4 TO 7 of R225. -/
def State.loadImage (s : State) (cap : Capsule) (q : Parked) (b : Nat) : State :=
  let a := (cap.coreOf? 0 q.role).getD 0
  let s1 := s.rebind { cap with parked := cap.parked.filter fun p => p.role != q.role } a b
  let k := (s1.loadedCore cap q a b).swapCores a b
  let s2 := ((s1.loadScratch cap q b).setCore b k).tick
  let s3 := q.spills.foldl (fun s id => s.deliverSpill cap.inst b id) s2
  let s4 := ((s3.wakeSenders cap.inst q.role b).settle b).markFirst cap.inst b true
  let s5 := (s4.setRecords cap.inst fun l => l.filter fun r => r.role != q.role).setRefusals cap.inst q.role 0
  let s6 := s5.stopRestored cap.inst b
  ((cap.cores.map (swapCore a b)).filter fun c => (s6.core c).inst == some cap.inst).foldl (fun s c => s.pump c) s6

/-- The pair partners of a parked role leave room: one restored before is in the core's cluster or the paired one, and one still
parked would find a free core there (R221, R225). -/
def State.partnersFit (s : State) (cap : Capsule) (q : Parked) (c : Nat) : Bool :=
  let near := fun (d : Nat) => clusterOf d == clusterOf c || clusterOf d == pairOf (clusterOf c)
  q.partners.all fun r =>
    if cap.isParked r then (List.range 18432).any fun d => d != c && near d && s.isFree d && s.suits cap.hdr d
    else match cap.coreOf? 0 r with
      | some d => near d
      | none => true

/-- Other parked images, and waiting capsules of higher priority, do not claim the core first (R208, R225, R450). -/
def State.mayRestore (s : State) (cap : Capsule) : Bool :=
  !s.capsules.any fun k => decide (cap.hdr.prio < k.hdr.prio) && k.uncommitted && cap.stage == .running

/-- A restore of a parked role to a free core. -/
def execImageRestore (inst role core : Nat) (s : State) : Host.Outcome State Fault Refusal :=
  match s.capsule? inst with
  | none => .next s
  | some cap => match cap.parked.find? fun q => q.role == role with
    | none => .next s
    | some q =>
      event (s.clocked && s.isFree core && s.restorable cap role core && s.partnersFit cap q core && s.mayRestore cap && !s.lostRole cap role &&
          (cap.stage == .running || cap.stage == .completing))
        (fun s => if s.imageGood cap q then s.loadImage cap q core else s.refuseRestore cap role) s

/-! The Plaza's firmware (R447-R449) -/

/-- A firmware restart: an uncommitted placement is aborted. Three restarts within one second, which the part's own clock decides
(DESIGN CHOICE, log 6), set STATUS.ERROR and halt the Plaza. -/
def State.restart (s : State) : State :=
  let n := s.plaza.restarts + 1
  let down := decide (3 ≤ n) && Config.freeBit s.freeCount
  let s1 :=
    { s with
      capsules := s.capsules.map Capsule.abort
      freeCount := if 3 ≤ n then s.freeCount + 1 else s.freeCount
      host := { s.host with error := s.host.error || down }
      plaza := { s.plaza with restarts := n, halted := s.plaza.halted || down } }
  if down then s1.signalEvent else s1

/-- The firmware reloads and restarts. -/
def execFirmwareRestart (s : State) : Host.Outcome State Fault Refusal := event s.host.ready (fun s => s.restart) s

/-- The watchdog restarts the firmware when the walker has work, handed over or not, and the firmware takes none. -/
def execWatchdogExpire (s : State) : Host.Outcome State Fault Refusal :=
  event (s.host.ready && (s.topServe?.isSome || s.plaza.serving.isSome)) (fun s => s.restart) s

/-- A capability fault while the firmware handles a capsule whose seal is not accepted: the slot's capsule is refused. -/
def State.faultUnsealed (s : State) : State :=
  let done := fun (s : State) => { s with plaza := { s.plaza with serving := none } }
  match s.plaza.serving with
  | some (.queue q) =>
    let (a, _, s1) := s.nextSlot q
    done ((s1.consume q).refuseSeal unitPlaza a)
  | some (.child prio) => match s.nextChild? prio with
    | some p => done ((s.setPost { p with taken := true }).refuseSeal unitPlaza p.addr).prunePosts
    | none => done s
  | none => s

/-- A capability fault while the firmware handles a capsule whose seal is accepted: of one that is already ending the first ending
stands, and the record is added (R406). -/
def State.faultSealed (s : State) (cap : Capsule) : State :=
  if cap.uncommitted then s.refuseLaunch cap
  else (s.reportFault cap.inst cap.superCore 0 0 [] 2 ⟨17, 2, 0, 0, false⟩).endCapsule cap.inst 5

/-- A capability fault in the Plaza firmware, by what it was handling: 0 a capsule before its seal was accepted, 1 a capsule after
it (the subject is its instance), 2 a queue (the subject is its number), 3 its own structures. -/
def execCapabilityFault (what subject : Nat) (s : State) : Host.Outcome State Fault Refusal :=
  match what with
  | 0 => event s.host.ready (fun s => s.faultUnsealed) s
  | 1 => match s.capsule? subject with
    | some cap => event s.host.ready (fun s => s.faultSealed cap) s
    | none => .next s
  | 2 => event (s.host.ready && decide (subject < 256) && (s.queue subject).en)
      (fun s => (s.disableQueue subject).logError ⟨unitPlaza, (s.queue subject).array, 1, 1, 0⟩) s
  | 3 => event s.host.ready (fun s => s.restart) s
  | _ => .next s

end Sys2Proof.Machine
end

