-- ==== Sys2Proof/Machine/Flags.lean ====
section
/-! DEFINITION. Conditions and truth tables: the comparisons that set a predicate (R258, R259). The machine has no
arithmetic flags; guard bits are the OR of their sources (R161, R247). -/

namespace Sys2Proof.Machine

/-- The condition of CMP and CMPI: FN[2:0] and FN[3] = .n, R258. -/
def compareWords (c : Nat) (unsigned : Bool) (a b : Word) : Bool :=
  match c with
  | 0 => decide (a = b)
  | 1 => decide (a ≠ b)
  | 2 => if unsigned then a.ult b else a.slt b
  | 3 => if unsigned then a.ule b else a.sle b
  | 4 => if unsigned then b.ult a else b.slt a
  | 5 => if unsigned then b.ule a else b.sle a
  | 6 => decide (a &&& b = 0)
  | _ => decide (a &&& b ≠ 0)

/-- A condition code that .n may not stand with, R258. -/
def compareReserved (c : Nat) (unsigned : Bool) : Bool := unsigned && (decide (c ≤ 1) || decide (6 ≤ c))

/-- PSET: bit 2a + b of the truth table, R259. -/
def truthTable (tt : BitVec 4) (a b : Bool) : Bool := tt.getLsbD (2 * a.toNat + b.toNat)

end Sys2Proof.Machine
end

