-- ==== Sys2Proof/Machine/Scalar.lean ====
section
/-! DEFINITION. Scalar instructions: arithmetic, logic, shifts, bit fields, moves, comparison and selection (R246-R260),
and the no-operations (R231). -/

namespace Sys2Proof.Machine

open Sys2Proof

/-- The high half of a product, R250. -/
def mulHigh (unsigned : Bool) (a b : Word) : Word :=
  if unsigned then BitVec.ofNat 64 (a.toNat * b.toNat / 2 ^ 64) else BitVec.ofInt 64 (a.toInt * b.toInt / 2 ^ 64)

/-- Quotient and remainder of R251. -/
def divRem (unsigned : Bool) (a b : Word) : Word × Word :=
  if b = 0 then (BitVec.allOnes 64, a)
  else if unsigned then (BitVec.ofNat 64 (a.toNat / b.toNat), BitVec.ofNat 64 (a.toNat % b.toNat))
  else (BitVec.ofInt 64 (a.toInt.tdiv b.toInt), BitVec.ofInt 64 (a.toInt.tmod b.toInt))

/-- Shifts and the rotate of R252, by an unsigned amount. -/
def shiftLeft (a : Word) (n : Nat) : Word := if 64 ≤ n then 0 else a <<< n
def shiftRight (a : Word) (n : Nat) : Word := if 64 ≤ n then 0 else a >>> n
def shiftArith (a : Word) (n : Nat) : Word :=
  if 64 ≤ n then (if a.msb then BitVec.allOnes 64 else 0) else a.sshiftRight n
def rotate (a : Word) (n : Nat) : Word := a.rotateLeft (n % 64)

/-- MIN and MAX, R250. -/
def minMax (unsigned lesser : Bool) (a b : Word) : Word :=
  let le := if unsigned then a.ule b else a.sle b
  if lesser = le then a else b

/-- Zero bits above the highest 1 bit, R250. -/
def leadingZeros (a : Word) : Nat := if a = 0 then 64 else 63 - Nat.log2 a.toNat

/-- Zero bits below the lowest 1 bit. -/
def trailingZeros (a : Word) : Nat := ((List.range 64).find? fun i => a.getLsbD i).getD 64

/-- The number of 1 bits. -/
def popCount (a : Word) : Nat := ((List.range 64).filter fun i => a.getLsbD i).length

/-- pos and len of a bit-field immediate, R253. -/
def fieldPos (imm : Nat) : Nat := imm % 64
def fieldLen (imm : Nat) : Nat := imm / 64 % 128 + 1

/-- The field of R253; bits above bit 63 read as 0 (DEDUCED, log 18). -/
def fieldOf (a : Word) (imm : Nat) : Nat := a.toNat / 2 ^ fieldPos imm % 2 ^ fieldLen imm

/-- A field of `len` bits sign-extended. -/
def signField (len f : Nat) : Word := BitVec.ofInt 64 (toSigned len f)

/-- BFI: the field of `a` inserted into `d`; bits above bit 63 are discarded. -/
def insertField (d a : Word) (imm : Nat) : Word :=
  let mask := BitVec.ofNat 64 ((2 ^ fieldLen imm - 1) * 2 ^ fieldPos imm)
  (d &&& ~~~ mask) ||| (BitVec.ofNat 64 (a.toNat * 2 ^ fieldPos imm) &&& mask)

/-- A two-source instruction: G[D] takes a value with the OR of the sources' guard bits (R247). -/
def alu2 (x : Cur) (s : State) (f : FmtA) (v : Word) : Verdict :=
  checked [readMarked x [f.a.toNat, f.b.toNat], writeMarked x [f.d.toNat]]
    (.next (x.setReg s f.d.toNat v (x.guard f.a || x.guard f.b)))

/-- A one-source instruction. -/
def alu1 (x : Cur) (s : State) (f : FmtA) (v : Word) : Verdict :=
  checked [readMarked x [f.a.toNat], writeMarked x [f.d.toNat]] (.next (x.setReg s f.d.toNat v (x.guard f.a)))

/-- An instruction with an immediate. -/
def aluI (x : Cur) (s : State) (f : FmtI) (v : Word) : Verdict :=
  checked [readMarked x [f.a.toNat], writeMarked x [f.d.toNat]] (.next (x.setReg s f.d.toNat v (x.guard f.a)))

/-- A two-source instruction of class V: the destination is pending until written (R82). -/
def aluV (x : Cur) (s : State) (f : FmtA) (v : Word) : Verdict :=
  checked [readMarked x [f.a.toNat, f.b.toNat], writeMarked x [f.d.toNat]]
    (.next (s.pendValue x f.d.toNat v (x.guard f.a || x.guard f.b)))

/-- The 64-bit no-operation: only a switch point, R231. -/
def execNop64 (h : Head) (_f : FmtN) : State → Host.Outcome State Fault Refusal := issue h 8 fun _ s => .next s

/-- The 96-bit no-operation, R231. -/
def execNop96 (h : Head) (_f : FmtN) : State → Host.Outcome State Fault Refusal := issue h 12 fun _ s => .next s

/-- The 128-bit no-operation, R231. -/
def execNop128 (h : Head) (_f : FmtN) : State → Host.Outcome State Fault Refusal := issue h 16 fun _ s => .next s

/-- Integer add, R250. -/
def execAdd (h : Head) (f : FmtA) : State → Host.Outcome State Fault Refusal :=
  issue h 8 fun x s => alu2 x s f (x.reg f.a + x.reg f.b)

/-- Integer add of an immediate, R250. -/
def execAddi (h : Head) (f : FmtI) : State → Host.Outcome State Fault Refusal :=
  issue h 8 fun x s => aluI x s f (x.reg f.a + f.value)

/-- Integer subtract, R250. -/
def execSub (h : Head) (f : FmtA) : State → Host.Outcome State Fault Refusal :=
  issue h 8 fun x s => alu2 x s f (x.reg f.a - x.reg f.b)

/-- Integer negate, R250. -/
def execNeg (h : Head) (f : FmtA) : State → Host.Outcome State Fault Refusal :=
  issue h 8 fun x s => alu1 x s f (-x.reg f.a)

/-- Low 64 bits of the product, R250. -/
def execMul (h : Head) (f : FmtA) : State → Host.Outcome State Fault Refusal :=
  issue h 8 fun x s => alu2 x s f (x.reg f.a * x.reg f.b)

/-- Low 64 bits of the product with an immediate, R250. -/
def execMuli (h : Head) (f : FmtI) : State → Host.Outcome State Fault Refusal :=
  issue h 8 fun x s => aluI x s f (x.reg f.a * f.value)

/-- High 64 bits of the signed, or with .n the unsigned, product, R250. -/
def execMulh (h : Head) (f : FmtA) : State → Host.Outcome State Fault Refusal :=
  issue h 8 fun x s => alu2 x s f (mulHigh (f.fn.getLsbD 0) (x.reg f.a) (x.reg f.b))

/-- Signed or unsigned quotient; the destination is pending until written, R251. -/
def execDiv (h : Head) (f : FmtA) : State → Host.Outcome State Fault Refusal :=
  issue h 8 fun x s => aluV x s f (divRem (f.fn.getLsbD 0) (x.reg f.a) (x.reg f.b)).1

/-- Signed or unsigned remainder; the destination is pending until written, R251. -/
def execRem (h : Head) (f : FmtA) : State → Host.Outcome State Fault Refusal :=
  issue h 8 fun x s => aluV x s f (divRem (f.fn.getLsbD 0) (x.reg f.a) (x.reg f.b)).2

/-- Bitwise and, R250. -/
def execAnd (h : Head) (f : FmtA) : State → Host.Outcome State Fault Refusal :=
  issue h 8 fun x s => alu2 x s f (x.reg f.a &&& x.reg f.b)

/-- Bitwise and with an immediate, R250. -/
def execAndi (h : Head) (f : FmtI) : State → Host.Outcome State Fault Refusal :=
  issue h 8 fun x s => aluI x s f (x.reg f.a &&& f.value)

/-- Bitwise or, R250. -/
def execOr (h : Head) (f : FmtA) : State → Host.Outcome State Fault Refusal :=
  issue h 8 fun x s => alu2 x s f (x.reg f.a ||| x.reg f.b)

/-- Bitwise or with an immediate, R250. -/
def execOri (h : Head) (f : FmtI) : State → Host.Outcome State Fault Refusal :=
  issue h 8 fun x s => aluI x s f (x.reg f.a ||| f.value)

/-- Bitwise exclusive or, R250. -/
def execXor (h : Head) (f : FmtA) : State → Host.Outcome State Fault Refusal :=
  issue h 8 fun x s => alu2 x s f (x.reg f.a ^^^ x.reg f.b)

/-- Bitwise exclusive or with an immediate, R250. -/
def execXori (h : Head) (f : FmtI) : State → Host.Outcome State Fault Refusal :=
  issue h 8 fun x s => aluI x s f (x.reg f.a ^^^ f.value)

/-- G[A] AND NOT G[B], R250. -/
def execAndn (h : Head) (f : FmtA) : State → Host.Outcome State Fault Refusal :=
  issue h 8 fun x s => alu2 x s f (x.reg f.a &&& ~~~ x.reg f.b)

/-- Bitwise not, R250. -/
def execNot (h : Head) (f : FmtA) : State → Host.Outcome State Fault Refusal :=
  issue h 8 fun x s => alu1 x s f (~~~ x.reg f.a)

/-- Shift left by a register, R252. -/
def execShl (h : Head) (f : FmtA) : State → Host.Outcome State Fault Refusal :=
  issue h 8 fun x s => alu2 x s f (shiftLeft (x.reg f.a) (x.reg f.b).toNat)

/-- Shift left by IMM[5:0], R252. -/
def execShli (h : Head) (f : FmtI) : State → Host.Outcome State Fault Refusal :=
  issue h 8 fun x s => aluI x s f (shiftLeft (x.reg f.a) (f.imm.toNat % 64))

/-- Logical shift right by a register, R252. -/
def execShr (h : Head) (f : FmtA) : State → Host.Outcome State Fault Refusal :=
  issue h 8 fun x s => alu2 x s f (shiftRight (x.reg f.a) (x.reg f.b).toNat)

/-- Logical shift right by IMM[5:0], R252. -/
def execShri (h : Head) (f : FmtI) : State → Host.Outcome State Fault Refusal :=
  issue h 8 fun x s => aluI x s f (shiftRight (x.reg f.a) (f.imm.toNat % 64))

/-- Arithmetic shift right by a register, R252. -/
def execSar (h : Head) (f : FmtA) : State → Host.Outcome State Fault Refusal :=
  issue h 8 fun x s => alu2 x s f (shiftArith (x.reg f.a) (x.reg f.b).toNat)

/-- Arithmetic shift right by IMM[5:0], R252. -/
def execSari (h : Head) (f : FmtI) : State → Host.Outcome State Fault Refusal :=
  issue h 8 fun x s => aluI x s f (shiftArith (x.reg f.a) (f.imm.toNat % 64))

/-- Rotate left by a register, R252. -/
def execRol (h : Head) (f : FmtA) : State → Host.Outcome State Fault Refusal :=
  issue h 8 fun x s => alu2 x s f (rotate (x.reg f.a) (x.reg f.b).toNat)

/-- Rotate left by IMM[5:0], R252. -/
def execRoli (h : Head) (f : FmtI) : State → Host.Outcome State Fault Refusal :=
  issue h 8 fun x s => aluI x s f (rotate (x.reg f.a) (f.imm.toNat % 64))

/-- Signed, or with .n unsigned, minimum, R250. -/
def execMin (h : Head) (f : FmtA) : State → Host.Outcome State Fault Refusal :=
  issue h 8 fun x s => alu2 x s f (minMax (f.fn.getLsbD 0) true (x.reg f.a) (x.reg f.b))

/-- Signed, or with .n unsigned, maximum, R250. -/
def execMax (h : Head) (f : FmtA) : State → Host.Outcome State Fault Refusal :=
  issue h 8 fun x s => alu2 x s f (minMax (f.fn.getLsbD 0) false (x.reg f.a) (x.reg f.b))

/-- Absolute value, R250. -/
def execAbs (h : Head) (f : FmtA) : State → Host.Outcome State Fault Refusal :=
  issue h 8 fun x s => alu1 x s f (if (x.reg f.a).msb then -x.reg f.a else x.reg f.a)

/-- Count of leading zero bits, R250. -/
def execClz (h : Head) (f : FmtA) : State → Host.Outcome State Fault Refusal :=
  issue h 8 fun x s => alu1 x s f (BitVec.ofNat 64 (leadingZeros (x.reg f.a)))

/-- Count of trailing zero bits, R250. -/
def execCtz (h : Head) (f : FmtA) : State → Host.Outcome State Fault Refusal :=
  issue h 8 fun x s => alu1 x s f (BitVec.ofNat 64 (trailingZeros (x.reg f.a)))

/-- Count of one bits, R250. -/
def execPopc (h : Head) (f : FmtA) : State → Host.Outcome State Fault Refusal :=
  issue h 8 fun x s => alu1 x s f (BitVec.ofNat 64 (popCount (x.reg f.a)))

/-- Bit order reversed, R250. -/
def execBrev (h : Head) (f : FmtA) : State → Host.Outcome State Fault Refusal :=
  issue h 8 fun x s => alu1 x s f ((x.reg f.a).reverse)

/-- Byte order reversed, R250. -/
def execBswp (h : Head) (f : FmtA) : State → Host.Outcome State Fault Refusal :=
  issue h 8 fun x s => alu1 x s f (BitVec.ofNat 64 (leNat (leBytes 8 (x.reg f.a).toNat).reverse))

/-- Bit field extracted, zero-extended, R253. -/
def execBfx (h : Head) (f : FmtI) : State → Host.Outcome State Fault Refusal :=
  issue h 8 fun x s => aluI x s f (BitVec.ofNat 64 (fieldOf (x.reg f.a) f.imm.toNat))

/-- Bit field extracted, sign-extended, R253. -/
def execBfxs (h : Head) (f : FmtI) : State → Host.Outcome State Fault Refusal :=
  issue h 8 fun x s => aluI x s f (signField (fieldLen f.imm.toNat) (fieldOf (x.reg f.a) f.imm.toNat))

/-- Bit field inserted into G[D], which is a source too, R253. -/
def execBfi (h : Head) (f : FmtI) : State → Host.Outcome State Fault Refusal :=
  issue h 8 fun x s =>
    checked [readMarked x [f.a.toNat, f.d.toNat], writeMarked x [f.d.toNat]]
      (.next (x.setReg s f.d.toNat (insertField (x.reg f.d) (x.reg f.a) f.imm.toNat) (x.guard f.d || x.guard f.a)))

/-- Sign extension from width w, R253. -/
def execSext (h : Head) (f : FmtI) : State → Host.Outcome State Fault Refusal :=
  issue h 8 fun x s => aluI x s f (signField (f.imm.toNat % 64 + 1) ((x.reg f.a).toNat % 2 ^ (f.imm.toNat % 64 + 1)))

/-- Sign-extended 30-bit immediate; the guard bit is cleared, R254. -/
def execLi (h : Head) (f : FmtI) : State → Host.Outcome State Fault Refusal :=
  issue h 8 fun x s => checked [writeMarked x [f.d.toNat]] (.next (x.setReg s f.d.toNat f.value false))

/-- 64-bit immediate; the guard bit is cleared, R254. -/
def execLiw (h : Head) (f : FmtL) : State → Host.Outcome State Fault Refusal :=
  issue h 12 fun x s => checked [writeMarked x [f.d.toNat]] (.next (x.setReg s f.d.toNat f.imm false))

/-- Address computation without an access; its operands are data sources, R255, R247. -/
def execLea (h : Head) (f : FmtM) : State → Host.Outcome State Fault Refusal :=
  issue h 8 fun x s =>
    let v := if f.x = 1 then x.reg f.a + (x.reg f.b <<< f.sz.toNat) else x.reg f.a + f.offset
    let g := if f.x = 1 then x.guard f.a || x.guard f.b else x.guard f.a
    checked [readMarked x f.addrRegs, writeMarked x [f.d.toNat], failIf (f.x = 0 ∧ f.sz ≠ 0) 4 6 f.sz.toNat]
      (.next (x.setReg s f.d.toNat v g))

/-- The registers of the source group copied with their guard bits, in ascending order, R256. -/
def movGroup (t : Task) (d a : Nat) : Nat → Task
  | 0 => t
  | n + 1 => (movGroup t d a n).setReg (d + n) (t.reg (a + n)) (t.regGuard (a + n))

/-- Register or aligned group copied with its guard bits, R256. -/
def execMov (h : Head) (f : FmtA) : State → Host.Outcome State Fault Refusal :=
  issue h 8 fun x s =>
    let d := f.d.toNat
    let a := f.a.toNat
    checked [misaligned d f.dw.toNat, misaligned a f.aw.toNat,
        failIf (f.dw ≠ f.aw) 4 3 (f.dw.toNat + 4 * f.aw.toNat),
        readMarked x (groupOf a f.aw.toNat), writeMarked x (groupOf d f.dw.toNat)]
      (.next (s.setTask x.c x.n (movGroup x.t d a (2 ^ f.dw.toNat))))

/-- Selection by a predicate; the guard bit of the source not chosen does not reach the result, R260. -/
def execSel (h : Head) (f : FmtA) : State → Host.Outcome State Fault Refusal :=
  issue h 8 fun x s =>
    let p := f.p.toNat
    let r := if x.t.pred p then f.a else f.b
    checked [readMarked x [f.a.toNat, f.b.toNat], writeMarked x [f.d.toNat]]
      (.next (x.setReg s f.d.toNat (x.reg r) (x.guard r || x.t.predGuard p)))

/-- Comparison of two registers into a predicate, R258. -/
def execCmp (h : Head) (f : FmtA) : State → Host.Outcome State Fault Refusal :=
  issue h 8 fun x s =>
    let c := f.fn.toNat % 8
    let n := f.fn.getLsbD 3
    checked [readMarked x [f.a.toNat, f.b.toNat], failIf (compareReserved c n) 4 6 f.fn.toNat]
      (.next (s.setTask x.c x.n (x.t.setPred f.p.toNat (compareWords c n (x.reg f.a) (x.reg f.b))
        (x.guard f.a || x.guard f.b))))

/-- Comparison of a register with an immediate into a predicate, R258. -/
def execCmpi (h : Head) (f : FmtI) : State → Host.Outcome State Fault Refusal :=
  issue h 8 fun x s =>
    let c := f.fn.toNat % 8
    let n := f.fn.getLsbD 3
    checked [readMarked x [f.a.toNat], failIf (compareReserved c n) 4 6 f.fn.toNat]
      (.next (s.setTask x.c x.n (x.t.setPred f.p.toNat (compareWords c n (x.reg f.a) f.value) (x.guard f.a))))

/-- A predicate from two predicates through a truth table, R259. -/
def execPset (h : Head) (f : FmtP) : State → Host.Outcome State Fault Refusal :=
  issue h 8 fun x s =>
    let a := f.pa.toNat
    let b := f.pb.toNat
    .next (s.setTask x.c x.n (x.t.setPred f.pd.toNat (truthTable f.tt (x.t.pred a) (x.t.pred b))
      (x.t.predGuard a || x.t.predGuard b)))

/-- Lane mask written from a general register, R257. -/
def execLmw (h : Head) (f : FmtA) : State → Host.Outcome State Fault Refusal :=
  issue h 8 fun x s =>
    checked [readMarked x [f.a.toNat], failIf (f.d.toNat ≥ 8) 4 6 f.d.toNat]
      (.next (s.setTask x.c x.n (x.t.setMask f.d.toNat ((x.reg f.a).truncate 16) (x.guard f.a))))

/-- Lane mask read into a general register, zero-extended, R257. -/
def execLmr (h : Head) (f : FmtA) : State → Host.Outcome State Fault Refusal :=
  issue h 8 fun x s =>
    checked [writeMarked x [f.d.toNat], failIf (f.a.toNat ≥ 8) 4 6 f.a.toNat]
      (.next (x.setReg s f.d.toNat ((x.t.mask f.a.toNat).zeroExtend 64) (x.t.maskGuard f.a.toNat)))

end Sys2Proof.Machine
end

