-- ==== Sys2Proof/Machine/VecMem.lean ====
section
/-! DEFINITION. Vector loads and stores, whole, strided and indexed (R292-R295). -/

namespace Sys2Proof.Machine

open Sys2Proof

/-- One access of a vector load or store: the element or register number, its address, its offset within the group and its
bytes, of which those under the mask are active (R293). -/
structure VPart where
  index : Nat
  ea : Nat
  offset : Nat
  size : Nat
  mask : BitVec 64
  deriving DecidableEq, Repr

/-- A part with at least one active byte. -/
def VPart.active (p : VPart) : Bool := p.mask != 0

/-- Active bytes of a register under a lane mask, R289. -/
def laneBytes (mask : BitVec 16) : BitVec 64 :=
  BitVec.ofNat 64 (packBits ((List.range 64).map fun b => mask.getLsbD (b / 4)))

/-- The parts of VLD and VST: register j at ea + 64 j (R293) (DEDUCED, log 50). -/
def wholeParts (ea : Word) (w : Nat) (mask : BitVec 16) : List VPart :=
  ((List.range (2 ^ w)).map fun j =>
    (⟨j, (ea + BitVec.ofNat 64 (64 * j)).toNat, 64 * j, 64, laneBytes mask⟩ : VPart)).filter VPart.active

/-- The parts of the element forms: the active elements in ascending order, each at its own address (R293). -/
def elementParts (w bytes : Nat) (mask : BitVec 16) (addr : Nat → Word) : List VPart :=
  ((List.range (64 * 2 ^ w / bytes)).filter (laneActive mask (8 * bytes))).map fun i =>
    ⟨i, (addr i).toNat, i * bytes, bytes, BitVec.ofNat 64 (2 ^ bytes - 1)⟩

/-- Address of element i of VLDS and VSTS. -/
def stridedAddr (ea stride : Word) (i : Nat) : Word := ea + BitVec.ofNat 64 i * stride

/-- Address of element i of VGATH and VSCAT: lane i of the index register, scaled. -/
def indexedAddr (ea : Word) (lanes : List Nat) (scale i : Nat) : Word :=
  ea + BitVec.ofInt 64 (toSigned 32 (lanes.getD i 0) * 2 ^ scale)

/-- The element that fails is in AUX[63:56] (R426); the 512 byte elements of an octet group have an index of 9 bits, of which the field
keeps the low 8 (DESIGN CHOICE, log 106). AUX of a class 16 fault is the level code. -/
def VPart.blame (p : VPart) (f : FaultInfo) : FaultInfo :=
  if f.cls = 16 then f else { f with aux := f.aux % 2 ^ 56 + p.index % 256 * 2 ^ 56 }

/-- The targets of the parts, or the fault of the first part that fails, in ascending order, each with its checks of classes 6 to 9;
`guard` is the guard bit of the unit that a part is stored to (R293, R420, R426). -/
def State.vecTargets (s : State) (x : Cur) (use : Use) (guard : VPart → Bool) : List VPart → Except FaultInfo (List (VPart × Target))
  | [] => .ok []
  | p :: ps =>
    match s.checkAccess x.cap x.c x.t.member p.ea p.size use false (guard p) with
    | .error f => .error (p.blame f)
    | .ok t =>
      match s.vecTargets x use guard ps with
      | .error f => .error f
      | .ok l => .ok ((p, t) :: l)

/-- The guard bit that a vector store carries to the unit of a part: the OR over the source granules with an active element
for the unit, each taken whole (R295). -/
def unitGuard (k : Core) (d : VOpd) (ps : List VPart) (p : VPart) : Bool :=
  ps.any fun q => decide (q.ea / 64 = p.ea / 64) && k.granGuard (granulesOf (k.vOff d.1 + q.offset) q.size)

/-- Class 8: the first unit in ascending address whose guard is not permitted (R295, R460). -/
def State.vecGuard (s : State) (x : Cur) (guard : VPart → Bool) (ps : List VPart) : Option FaultInfo :=
  (ps.mergeSort fun a b => a.ea ≤ b.ea).findSome? fun p =>
    match s.checkAccess x.cap x.c x.t.member p.ea p.size .store false (guard p) with
    | .error f => if f.cls = 8 then some (p.blame f) else none
    | .ok _ => none

/-- The fault of a vector store: that of the first element that fails; where that is of class 8, of the first unit in ascending
address that fails so (R295, R420, R426) (DEDUCED, log 51). -/
def State.vecStoreFault (s : State) (x : Cur) (guard : VPart → Bool) (ps : List VPart) (f : FaultInfo) : FaultInfo :=
  if f.cls = 8 then (s.vecGuard x guard ps).getD f else f

/-- The runs of a whole vector load or store: the bytes that it reads, or those of the active elements that it writes (R170, R293,
R294). -/
def spanOf (ps : List VPart) : List Run := ps.map fun p => (p.ea, p.size)
def storeSpan (ps : List VPart) : List Run := ps.flatMap fun p => (maskRuns p.mask p.size).map fun r => (p.ea + r.1, r.2)

/-- A vector load: the destination granules are pending, one access for each part (R118, R293-R295). -/
def vectorLoad (x : Cur) (s : State) (d : VOpd) (ps : List VPart) : Verdict :=
  match s.vecTargets x .load (fun _ => false) ps with
  | .error f => s.accessFault x f
  | .ok l =>
    if l.isEmpty then .next s
    else
      let base := x.k.vOff d.1
      let grans := x.k.vGrans d
      let r := x.result s (.space (ps.map fun p => (base + p.offset, p.mask))) l.length grans
      let s1 := s.addResult r
      let s2 := s1.setCore x.c ((s1.core x.c).pendGranules grans x.n s.serial false false)
      let s3 := (l.zipIdx).foldl (fun (s' : State) q =>
        let a := x.access s' .load .r q.1.1.ea q.1.2 q.1.1.size [] false (some (s.serial, q.2))
        (s'.lookHit x q.1.2 q.1.1.ea).addAccess { a with span := spanOf ps }) s2
      .next (s3.pump x.c)

/-- A vector store: one access for each part, of the active bytes (R293-R295). -/
def vectorStore (x : Cur) (s : State) (d : VOpd) (ps : List VPart) : Verdict :=
  match s.vecTargets x .store (unitGuard x.k d ps) ps with
  | .error f => s.accessFault x (s.vecStoreFault x (unitGuard x.k d ps) ps f)
  | .ok l =>
    if l.isEmpty then .next s
    else
      let data := x.k.vBytes d
      let s1 := l.foldl (fun (s' : State) q =>
        let (p, t) := q
        let a := x.access s' .store .w p.ea t p.size ((data.drop p.offset).take p.size) (unitGuard x.k d ps p) none
        (s'.lookHit x t p.ea).addAccess { a with mask := p.mask, span := storeSpan ps }) s
      .next (s1.pump x.c)

end Sys2Proof.Machine

namespace Sys2Proof

open Sys2Proof.Machine

/-- The register group of format VM, its offset and its address (R292). -/
def FmtVM.group (f : FmtVM) : VOpd := (f.vd.toNat, f.vdw.toNat)
def FmtVM.offset (f : FmtVM) : Word := f.off.signExtend 64
def FmtVM.ea (f : FmtVM) (x : Cur) : Word := if f.x = 1 then x.reg f.a + x.reg f.b else x.reg f.a + f.offset
def FmtVM.addrRegs (f : FmtVM) : List Nat := if f.x = 1 then [f.a.toNat, f.b.toNat] else [f.a.toNat]

end Sys2Proof

namespace Sys2Proof.Machine

open Sys2Proof

/-- 4/6 of the element forms: X, and VDW of the indexed ones (R292). -/
def elementForm (f : FmtVM) (indexed : Bool) : List (Option FaultInfo) :=
  [failIf (f.x = 1) 4 6 1, failIf (indexed && f.vdw != 0) 4 6 f.vdw.toNat]

/-- The bytes of an element of a type code 0 to 8. -/
def typeBytes (t : BitVec 4) : Nat := typeBits [] t.toNat / 8

/-- Load of whole registers. -/
def execVld (h : Head) (f : FmtVM) : State → Host.Outcome State Fault Refusal :=
  issue h 12 fun x s =>
    let d := f.group
    vecIssue x s [] [d] (vecOperands x [d] [] [d] false f.addrRegs [])
      (vectorLoad x s d (wholeParts (f.ea x) d.2 (x.t.mask f.lm.toNat)))

/-- Store of the active lanes of registers. -/
def execVst (h : Head) (f : FmtVM) : State → Host.Outcome State Fault Refusal :=
  issue h 12 fun x s =>
    let d := f.group
    vecIssue x s [d] [] (vecOperands x [d] [d] [] false f.addrRegs [])
      (vectorStore x s d (wholeParts (f.ea x) d.2 (x.t.mask f.lm.toNat)))

/-- The parts of VLDS and VSTS. -/
def stridedParts (f : FmtVM) (x : Cur) : List VPart :=
  elementParts f.vdw.toNat (typeBytes f.t) (x.t.mask f.lm.toNat) (stridedAddr (x.reg f.a + f.offset) (x.reg f.b))

/-- The parts of VGATH and VSCAT. -/
def indexedParts (f : FmtVM) (x : Cur) : List VPart :=
  elementParts 0 4 (x.t.mask f.lm.toNat)
    (indexedAddr (x.reg f.a + f.offset) (x.k.elems (f.vi.toNat, 0) 32) (bits f.fn.toNat 0 2))

/-- Strided load of elements. -/
def execVlds (h : Head) (f : FmtVM) : State → Host.Outcome State Fault Refusal :=
  issue h 12 fun x s =>
    let d := f.group
    vecIssue x s [] [d]
      (vecOperands x [d] [] [d] false [f.a.toNat, f.b.toNat] [] ++ elementForm f false ++
        [typeFault (decide (f.t.toNat ≤ 8)) f.t.toNat])
      (vectorLoad x s d (stridedParts f x))

/-- Strided store of elements. -/
def execVsts (h : Head) (f : FmtVM) : State → Host.Outcome State Fault Refusal :=
  issue h 12 fun x s =>
    let d := f.group
    vecIssue x s [d] []
      (vecOperands x [d] [d] [] false [f.a.toNat, f.b.toNat] [] ++ elementForm f false ++
        [typeFault (decide (f.t.toNat ≤ 8)) f.t.toNat])
      (vectorStore x s d (stridedParts f x))

/-- The types of the indexed forms: f32, i32 and n32. -/
def indexedType (t : BitVec 4) : Option FaultInfo := typeFault (t == 0 || t == 3 || t == 6) t.toNat

/-- Indexed gather of 32-bit elements. -/
def execVgath (h : Head) (f : FmtVM) : State → Host.Outcome State Fault Refusal :=
  issue h 12 fun x s =>
    let d := (⟨f.vd.toNat, 0⟩ : VOpd)
    let i := (⟨f.vi.toNat, 0⟩ : VOpd)
    vecIssue x s [i] [d]
      (misaligned f.vd.toNat f.vdw.toNat :: vecOperands x [d, i] [i] [d] false [f.a.toNat] [] ++ elementForm f true ++
        [indexedType f.t])
      (vectorLoad x s d (indexedParts f x))

/-- Indexed scatter of 32-bit elements. -/
def execVscat (h : Head) (f : FmtVM) : State → Host.Outcome State Fault Refusal :=
  issue h 12 fun x s =>
    let d := (⟨f.vd.toNat, 0⟩ : VOpd)
    let i := (⟨f.vi.toNat, 0⟩ : VOpd)
    vecIssue x s [d, i] []
      (misaligned f.vd.toNat f.vdw.toNat :: vecOperands x [d, i] [d, i] [] false [f.a.toNat] [] ++ elementForm f true ++
        [indexedType f.t])
      (vectorStore x s d (indexedParts f x))

end Sys2Proof.Machine
end

