-- ==== Sys2Proof/Machine/Vector.lean ====
section
/-! DEFINITION. Vector instructions on the register space (R288-R291, R296-R311). -/

namespace Sys2Proof.Machine

open Sys2Proof

/-- Write elements of a destination under the lane-mask guard, with the guard bit of the result (R117, R289). -/
def writeElems (x : Cur) (s : State) (o : VOpd) (cb : Nat) (lm : BitVec 3) (new : List Nat) (guard : Bool) : State :=
  let act := laneActive (x.t.mask lm.toNat) cb
  s.setCore x.c ((s.core x.c).writeVec o (maskedBytes cb (x.k.elems o cb) new act) guard)

/-! Lane moves (R296) -/

/-- Copy of elements, bits unchanged. -/
def execVmov (h : Head) (f : FmtV) : State → Host.Outcome State Fault Refusal :=
  issue h 8 fun x s =>
    let d := (⟨f.vd.toNat, f.vdw.toNat⟩ : VOpd)
    let a := (⟨f.va.toNat, f.vaw.toNat⟩ : VOpd)
    vecIssue x s [a] [d] (vecOperands x [d, a] [a] [d] true [] [])
      (.next (writeElems x s d 32 f.lm (x.k.elems a 32) (x.k.vGuard a)))

/-- VBCAST, VINS and VIOTA: a destination group filled from a register or an index; `index` limits the element written. -/
def vectorPut (h : Head) (d : VOpd) (t : BitVec 4) (lm : BitVec 3) (ok : Bool) (rregs : List Nat) (six : Option FaultInfo)
    (index : Option Nat) (value : Cur → Nat → Nat) (guard : Cur → Bool) : State → Host.Outcome State Fault Refusal :=
  issue h (if rregs.isEmpty then 8 else 12) fun x s =>
    let cb := typeBits x.k.fmts t.toNat
    let n := elemCount d.2 cb
    let act := fun (i : Nat) => laneActive (x.t.mask lm.toNat) cb i && (match index with
      | some k => i == k
      | none => true)
    let new := (List.range n).map (value x)
    vecIssue x s [] [d]
      (vecOperands x [d] [] [d] true rregs [] ++
        [six, typeFault (ok && decide (t.toNat ≤ 8)) t.toNat, index.bind fun k => failIf (n ≤ k) 4 11 k])
      (.next (s.setCore x.c ((s.core x.c).writeVec d (maskedBytes cb (x.k.elems d cb) new act) (guard x))))

/-- Broadcast of a general register to every element. -/
def execVbcast (h : Head) (f : FmtVX) : State → Host.Outcome State Fault Refusal :=
  vectorPut h (f.vd.toNat, f.vdw.toNat) f.t f.lm true [f.g.toNat] (failIf (f.gw ≠ 0) 4 6 f.gw.toNat) none
    (fun x _ => (x.reg f.g).toNat) (fun x => x.guard f.g)

/-- Insert of a general register at element k. -/
def execVins (h : Head) (f : FmtVX) : State → Host.Outcome State Fault Refusal :=
  vectorPut h (f.vd.toNat, f.vdw.toNat) f.t f.lm true [f.g.toNat] (failIf (f.gw ≠ 0) 4 6 f.gw.toNat) (some f.imm.toNat)
    (fun x _ => (x.reg f.g).toNat) (fun x => x.guard f.g)

/-- Each element's own index. -/
def execViota (h : Head) (f : FmtV) : State → Host.Outcome State Fault Refusal :=
  vectorPut h (f.vd.toNat, f.vdw.toNat) f.t f.lm (3 ≤ f.t.toNat) [] none none (fun _ i => i) (fun _ => false)

/-- Extract of element k into a general register; the mask does not apply (DEDUCED, log 46). -/
def execVext (h : Head) (f : FmtVX) : State → Host.Outcome State Fault Refusal :=
  issue h 12 fun x s =>
    let a := (⟨f.va.toNat, f.vaw.toNat⟩ : VOpd)
    let k := f.imm.toNat
    let cb := typeBits x.k.fmts f.t.toNat
    let n := elemCount a.2 cb
    let reg := (⟨f.va.toNat + (if k < n then k * cb / 512 else 0), 0⟩ : VOpd)
    let c := (x.k.elems a cb).getD k 0
    let v := if 3 ≤ f.t.toNat ∧ f.t.toNat ≤ 5 then BitVec.ofInt 64 (toSigned cb c) else BitVec.ofNat 64 c
    vecIssue x s [reg] []
      (vecOperands x [a] [reg] [] true [] [f.g.toNat] ++
        [failIf (f.gw ≠ 0) 4 6 f.gw.toNat, typeFault (f.t.toNat ≤ 8) f.t.toNat, failIf (n ≤ k) 4 11 k])
      (.next (x.setReg s f.g.toNat v (x.k.vGuard reg)))

/-! Element-wise arithmetic, logic and shifts (R297, R298) -/

/-- An element-wise instruction: the new container from those of va, vb and the old destination. -/
def elementwise (f : FmtV) (two dest ok noRm noSat : Bool) (g : NFmt → Nat → Nat → Nat → Nat → Nat) (x : Cur) (s : State) :
    Verdict :=
  let d := (⟨f.vd.toNat, f.vdw.toNat⟩ : VOpd)
  let a := (⟨f.va.toNat, f.vaw.toNat⟩ : VOpd)
  let b := (⟨f.vb.toNat, f.vbw.toNat⟩ : VOpd)
  let srcs := [a] ++ (if two then [b] else []) ++ if dest then [d] else []
  let ty := f.t.toNat
  let cb := typeBits x.k.fmts ty
  let ea := x.k.elems a cb
  let eb := x.k.elems b cb
  let ed := x.k.elems d cb
  let new := (List.range (elemCount d.2 cb)).map fun i =>
    g (typeFmt x.k.fmts ty) cb (ea.getD i 0) (if two then eb.getD i 0 else 0) (ed.getD i 0)
  vecIssue x s srcs [d]
    (vecOperands x ([d, a] ++ if two then [b] else []) srcs [d] true [] [] ++
      [typeFault (ok && decide (ty ≤ 8)) ty, roundFault f.rm f.sat (noRm || !isFloat ty) noSat])
    (.next (writeElems x s d cb f.lm new (srcs.any x.k.vGuard)))

/-- An arithmetic instruction of R297. -/
def vectorArith (op : Ew) (h : Head) (f : FmtV) : State → Host.Outcome State Fault Refusal :=
  let unary := op == .abs || op == .neg
  issue h 8 (elementwise f (!unary) op.fused (!unary || decide (f.t.toNat ≤ 5)) false false
    fun fmt _ a b d => op.apply fmt f.rm.toNat (f.sat == 1) a b d)

/-- Element-wise add, R297. -/
def execVadd (h : Head) (f : FmtV) : State → Host.Outcome State Fault Refusal := vectorArith .add h f
/-- Element-wise subtract, R297. -/
def execVsub (h : Head) (f : FmtV) : State → Host.Outcome State Fault Refusal := vectorArith .sub h f
/-- Element-wise multiply, R297. -/
def execVmul (h : Head) (f : FmtV) : State → Host.Outcome State Fault Refusal := vectorArith .mul h f
/-- Fused a × b + d, R297. -/
def execVfma (h : Head) (f : FmtV) : State → Host.Outcome State Fault Refusal := vectorArith .fma h f
/-- Fused a × b - d, R297. -/
def execVfms (h : Head) (f : FmtV) : State → Host.Outcome State Fault Refusal := vectorArith .fms h f
/-- Fused d - a × b, R297. -/
def execVfnma (h : Head) (f : FmtV) : State → Host.Outcome State Fault Refusal := vectorArith .fnma h f
/-- Element-wise minimum, R297. -/
def execVmin (h : Head) (f : FmtV) : State → Host.Outcome State Fault Refusal := vectorArith .min h f
/-- Element-wise maximum, R297. -/
def execVmax (h : Head) (f : FmtV) : State → Host.Outcome State Fault Refusal := vectorArith .max h f
/-- Element-wise absolute value, R297. -/
def execVabs (h : Head) (f : FmtV) : State → Host.Outcome State Fault Refusal := vectorArith .abs h f
/-- Element-wise negate, R297. -/
def execVneg (h : Head) (f : FmtV) : State → Host.Outcome State Fault Refusal := vectorArith .neg h f

/-- A logic or shift instruction of R298. -/
def vectorLogic (op : Lg) (h : Head) (f : FmtV) : State → Host.Outcome State Fault Refusal :=
  let shift := op == .shl || op == .shr || op == .sar
  issue h 8 (elementwise f true false (!shift || decide (3 ≤ f.t.toNat)) true true fun _ cb a b _ => op.apply cb a b)

/-- Bitwise and, R298. -/
def execVand (h : Head) (f : FmtV) : State → Host.Outcome State Fault Refusal := vectorLogic .and h f
/-- Bitwise or, R298. -/
def execVor (h : Head) (f : FmtV) : State → Host.Outcome State Fault Refusal := vectorLogic .or h f
/-- Bitwise exclusive or, R298. -/
def execVxor (h : Head) (f : FmtV) : State → Host.Outcome State Fault Refusal := vectorLogic .xor h f
/-- Shift left, R298. -/
def execVshl (h : Head) (f : FmtV) : State → Host.Outcome State Fault Refusal := vectorLogic .shl h f
/-- Logical shift right, R298. -/
def execVshr (h : Head) (f : FmtV) : State → Host.Outcome State Fault Refusal := vectorLogic .shr h f
/-- Arithmetic shift right, R298. -/
def execVsar (h : Head) (f : FmtV) : State → Host.Outcome State Fault Refusal := vectorLogic .sar h f

/-! Comparison and selection (R299, R300) -/

/-- Comparison into a lane mask, R299. -/
def execVcmp (h : Head) (f : FmtV) : State → Host.Outcome State Fault Refusal :=
  issue h 8 fun x s =>
    let a := (⟨f.va.toNat, f.vaw.toNat⟩ : VOpd)
    let b := (⟨f.vb.toNat, f.vbw.toNat⟩ : VOpd)
    let c := f.fn.toNat % 8
    let ty := f.t.toNat
    let cb := typeBits x.k.fmts ty
    let fmt := typeFmt x.k.fmts ty
    let ea := x.k.elems a cb
    let eb := x.k.elems b cb
    let per := 32 / cb
    let holds := fun (l : Nat) => (x.t.mask f.lm.toNat).getLsbD l &&
      (List.range per).all fun i => compareElems c fmt (ea.getD (l * per + i) 0) (eb.getD (l * per + i) 0)
    let v := (List.range 16).foldl (fun (v : BitVec 16) l => setBit16 v l (holds l)) 0
    vecIssue x s [a, b] []
      (vecOperands x [a, b] [a, b] [] false [] [] (failIf (a.2 ≠ 0 ∨ b.2 ≠ 0) 4 3 (f.vdw.toNat + 4 * a.2)) ++
        [failIf (5 < c) 4 6 c, failIf (8 ≤ f.vd.toNat) 4 6 f.vd.toNat, failIf (f.vdw ≠ 0) 4 6 f.vdw.toNat,
         typeFault (ty ≤ 8) ty, roundFault f.rm f.sat (!isFloat ty) true])
      (.next (s.setTask x.c x.n (x.t.setMask (f.vd.toNat % 8) v (x.k.vGuard a || x.k.vGuard b))))

/-- Selection of lanes by a mask, R300. -/
def execVsel (h : Head) (f : FmtV) : State → Host.Outcome State Fault Refusal :=
  issue h 8 fun x s =>
    let d := (⟨f.vd.toNat, f.vdw.toNat⟩ : VOpd)
    let a := (⟨f.va.toNat, f.vaw.toNat⟩ : VOpd)
    let b := (⟨f.vb.toNat, f.vbw.toNat⟩ : VOpd)
    let sel := f.fn.toNat % 8
    let ea := x.k.elems a 32
    let eb := x.k.elems b 32
    let new := (List.range (elemCount d.2 32)).map fun i =>
      if (x.t.mask sel).getLsbD (i % 16) then ea.getD i 0 else eb.getD i 0
    vecIssue x s [a, b] [d]
      (vecOperands x [d, a, b] [a, b] [d] true [] [] ++ [roundFault f.rm f.sat true true])
      (.next (writeElems x s d 32 f.lm new (x.k.vGuard a || x.k.vGuard b || x.t.maskGuard sel)))

/-! Transcendentals (R301) -/

/-- A correctly rounded function of each element; the destination granules are pending until written (R82, R301). -/
def vectorFunc (fn : Num → Num) (h : Head) (f : FmtV) : State → Host.Outcome State Fault Refusal :=
  issue h 8 fun x s =>
    let d := (⟨f.vd.toNat, f.vdw.toNat⟩ : VOpd)
    let a := (⟨f.va.toNat, f.vaw.toNat⟩ : VOpd)
    let ty := f.t.toNat
    let cb := typeBits x.k.fmts ty
    let fmt := typeFmt x.k.fmts ty
    let new := (x.k.elems a cb).map fun c => fmt.round f.rm.toNat (f.sat == 1) false (fn (x.k.value fmt c))
    let bytes := maskedBytes cb (x.k.elems d cb) new (laneActive (x.t.mask f.lm.toNat) cb)
    let guard := x.k.vGuard a
    let grans := x.k.vGrans d
    let cell := fun (j : Nat) => (x.k.vOff d.1 + 64 * j,
      (List.range 64).foldl (fun (m : BitVec 64) i => setBit64 m i ((bytes.getD (64 * j + i) none).isSome)) 0)
    let part := fun (j : Nat) => some (((bytes.drop (64 * j)).take 64).map fun b => b.getD 0, guard)
    let r : Result :=
      { x.result s (.space ((List.range (2 ^ d.2)).map cell)) 0 grans with parts := (List.range (2 ^ d.2)).map part }
    vecIssue x s [a] [d]
      (vecOperands x [d, a] [a] [d] true [] [] ++ [typeFault (isFloat ty) ty, roundFault f.rm f.sat false false])
      (.next ((s.setCore x.c ((s.core x.c).pendGranules grans x.n s.serial guard false)).addResult r))

/-- Reciprocal, R301. -/
def execVrcp (h : Head) (f : FmtV) : State → Host.Outcome State Fault Refusal := vectorFunc Num.recip h f
/-- Reciprocal square root, R301. -/
def execVrsq (h : Head) (f : FmtV) : State → Host.Outcome State Fault Refusal := vectorFunc Num.rsqrt h f
/-- 2^a, R301. -/
def execVexp2 (h : Head) (f : FmtV) : State → Host.Outcome State Fault Refusal := vectorFunc Num.exp2 h f
/-- log2 a, R301. -/
def execVlog2 (h : Head) (f : FmtV) : State → Host.Outcome State Fault Refusal := vectorFunc Num.log2 h f

/-! Conversion and block quantisation (R302-R305) -/

/-- The shape of a conversion: containers of destination and source, element count, and which operand is wide (R302). -/
structure Conv where
  cd : Nat
  cs : Nat
  n : Nat
  wide : Bool

/-- The shape of R302 from the two types and width codes. -/
def convShape (fmts : List Nat) (td ts dw aw : Nat) : Conv :=
  let cd := typeBits fmts td
  let cs := typeBits fmts ts
  let wide := decide (cs ≤ cd)
  ⟨cd, cs, if wide then 512 * 2 ^ dw / cd else 512 * 2 ^ aw / cs, wide⟩

/-- The narrow width code is wrong, R302. -/
def Conv.widthFault (c : Conv) (dw aw : Nat) : Option FaultInfo :=
  let want := (c.n * min c.cd c.cs + 511) / 512
  failIf (2 ^ (if c.wide then aw else dw) ≠ want) 4 3 (dw + 4 * aw)

/-- A .x type names a valid descriptor of an accepted KIND (R303-R305). -/
def fdFault (k : Core) (code : Nat) (kinds : List Nat) : Option FaultInfo :=
  if code < 9 then none
  else
    let fd := k.fmts.getD (code - 9) 0
    heldBy (k.fmtGuard.getLsbD (code - 9)) (failIf (!(fdValid fd && kinds.contains (fdKind fd))) 4 9 fd)

/-- The descriptor of a type is valid, or the type has none. -/
def typeValid (fmts : List Nat) (code : Nat) : Bool := decide (code < 9) || fdValid (fmts.getD (code - 9) 0)

/-- The code table that a source type reads, if any. -/
def tableRead? (fmts : List Nat) (code : Nat) : Option Nat :=
  match typeFmt fmts code with
  | .code ct => if 9 ≤ code then some ct else none
  | _ => none

/-- A conversion of format VX, R302: `vals` makes the new codes from the source values of the active elements (DEDUCED, log 47). -/
def convert (f : FmtVX) (okT okT2 : Bool) (rregs wregs : List Nat) (pre six seven : Option FaultInfo) (dk sk : List Nat)
    (codes : Cur → Conv → (Nat → Bool) → List Num → List Nat) (extra : Cur → Task → Conv → (Nat → Bool) → List Num → Bool → Task)
    (x : Cur) (s : State) : Verdict :=
  let fm := x.k.fmts
  let td := f.t.toNat
  let ts := f.t2.toNat
  let d := (⟨f.vd.toNat, f.vdw.toNat⟩ : VOpd)
  let a := (⟨f.va.toNat, f.vaw.toNat⟩ : VOpd)
  let cv := convShape fm td ts d.2 a.2
  let act := laneActive (x.t.mask f.lm.toNat) (max cv.cd cv.cs)
  let vals := ((x.k.elems a cv.cs).take cv.n).map (x.k.value (typeFmt fm ts))
  let new := codes x cv act vals
  let old := (x.k.elems d cv.cd).take cv.n
  let body := maskedBytes cv.cd old new act
  let bytes := body ++ List.replicate (64 * 2 ^ d.2 - body.length) (some 0)
  let table := tableRead? fm ts
  let guard := x.k.vGuard a || rregs.any x.t.regGuard || (match table with
    | some ct => x.k.tableGuard.getLsbD ct
    | none => false)
  let blocked := match table with
    | some ct => x.k.qm.any fun q => q.op == .mcode && bits q.f.fn.toNat 0 2 == ct
    | none => false
  let width := if typeValid fm td && typeValid fm ts then cv.widthFault d.2 a.2 else none
  let checks := [pre] ++ vecOperands x [d, a] [a] [d] false rregs wregs width ++
    [six, typeFault okT td, typeFault okT2 ts, seven, roundFault f.rm f.sat false false, fdFault x.k td dk, fdFault x.k ts sk,
     failIf ((9 ≤ td ∨ 9 ≤ ts) ∧ (cv.n % 32 ≠ 0 ∨ 128 < cv.n)) 4 11 cv.n]
  match firstFault checks, blocked with
  | none, true => .block (.table (table.getD 0))
  | _, _ =>
    vecIssue x s [a] [d] checks
      (let s1 := s.setCore x.c ((s.core x.c).writeVec d bytes guard (halfWritten cv.cd cv.n act))
       .next (s1.setTask x.c x.n (extra x x.t cv act vals guard)))

/-- The scale of block `b` in a register, R302. -/
def scaleIn (v : Word) (b : Nat) : Num := s16Value (bits v.toNat (16 * b) 16)

/-- Conversion between formats, with block scales on a .x side, R303 (DEDUCED, log 48). -/
def execVcvt (h : Head) (f : FmtVX) : State → Host.Outcome State Fault Refusal :=
  let dx := decide (9 ≤ f.t.toNat)
  let sx := decide (9 ≤ f.t2.toNat)
  issue h 12 (convert f (f.t.toNat ≤ 12) (f.t2.toNat ≤ 12) (if dx || sx then [f.g.toNat] else []) []
    none (failIf ((dx || sx) && f.gw != 0) 4 6 f.gw.toNat) (failIf (dx && sx) 4 7 f.t2.toNat) [0, 1, 6] [0, 1, 2, 6]
    (fun x _ _ vals => vals.mapIdx fun i v =>
      let fmt := typeFmt x.k.fmts f.t.toNat
      let src := typeFmt x.k.fmts f.t2.toNat
      let sc := scaleIn (x.reg f.g) (i / 32)
      let v' := if sx then Num.mul v sc else if dx then v.divScale sc else v
      fmt.round f.rm.toNat (f.sat == 1) (src.isInt && !dx && !sx) v')
    (fun _ t _ _ _ _ => t))

/-- Block quantisation to a narrow format with its scales, R304. -/
def execVqnt (h : Head) (f : FmtVX) : State → Host.Outcome State Fault Refusal :=
  let blockOf := fun (act : Nat → Bool) (vals : List Num) (b : Nat) =>
    ((vals.zipIdx).filter fun v => act v.2 && v.2 / 32 == b).map (·.1)
  let p2 := f.fn.getLsbD 0
  issue h 12 (convert f (9 ≤ f.t.toNat && f.t.toNat ≤ 12) (f.t2.toNat ≤ 2) [] [f.g.toNat]
    none (failIf (f.gw ≠ 0) 4 6 f.gw.toNat) none [0, 1, 6] []
    (fun x _ act vals => vals.mapIdx fun i v =>
      let fmt := typeFmt x.k.fmts f.t.toNat
      let blk := blockOf act vals (i / 32)
      if blk.any (· == .nan) then 0
      else fmt.round f.rm.toNat (f.sat == 1) false (v.divScale (s16Value (blockScale p2 fmt blk))))
    (fun x t cv act vals guard =>
      let fmt := typeFmt x.k.fmts f.t.toNat
      let w := (List.range (cv.n / 32)).foldl (fun w b => w + blockScale p2 fmt (blockOf act vals b) * 2 ^ (16 * b)) 0
      t.setReg f.g.toNat (BitVec.ofNat 64 w) guard))

/-- Dequantisation of narrow blocks with their scales and a factor, R305. -/
def execVdeq (h : Head) (f : FmtVX) : State → Host.Outcome State Fault Refusal :=
  let g := f.g.toNat
  issue h 12 (convert f (f.t.toNat ≤ 2) (9 ≤ f.t2.toNat && f.t2.toNat ≤ 12) [g, g + 1] []
    (failIf (g % 2 ≠ 0) 4 1 g) (failIf (f.gw ≠ 1) 4 6 f.gw.toNat) none [] [0, 1, 2, 6]
    (fun x _ _ vals => vals.mapIdx fun i v =>
      let phi := binary32.value (bits (x.t.reg (g + 1)).toNat 0 32)
      (typeFmt x.k.fmts f.t.toNat).round f.rm.toNat (f.sat == 1) false
        (Num.mul (Num.mul v (scaleIn (x.reg f.g) (i / 32))) phi))
    (fun _ t _ _ _ _ => t))

/-! Cross-lane instructions (R306-R309) -/

/-- 4/6: an op that VRED and VSCAN reserve for the type (R306). -/
def foldFault (op ty : Nat) : Option FaultInfo := failIf (5 < op ∨ (3 ≤ op ∧ isFloat ty)) 4 6 op

/-- The elements of a source, inactive ones replaced by the identity, R306. -/
def foldInputs (x : Cur) (a : VOpd) (op ty : Nat) (lm : BitVec 3) : List Nat :=
  let cb := typeBits x.k.fmts ty
  let fmt := typeFmt x.k.fmts ty
  (x.k.elems a cb).mapIdx fun i c => if laneActive (x.t.mask lm.toNat) cb i then c else identityOf op fmt

/-- Reduction into a general register, R306. -/
def execVred (h : Head) (f : FmtVX) : State → Host.Outcome State Fault Refusal :=
  issue h 12 fun x s =>
    let a := (⟨f.va.toNat, f.vaw.toNat⟩ : VOpd)
    let op := f.fn.toNat % 8
    let ty := f.t.toNat
    let v := reduceElems op (typeFmt x.k.fmts ty) f.rm.toNat (f.sat == 1) (foldInputs x a op ty f.lm)
    vecIssue x s [a] []
      (vecOperands x [a] [a] [] true [] [f.g.toNat] ++
        [foldFault op ty, failIf (f.gw ≠ 0) 4 6 f.gw.toNat, typeFault (ty ≤ 8) ty, roundFault f.rm f.sat (!isFloat ty) false])
      (.next (x.setReg s f.g.toNat v (x.k.vGuard a)))

/-- Inclusive scan, R307; element 0, which nothing is combined with, is a result like the others: its NaN is canonical (R39). -/
def execVscan (h : Head) (f : FmtV) : State → Host.Outcome State Fault Refusal :=
  issue h 8 fun x s =>
    let d := (⟨f.vd.toNat, f.vdw.toNat⟩ : VOpd)
    let a := (⟨f.va.toNat, f.vaw.toNat⟩ : VOpd)
    let op := f.fn.toNat % 8
    let ty := f.t.toNat
    let cb := typeBits x.k.fmts ty
    let fmt := typeFmt x.k.fmts ty
    let new := scanSteps (foldElems op fmt cb f.rm.toNat (f.sat == 1)) 10 1 ((foldInputs x a op ty f.lm).map (canonical fmt))
    vecIssue x s [a] [d]
      (vecOperands x [d, a] [a] [d] true [] [] ++
        [foldFault op ty, typeFault (ty ≤ 8) ty, roundFault f.rm f.sat (!isFloat ty) false])
      (.next (writeElems x s d cb f.lm new (x.k.vGuard a)))

/-- Permutation by indexes, R308. -/
def execVperm (h : Head) (f : FmtV) : State → Host.Outcome State Fault Refusal :=
  issue h 8 fun x s =>
    let d := (⟨f.vd.toNat, f.vdw.toNat⟩ : VOpd)
    let a := (⟨f.va.toNat, f.vaw.toNat⟩ : VOpd)
    let b := (⟨f.vb.toNat, f.vbw.toNat⟩ : VOpd)
    let ty := f.t.toNat
    let cb := typeBits x.k.fmts ty
    let n := elemCount d.2 cb
    let ea := x.k.elems a cb
    let new := (x.k.elems b cb).map fun i => ea.getD (i % n) 0
    vecIssue x s [a, b] [d]
      (vecOperands x [d, a, b] [a, b] [d] true [] [] ++
        [typeFault (3 ≤ ty && ty ≤ 8) ty, roundFault f.rm f.sat true true])
      (.next (writeElems x s d cb f.lm new (x.k.vGuard a || x.k.vGuard b)))

/-- The element that a fixed pattern selects from the concatenation of va and vb, R309. -/
def shufflePick (pat k n i : Nat) : Nat :=
  match pat with
  | 0 => (i + k) % n
  | 1 => n - 1 - i
  | 2 => if i % 2 = 0 then i / 2 else n + (i - 1) / 2
  | 3 => if i % 2 = 0 then n / 2 + i / 2 else n + n / 2 + (i - 1) / 2
  | 4 => 2 * i
  | _ => 2 * i + 1

/-- Fixed shuffle pattern, R309. -/
def execVshuf (h : Head) (f : FmtVX) : State → Host.Outcome State Fault Refusal :=
  issue h 12 fun x s =>
    let d := (⟨f.vd.toNat, f.vdw.toNat⟩ : VOpd)
    let a := (⟨f.va.toNat, f.vaw.toNat⟩ : VOpd)
    let b := (⟨f.vb.toNat, f.vbw.toNat⟩ : VOpd)
    let pat := f.fn.toNat % 8
    let two := decide (2 ≤ pat ∧ pat ≤ 5)
    let srcs := if two then [a, b] else [a]
    let ty := f.t.toNat
    let cb := typeBits x.k.fmts ty
    let n := elemCount d.2 cb
    let k := f.imm.toNat
    let both := x.k.elems a cb ++ x.k.elems b cb
    let new := (List.range n).map fun i => both.getD (shufflePick pat k n i) 0
    vecIssue x s srcs [d]
      (vecOperands x (d :: srcs) srcs [d] true [] [] ++
        [failIf (5 < pat) 4 6 pat, typeFault (ty ≤ 8) ty, roundFault f.rm f.sat true true,
         failIf ((if pat = 0 then n - 1 else 0) < k) 4 11 k])
      (.next (writeElems x s d cb f.lm new (srcs.any x.k.vGuard)))

/-! Dot products and sparse accumulation (R310, R311) -/

/-- The exact sum of the products of the elements of one lane, R310 (DEDUCED, log 49). -/
def laneDot (fmt : NFmt) (rm : Nat) (ps : List (Nat × Nat)) : Num :=
  let prod := fun (p : Nat × Nat) => Num.mul (fmt.value (fun _ => 0) p.1) (fmt.value (fun _ => 0) p.2)
  match ps with
  | [] => Num.ofRat 0
  | p :: l => l.foldl (fun acc q => Num.add rm acc (prod q)) (prod p)

/-- Per-lane dot products accumulated into vd, R310. -/
def execVdot (h : Head) (f : FmtV) : State → Host.Outcome State Fault Refusal :=
  issue h 8 fun x s =>
    let d := (⟨f.vd.toNat, f.vdw.toNat⟩ : VOpd)
    let a := (⟨f.va.toNat, f.vaw.toNat⟩ : VOpd)
    let b := (⟨f.vb.toNat, f.vbw.toNat⟩ : VOpd)
    let ty := f.t.toNat
    let cb := typeBits x.k.fmts ty
    let fmt := typeFmt x.k.fmts ty
    let ea := x.k.elems a cb
    let eb := x.k.elems b cb
    let per := 32 / cb
    let lane := fun (l old : Nat) =>
      let ps := (List.range per).map fun i => (ea.getD (l * per + i) 0, eb.getD (l * per + i) 0)
      match fmt with
      | .int w sg =>
        intResult 32 sg (f.sat == 1) (intOf 32 sg old + (ps.map fun p => intOf w sg p.1 * intOf w sg p.2).sum)
      | _ => binary32.round f.rm.toNat (f.sat == 1) (Num.add f.rm.toNat (binary32.value old) (laneDot fmt f.rm.toNat ps))
    let new := (x.k.elems d 32).mapIdx lane
    vecIssue x s [a, b, d] [d]
      (vecOperands x [d, a, b] [a, b, d] [d] true [] [] ++
        [typeFault (ty == 1 || ty == 2 || ty == 5 || ty == 8) ty, roundFault f.rm f.sat (!isFloat ty) false])
      (.next (writeElems x s d 32 f.lm new ([a, b, d].any x.k.vGuard)))

/-- One scaled row of a register table added into vd, R311. -/
def execVmaci (h : Head) (f : FmtVX) : State → Host.Outcome State Fault Refusal :=
  issue h 12 fun x s =>
    let d := (⟨f.vd.toNat, f.vdw.toNat⟩ : VOpd)
    let a := (⟨f.va.toNat, f.vaw.toNat⟩ : VOpd)
    let g := (x.reg f.g).toNat
    let row := (⟨f.va.toNat + bits g 32 16 * 2 ^ d.2, d.2⟩ : VOpd)
    let ty := f.t.toNat
    let tx := f.t2.toNat
    let cb := typeBits x.k.fmts ty
    let fmt := typeFmt x.k.fmts ty
    let fx := typeFmt x.k.fmts tx
    let c := bits g 0 (typeBits x.k.fmts tx)
    let rm := f.rm.toNat
    let sat := f.sat == 1
    let er := x.k.elems row cb
    let new := (x.k.elems d cb).mapIdx fun i old =>
      match fmt, fx with
      | .int w sg, .int wx sx => intResult w sg sat (intOf w sg old + intOf wx sx c * intOf w sg (er.getD i 0))
      | _, _ => fmt.round rm sat false
          (Num.add rm (x.k.value fmt old) (Num.mul (x.k.value fx c) (x.k.value fmt (er.getD i 0))))
    vecIssue x s [row, d] [d]
      ([misaligned d.1 d.2, misaligned a.1 a.2, vecExists x.k d, vecExists x.k a, vecExists x.k row, widthsDiffer [d, a],
        readMarked x [f.g.toNat], granMarked x 4 ([row, d].flatMap x.k.vGrans), granMarked x 5 (x.k.vGrans d),
        failIf (f.gw ≠ 0) 4 6 f.gw.toNat, typeFault (ty ≤ 8) ty, typeFault (tx ≤ 8) tx,
        roundFault f.rm f.sat (!isFloat ty && !isFloat tx) false])
      (.next (writeElems x s d cb f.lm new (x.k.vGuard row || x.k.vGuard d || x.guard f.g)))

end Sys2Proof.Machine
end

