-- ==== Sys2Proof/Machine/Dispatch.lean ====
section
/-! DEFINITION. The meaning of every instruction and event of spec/opcode_table.json, one arm each. -/

namespace Sys2Proof.Machine

open Sys2Proof

/-- The meaning of one instruction or event. -/
def exec (i : Instr) (s : State) : Host.Outcome State Fault Refusal :=
  match i with
  | .nop64 h f => Sys2Proof.Machine.execNop64 h f s
  | .nop96 h f => Sys2Proof.Machine.execNop96 h f s
  | .nop128 h f => Sys2Proof.Machine.execNop128 h f s
  | .exit h f => Sys2Proof.Machine.execExit h f s
  | .bra h f => Sys2Proof.Machine.execBra h f s
  | .brx h f => Sys2Proof.Machine.execBrx h f s
  | .call h f => Sys2Proof.Machine.execCall h f s
  | .ret h f => Sys2Proof.Machine.execRet h f s
  | .loop h f => Sys2Proof.Machine.execLoop h f s
  | .trap h f => Sys2Proof.Machine.execTrap h f s
  | .bkpt h f => Sys2Proof.Machine.execBkpt h f s
  | .mfs h f => Sys2Proof.Machine.execMfs h f s
  | .mts h f => Sys2Proof.Machine.execMts h f s
  | .li h f => Sys2Proof.Machine.execLi h f s
  | .liw h f => Sys2Proof.Machine.execLiw h f s
  | .lea h f => Sys2Proof.Machine.execLea h f s
  | .mov h f => Sys2Proof.Machine.execMov h f s
  | .add h f => Sys2Proof.Machine.execAdd h f s
  | .addi h f => Sys2Proof.Machine.execAddi h f s
  | .sub h f => Sys2Proof.Machine.execSub h f s
  | .neg h f => Sys2Proof.Machine.execNeg h f s
  | .mul h f => Sys2Proof.Machine.execMul h f s
  | .muli h f => Sys2Proof.Machine.execMuli h f s
  | .mulh h f => Sys2Proof.Machine.execMulh h f s
  | .div h f => Sys2Proof.Machine.execDiv h f s
  | .rem h f => Sys2Proof.Machine.execRem h f s
  | .and h f => Sys2Proof.Machine.execAnd h f s
  | .andi h f => Sys2Proof.Machine.execAndi h f s
  | .or h f => Sys2Proof.Machine.execOr h f s
  | .ori h f => Sys2Proof.Machine.execOri h f s
  | .xor h f => Sys2Proof.Machine.execXor h f s
  | .xori h f => Sys2Proof.Machine.execXori h f s
  | .andn h f => Sys2Proof.Machine.execAndn h f s
  | .not h f => Sys2Proof.Machine.execNot h f s
  | .shl h f => Sys2Proof.Machine.execShl h f s
  | .shli h f => Sys2Proof.Machine.execShli h f s
  | .shr h f => Sys2Proof.Machine.execShr h f s
  | .shri h f => Sys2Proof.Machine.execShri h f s
  | .sar h f => Sys2Proof.Machine.execSar h f s
  | .sari h f => Sys2Proof.Machine.execSari h f s
  | .rol h f => Sys2Proof.Machine.execRol h f s
  | .roli h f => Sys2Proof.Machine.execRoli h f s
  | .min h f => Sys2Proof.Machine.execMin h f s
  | .max h f => Sys2Proof.Machine.execMax h f s
  | .abs h f => Sys2Proof.Machine.execAbs h f s
  | .clz h f => Sys2Proof.Machine.execClz h f s
  | .ctz h f => Sys2Proof.Machine.execCtz h f s
  | .popc h f => Sys2Proof.Machine.execPopc h f s
  | .brev h f => Sys2Proof.Machine.execBrev h f s
  | .bswp h f => Sys2Proof.Machine.execBswp h f s
  | .bfx h f => Sys2Proof.Machine.execBfx h f s
  | .bfxs h f => Sys2Proof.Machine.execBfxs h f s
  | .bfi h f => Sys2Proof.Machine.execBfi h f s
  | .sext h f => Sys2Proof.Machine.execSext h f s
  | .sel h f => Sys2Proof.Machine.execSel h f s
  | .cmp h f => Sys2Proof.Machine.execCmp h f s
  | .cmpi h f => Sys2Proof.Machine.execCmpi h f s
  | .pset h f => Sys2Proof.Machine.execPset h f s
  | .lmw h f => Sys2Proof.Machine.execLmw h f s
  | .lmr h f => Sys2Proof.Machine.execLmr h f s
  | .ld h f => Sys2Proof.Machine.execLd h f s
  | .st h f => Sys2Proof.Machine.execSt h f s
  | .lda h f => Sys2Proof.Machine.execLda h f s
  | .stl h f => Sys2Proof.Machine.execStl h f s
  | .ldf h f => Sys2Proof.Machine.execLdf h f s
  | .ldfe h f => Sys2Proof.Machine.execLdfe h f s
  | .ste h f => Sys2Proof.Machine.execSte h f s
  | .stf h f => Sys2Proof.Machine.execStf h f s
  | .feset h f => Sys2Proof.Machine.execFeset h f s
  | .feclr h f => Sys2Proof.Machine.execFeclr h f s
  | .fetst h f => Sys2Proof.Machine.execFetst h f s
  | .pref h f => Sys2Proof.Machine.execPref h f s
  | .put h f => Sys2Proof.Machine.execPut h f s
  | .amo h f => Sys2Proof.Machine.execAmo h f s
  | .cas h f => Sys2Proof.Machine.execCas h f s
  | .red h f => Sys2Proof.Machine.execRed h f s
  | .amof h f => Sys2Proof.Machine.execAmof h f s
  | .redf h f => Sys2Proof.Machine.execRedf h f s
  | .fence h f => Sys2Proof.Machine.execFence h f s
  | .track h f => Sys2Proof.Machine.execTrack h f s
  | .trackt h f => Sys2Proof.Machine.execTrackt h f s
  | .untrack h f => Sys2Proof.Machine.execUntrack h f s
  | .qfence h f => Sys2Proof.Machine.execQfence h f s
  | .vld h f => Sys2Proof.Machine.execVld h f s
  | .vst h f => Sys2Proof.Machine.execVst h f s
  | .vlds h f => Sys2Proof.Machine.execVlds h f s
  | .vsts h f => Sys2Proof.Machine.execVsts h f s
  | .vgath h f => Sys2Proof.Machine.execVgath h f s
  | .vscat h f => Sys2Proof.Machine.execVscat h f s
  | .vmov h f => Sys2Proof.Machine.execVmov h f s
  | .vbcast h f => Sys2Proof.Machine.execVbcast h f s
  | .vext h f => Sys2Proof.Machine.execVext h f s
  | .vins h f => Sys2Proof.Machine.execVins h f s
  | .viota h f => Sys2Proof.Machine.execViota h f s
  | .vadd h f => Sys2Proof.Machine.execVadd h f s
  | .vsub h f => Sys2Proof.Machine.execVsub h f s
  | .vmul h f => Sys2Proof.Machine.execVmul h f s
  | .vfma h f => Sys2Proof.Machine.execVfma h f s
  | .vfms h f => Sys2Proof.Machine.execVfms h f s
  | .vfnma h f => Sys2Proof.Machine.execVfnma h f s
  | .vmin h f => Sys2Proof.Machine.execVmin h f s
  | .vmax h f => Sys2Proof.Machine.execVmax h f s
  | .vabs h f => Sys2Proof.Machine.execVabs h f s
  | .vneg h f => Sys2Proof.Machine.execVneg h f s
  | .vand h f => Sys2Proof.Machine.execVand h f s
  | .vor h f => Sys2Proof.Machine.execVor h f s
  | .vxor h f => Sys2Proof.Machine.execVxor h f s
  | .vshl h f => Sys2Proof.Machine.execVshl h f s
  | .vshr h f => Sys2Proof.Machine.execVshr h f s
  | .vsar h f => Sys2Proof.Machine.execVsar h f s
  | .vcmp h f => Sys2Proof.Machine.execVcmp h f s
  | .vsel h f => Sys2Proof.Machine.execVsel h f s
  | .vrcp h f => Sys2Proof.Machine.execVrcp h f s
  | .vrsq h f => Sys2Proof.Machine.execVrsq h f s
  | .vexp2 h f => Sys2Proof.Machine.execVexp2 h f s
  | .vlog2 h f => Sys2Proof.Machine.execVlog2 h f s
  | .vcvt h f => Sys2Proof.Machine.execVcvt h f s
  | .vqnt h f => Sys2Proof.Machine.execVqnt h f s
  | .vdeq h f => Sys2Proof.Machine.execVdeq h f s
  | .vred h f => Sys2Proof.Machine.execVred h f s
  | .vscan h f => Sys2Proof.Machine.execVscan h f s
  | .vperm h f => Sys2Proof.Machine.execVperm h f s
  | .vshuf h f => Sys2Proof.Machine.execVshuf h f s
  | .vdot h f => Sys2Proof.Machine.execVdot h f s
  | .vmaci h f => Sys2Proof.Machine.execVmaci h f s
  | .mzero h f => Sys2Proof.Machine.execMzero h f s
  | .mld h f => Sys2Proof.Machine.execMld h f s
  | .mldSc h f => Sys2Proof.Machine.execMldSc h f s
  | .mst h f => Sys2Proof.Machine.execMst h f s
  | .mma h f => Sys2Proof.Machine.execMma h f s
  | .mmas h f => Sys2Proof.Machine.execMmas h f s
  | .mmar h f => Sys2Proof.Machine.execMmar h f s
  | .mmat h f => Sys2Proof.Machine.execMmat h f s
  | .macc h f => Sys2Proof.Machine.execMacc h f s
  | .mtrn h f => Sys2Proof.Machine.execMtrn h f s
  | .mcode h f => Sys2Proof.Machine.execMcode h f s
  | .tdef h f => Sys2Proof.Machine.execTdef h f s
  | .tqry h f => Sys2Proof.Machine.execTqry h f s
  | .spsend h f => Sys2Proof.Machine.execSpsend h f s
  | .spawn h f => Sys2Proof.Machine.execSpawn h f s
  | .spawnp h f => Sys2Proof.Machine.execSpawnp h f s
  | .send h f => Sys2Proof.Machine.execSend h f s
  | .sendResume h f => Sys2Proof.Machine.execSendResume h f s
  | .join h f => Sys2Proof.Machine.execJoin h f s
  | .joinRet h f => Sys2Proof.Machine.execJoinRet h f s
  | .go h f => Sys2Proof.Machine.execGo h f s
  | .chsend h f => Sys2Proof.Machine.execChsend h f s
  | .chrecv h f => Sys2Proof.Machine.execChrecv h f s
  | .chmask h f => Sys2Proof.Machine.execChmask h f s
  | .bar h f => Sys2Proof.Machine.execBar h f s
  | .bara h f => Sys2Proof.Machine.execBara h f s
  | .barw h f => Sys2Proof.Machine.execBarw h f s
  | .copy h f => Sys2Proof.Machine.execCopy h f s
  | .cgath h f => Sys2Proof.Machine.execCgath h f s
  | .cscat h f => Sys2Proof.Machine.execCscat h f s
  | .credc h f => Sys2Proof.Machine.execCredc h f s
  | .cseal h f => Sys2Proof.Machine.execCseal h f s
  | .cwait h f => Sys2Proof.Machine.execCwait h f s
  | .cwaitAll h f => Sys2Proof.Machine.execCwaitAll h f s
  | .ctest h f => Sys2Proof.Machine.execCtest h f s
  | .cpost h f => Sys2Proof.Machine.execCpost h f s
  | .handover h f => Sys2Proof.Machine.execHandover h f s
  | .handoverC h f => Sys2Proof.Machine.execHandoverC h f s
  | .done h f => Sys2Proof.Machine.execDone h f s
  | .pendingResultWrite id => Sys2Proof.Machine.execPendingResultWrite id s
  | .arrivalQueueEnter pkt => Sys2Proof.Machine.execArrivalQueueEnter pkt s
  | .slotLoad core slot => Sys2Proof.Machine.execSlotLoad core slot s
  | .grantResend pkt => Sys2Proof.Machine.execGrantResend pkt s
  | .ticketlessResend pkt => Sys2Proof.Machine.execTicketlessResend pkt s
  | .departureSend core slot => Sys2Proof.Machine.execDepartureSend core slot s
  | .barrierLineArrival pkt => Sys2Proof.Machine.execBarrierLineArrival pkt s
  | .barrierPhaseComplete inst group => Sys2Proof.Machine.execBarrierPhaseComplete inst group s
  | .barrierTimeout core slot => Sys2Proof.Machine.execBarrierTimeout core slot s
  | .homeAccessPerform acc => Sys2Proof.Machine.execHomeAccessPerform acc s
  | .accessReplyArrive acc => Sys2Proof.Machine.execAccessReplyArrive acc s
  | .lsuPlaceGrant core => Sys2Proof.Machine.execLsuPlaceGrant core s
  | .lookasideFill core member ext page => Sys2Proof.Machine.execLookasideFill core member ext page s
  | .fenceComplete core fence => Sys2Proof.Machine.execFenceComplete core fence s
  | .ldaComplete core fence => Sys2Proof.Machine.execLdaComplete core fence s
  | .stlRelease acc => Sys2Proof.Machine.execStlRelease acc s
  | .wsRefreshStart layer => Sys2Proof.Machine.execWsRefreshStart layer s
  | .wsRefreshEnd layer => Sys2Proof.Machine.execWsRefreshEnd layer s
  | .engineEntryBegin core queue => Sys2Proof.Machine.execEngineEntryBegin core queue s
  | .copyChunkWrite core queue chunk => Sys2Proof.Machine.execCopyChunkWrite core queue chunk s
  | .qmEntryPerform core => Sys2Proof.Machine.execQmEntryPerform core s
  | .mmatStepComplete core => Sys2Proof.Machine.execMmatStepComplete core s
  | .mmarFetchServe core => Sys2Proof.Machine.execMmarFetchServe core s
  | .mmarDataArrive core => Sys2Proof.Machine.execMmarDataArrive core s
  | .mmarPairLost core => Sys2Proof.Machine.execMmarPairLost core s
  | .pageEviction acc => Sys2Proof.Machine.execPageEviction acc s
  | .pageReturn acc => Sys2Proof.Machine.execPageReturn acc s
  | .faultPacketHandle pkt => Sys2Proof.Machine.execFaultPacketHandle pkt s
  | .resumePacketApply pkt => Sys2Proof.Machine.execResumePacketApply pkt s
  | .walkerServe => Sys2Proof.Machine.execWalkerServe s
  | .capsuleTake => Sys2Proof.Machine.execCapsuleTake s
  | .codeImageVerify inst => Sys2Proof.Machine.execCodeImageVerify inst s
  | .gangReserve inst chiplet cores => Sys2Proof.Machine.execGangReserve inst chiplet cores s
  | .gangCommit inst => Sys2Proof.Machine.execGangCommit inst s
  | .operatingPointReached inst => Sys2Proof.Machine.execOperatingPointReached inst s
  | .childQueue post => Sys2Proof.Machine.execChildQueue post s
  | .capabilityArrive move => Sys2Proof.Machine.execCapabilityArrive move s
  | .capsuleComplete inst => Sys2Proof.Machine.execCapsuleComplete inst s
  | .completionRecordWrite inst => Sys2Proof.Machine.execCompletionRecordWrite inst s
  | .msixSend queue => Sys2Proof.Machine.execMsixSend queue s
  | .coreEvict inst roles => Sys2Proof.Machine.execCoreEvict inst roles s
  | .imageWrite core => Sys2Proof.Machine.execImageWrite core s
  | .parkedPacketDivert pkt => Sys2Proof.Machine.execParkedPacketDivert pkt s
  | .imageRestore inst role core => Sys2Proof.Machine.execImageRestore inst role core s
  | .capabilityFault what subject => Sys2Proof.Machine.execCapabilityFault what subject s
  | .firmwareRestart => Sys2Proof.Machine.execFirmwareRestart s
  | .watchdogExpire => Sys2Proof.Machine.execWatchdogExpire s
  | .submit rid queue size word => Sys2Proof.Machine.execSubmit rid queue size word s
  | .qcfgEnable queue value => Sys2Proof.Machine.execQcfgEnable queue value s
  | .qcfgDisable queue => Sys2Proof.Machine.execQcfgDisable queue s
  | .windowEnable window => Sys2Proof.Machine.execWindowEnable window s
  | .windowDisable window => Sys2Proof.Machine.execWindowDisable window s
  | .lockSet bits => Sys2Proof.Machine.execLockSet bits s
  | .lockWalkerCheck domain => Sys2Proof.Machine.execLockWalkerCheck domain s
  | .onazalEnable value => Sys2Proof.Machine.execOnazalEnable value s
  | .onazalPortEnable value => Sys2Proof.Machine.execOnazalPortEnable value s
  | .pwrctlRun => Sys2Proof.Machine.execPwrctlRun s
  | .pwrctlIdle => Sys2Proof.Machine.execPwrctlIdle s
  | .pwrctlGated => Sys2Proof.Machine.execPwrctlGated s
  | .powerStateEnter => Sys2Proof.Machine.execPowerStateEnter s
  | .mailboxEvidence => Sys2Proof.Machine.execMailboxEvidence s
  | .mailboxOwnerKey => Sys2Proof.Machine.execMailboxOwnerKey s
  | .killctlGo inst => Sys2Proof.Machine.execKillctlGo inst s
  | .registerWrite offset value => Sys2Proof.Machine.execRegisterWrite offset value s
  | .bringUp => Sys2Proof.Machine.execBringUp s
  | .inboundWrite rid space addr data => Sys2Proof.Machine.execInboundWrite rid space addr data s
  | .inboundPieceSend seq piece => Sys2Proof.Machine.execInboundPieceSend seq piece s
  | .inboundRead rid space addr len => Sys2Proof.Machine.execInboundRead rid space addr len s
  | .remoteRequestArrive header addr size store => Sys2Proof.Machine.execRemoteRequestArrive header addr size store s
  | .linkCrcReplay link flit => Sys2Proof.Machine.execLinkCrcReplay link flit s
  | .linkRetrain link lanes insts => Sys2Proof.Machine.execLinkRetrain link lanes insts s
  | .scrubPass level addr error => Sys2Proof.Machine.execScrubPass level addr error s
  | .selfCheckFail unit index => Sys2Proof.Machine.execSelfCheckFail unit index s
  | .instructionStoreFill core block => Sys2Proof.Machine.execInstructionStoreFill core block s
  | .encodingFault detail aux => Sys2Proof.Machine.execEncodingFault detail aux s
  | .sequentialFlowPastCodelen => Sys2Proof.Machine.execSequentialFlowPastCodelen s
  | .wakeSequenceComplete => Sys2Proof.Machine.execWakeSequenceComplete s
  | .onazalPortTrained port lanes => Sys2Proof.Machine.execOnazalPortTrained port lanes s

end Sys2Proof.Machine
end

