-- ==== Sys2Proof/Machine/Step.lean ====
section
/-! DEFINITION. One step of the machine: the turn that the agenda names (DESIGN CHOICE, log 1), which is the issue of one instruction by
a core (R81) or one event of the part. -/

namespace Sys2Proof.Machine

open Sys2Proof

/-- The acting core issues: the port passes as R81 gives, and the instruction at the pc is fetched, decoded and
executed; a miss, a bad word and the end of the code are the events that the spec gives them. A core without a task that
can issue does nothing. -/
def issueStep (s : State) : Host.Outcome State Fault Refusal :=
  match s.choosePort s.actor, s.capsuleOf? s.actor with
  | some n, some cap =>
    let s1 := s.takePort s.actor n
    match s1.fetch s1.actor cap with
    | .miss block => exec (.instructionStoreFill s1.actor block) s1
    | .pastEnd => exec .sequentialFlowPastCodelen s1
    | .bad e => exec (.encodingFault e.detail e.aux) s1
    | .instr i => exec i s1
  | _, _ => .next s

/-- One step. -/
def step (s : State) : Host.Outcome State Fault Refusal :=
  match s.agenda with
  | [] => issueStep s
  | turn :: rest =>
    let s1 := { s.advance turn.clocks with agenda := rest }
    match turn.act with
    | .issue core => issueStep { s1 with actor := core }
    | .event i => if i.isEvent then exec i s1 else .next s1

/-- `s` with one instruction where the next step fetches: a one-core capsule whose code image is the instruction's bytes
(the longest instruction is 16 bytes), its task ready at pc 0, and no other turn pending (DESIGN CHOICE, log 10). -/
def State.withFetchWord (s : State) (nbits w : Nat) : State :=
  { s with
    agenda := [], actor := 0, capsules := [bootCapsule (leBytes 32 (w % 2 ^ nbits))], cores := [(0, bootCore)] }

end Sys2Proof.Machine
end

