-- ==== Sys2Proof/Safety.lean ====
section
/-! DEFINITION. The terms in which claims are stated: when an instruction issues, what stays unchanged, and what the
results of the scalar families are, written from the pages of the spec. -/

namespace Sys2Proof

open Sys2Proof.Machine

/-- The invariant of the machine: memory is in canonical form. -/
def Inv (s : State) : Prop := Memory.wf s.mem

/-- Accesses and packets are numbered in order of issue: no two accesses, and no two packets, share a number, and every number in
use is below the next one. -/
def Numbered (s : State) : Prop :=
  (s.accesses.map (·.id)).Nodup ∧ (∀ a ∈ s.accesses, a.id < s.serial) ∧
    (s.packets.map (·.id)).Nodup ∧ ∀ p ∈ s.packets, p.id < s.serial

/-! When an instruction issues -/

/-- The task `x` at the issue port issues an instruction of fixed fields `h` and length `len`, and its guard holds: the
slot is ready, the capsule runs, and a marked instruction finds no result of its task outstanding (R81, R82, R233). -/
def Issues (s : State) (h : Head) (len : Nat) (x : Cur) : Prop :=
  s.cur? len = some x ∧ (h.s = true → x.k.outstanding x.n = false) ∧ guardHolds h x.t = true

/-- The general registers `rs` carry no unswitched mark of the task when the instruction makes its checks: its own switch
marker clears every mark of the slot (R415). -/
def Unmarked (h : Head) (x : Cur) (rs : List Nat) : Prop :=
  h.s = true ∨ ∀ r ∈ rs, (x.k.slot x.n).mark.getLsbD r = false

/-- The granules `gs` of register space neither carry an unswitched mark of the task nor are pending for another slot
(R83, R415). -/
def Settled (h : Head) (x : Cur) (gs : List Nat) : Prop :=
  ∀ g ∈ gs, (∀ e ∈ x.k.rpend, e.1 = g → e.2.slot = x.n) ∧ (h.s = true ∨ ∀ e ∈ x.k.rmark, e.1 = g → e.2.slot ≠ x.n)

/-! What stays unchanged -/

/-- Every byte of memory reads as before. -/
def SameMemory (s t : State) : Prop := ∀ a, readByte t.mem a = readByte s.mem a

/-- Nothing outside the cores, and no core but `c`, differs: memory, accesses, results, packets, capsules, the Plaza and
the host registers are as before. -/
def OnlyCore (s t : State) (c : Nat) : Prop :=
  { t with cores := s.cores } = s ∧ (∀ d, d ≠ c → t.core d = s.core d) ∧ SameMemory s t

/-- Of a core, only slot `n`, the unswitched marks of that slot and the count of its turn differ: every state register,
channel, tracker, queue, tensor, map and granule is as before. -/
def OnlySlot (k l : Core) (n : Nat) : Prop :=
  { l with slots := k.slots, portCount := k.portCount, rmark := k.rmark } = k ∧
    (∀ m, m % 8 ≠ n % 8 → l.slot m = k.slot m) ∧ ∀ e : Nat × GranMark, e.2.slot ≠ n % 8 → (e ∈ l.rmark ↔ e ∈ k.rmark)

/-- Nothing of the machine differs but the executing slot, and of its core what `back` puts back. -/
def OnlyCoreBut (s t : State) (x : Cur) (back : Core → Core) : Prop :=
  OnlyCore s t x.c ∧ (∀ m, m % 8 ≠ x.n % 8 → t.slot x.c m = s.slot x.c m) ∧
    back { t.core x.c with
      slots := (s.core x.c).slots, portCount := (s.core x.c).portCount, rmark := (s.core x.c).rmark } = s.core x.c

/-- The general registers outside `ds` and their guard bits are as before. -/
def OtherRegs (t u : Task) (ds : List Nat) : Prop :=
  ∀ r, r < 16 → r ∉ ds → u.reg r = t.reg r ∧ u.regGuard r = t.regGuard r

/-- The predicates and lane masks with their guard bits, TSR and TID are as before. -/
def SameStatus (t u : Task) : Prop := u.p = t.p ∧ u.lm = t.lm ∧ u.tsr = t.tsr ∧ u.tid = t.tid

/-- The executing task goes on at `pc`, and of the machine only its slot has changed: its pending bits, its task number
and what else the slot holds beside the task are as before, and the slot stays ready unless the core's segment does not
hold `pc` (R95). -/
def GoesOn (s t : State) (x : Cur) (pc : Nat) : Prop :=
  OnlyCore s t x.c ∧ OnlySlot (s.core x.c) (t.core x.c) x.n ∧
    (t.slot x.c x.n).task.pc = BitVec.ofNat 64 pc ∧
    (t.slot x.c x.n).pend = (s.slot x.c x.n).pend ∧ (t.slot x.c x.n).serial = (s.slot x.c x.n).serial ∧
    (t.slot x.c x.n).hold = (s.slot x.c x.n).hold ∧ (t.slot x.c x.n).bar = (s.slot x.c x.n).bar ∧
    (t.slot x.c x.n).mmat = (s.slot x.c x.n).mmat ∧
    (inSegment x.k pc = true → (t.slot x.c x.n).state = .ready)

/-- The task goes on after the instruction with one general register changed, its 64 bits and its guard bit (R246). -/
def WritesReg (s t : State) (x : Cur) (pc d : Nat) (v : Word) (guard : Bool) : Prop :=
  GoesOn s t x pc ∧ SameStatus x.t (t.slot x.c x.n).task ∧ OtherRegs x.t (t.slot x.c x.n).task [d] ∧
    (t.slot x.c x.n).task.reg d = v ∧ (t.slot x.c x.n).task.regGuard d = guard

/-- The task goes on with no register, predicate or mask changed. -/
def KeepsTask (s t : State) (x : Cur) (pc : Nat) : Prop :=
  GoesOn s t x pc ∧ SameStatus x.t (t.slot x.c x.n).task ∧ OtherRegs x.t (t.slot x.c x.n).task []

/-- The task has taken a precise fault (R399, R411): nothing of the machine has changed but its slot, which holds it with its
registers as they were, its pc at the instruction and the record of the fault; the faults of the core that wait to be sent; and the
fault packets that have left. -/
def Faults (s t : State) (x : Cur) (i : FaultInfo) : Prop :=
  { t with cores := s.cores, packets := s.packets, serial := s.serial } = s ∧
    { t.core x.c with
      slots := (s.core x.c).slots, portCount := (s.core x.c).portCount, rmark := (s.core x.c).rmark
      faultQ := (s.core x.c).faultQ } = s.core x.c ∧
    (∀ m, m % 8 ≠ x.n % 8 → { t.slot x.c m with hold := (s.slot x.c m).hold } = s.slot x.c m) ∧
  (t.slot x.c x.n).state = .held ∧
    (∃ h, (t.slot x.c x.n).hold = some h ∧ h.record.info = i ∧ h.record.pc = x.pc ∧ h.record.disp = 0 ∧ h.len = x.len) ∧
    (t.slot x.c x.n).task.pc = BitVec.ofNat 64 x.pc ∧ SameStatus x.t (t.slot x.c x.n).task ∧
    OtherRegs x.t (t.slot x.c x.n).task [] ∧ SameMemory s t ∧ t.accesses = s.accesses ∧ t.results = s.results ∧
    ∀ d, d ≠ x.c → t.core d = s.core d

/-! The results of the scalar families, from their pages -/

/-- What a scalar instruction writes: its fixed fields and length, its destination, the registers it reads, and the value
and guard bit that its page gives in terms of the task. -/
structure RegSpec where
  h : Head
  len : Nat
  d : Nat
  reads : List Nat
  value : Task → Word
  guard : Task → Bool

/-- A two-source instruction of format A (R247). -/
def spec2 (h : Head) (f : FmtA) (v : Word → Word → Word) : RegSpec :=
  ⟨h, 8, f.d.toNat, [f.a.toNat, f.b.toNat], fun t => v (t.reg f.a.toNat) (t.reg f.b.toNat),
    fun t => t.regGuard f.a.toNat || t.regGuard f.b.toNat⟩

/-- A one-source instruction of format A. -/
def spec1 (h : Head) (f : FmtA) (v : Word → Word) : RegSpec :=
  ⟨h, 8, f.d.toNat, [f.a.toNat], fun t => v (t.reg f.a.toNat), fun t => t.regGuard f.a.toNat⟩

/-- An instruction of format I with a sign-extended immediate (R238). -/
def specI (h : Head) (f : FmtI) (v : Word → Int → Word) : RegSpec :=
  ⟨h, 8, f.d.toNat, [f.a.toNat], fun t => v (t.reg f.a.toNat) f.imm.toInt, fun t => t.regGuard f.a.toNat⟩

/-- An exact integer, its low 64 bits. -/
def low64 (x : Int) : Word := BitVec.ofInt 64 x

/-- The column x of R250. -/
def arithmeticSpec : Instr → Option RegSpec
  | .add h f => some (spec2 h f fun a b => low64 (a.toNat + b.toNat))
  | .addi h f => some (specI h f fun a i => low64 (a.toNat + i))
  | .sub h f => some (spec2 h f fun a b => low64 (a.toNat - b.toNat))
  | .neg h f => some (spec1 h f fun a => low64 (-a.toNat))
  | .mul h f => some (spec2 h f fun a b => low64 (a.toNat * b.toNat))
  | .muli h f => some (specI h f fun a i => low64 (a.toNat * i))
  | .mulh h f => some (spec2 h f fun a b =>
      if f.fn.getLsbD 0 then low64 ((a.toNat : Int) * b.toNat / 2 ^ 64) else low64 (a.toInt * b.toInt / 2 ^ 64))
  | .min h f => some (spec2 h f fun a b =>
      if f.fn.getLsbD 0 then low64 (min a.toNat b.toNat) else low64 (min a.toInt b.toInt))
  | .max h f => some (spec2 h f fun a b =>
      if f.fn.getLsbD 0 then low64 (max a.toNat b.toNat) else low64 (max a.toInt b.toInt))
  | .abs h f => some (spec1 h f fun a => low64 (if a.toInt < 0 then -a.toInt else a.toInt))
  | _ => none

/-- The logical operations and bit counts of R250, bit by bit. -/
def logicSpec : Instr → Option RegSpec
  | .and h f => some (spec2 h f fun a b => a &&& b)
  | .andi h f => some (specI h f fun a i => a &&& low64 i)
  | .or h f => some (spec2 h f fun a b => a ||| b)
  | .ori h f => some (specI h f fun a i => a ||| low64 i)
  | .xor h f => some (spec2 h f fun a b => a ^^^ b)
  | .xori h f => some (specI h f fun a i => a ^^^ low64 i)
  | .andn h f => some (spec2 h f fun a b => a &&& ~~~ b)
  | .not h f => some (spec1 h f fun a => ~~~ a)
  | .clz h f => some (spec1 h f fun a => low64 ((List.range 64).takeWhile fun i => !a.getLsbD (63 - i)).length)
  | .ctz h f => some (spec1 h f fun a => low64 ((List.range 64).takeWhile fun i => !a.getLsbD i).length)
  | .popc h f => some (spec1 h f fun a => low64 ((List.range 64).countP fun i => a.getLsbD i))
  | .brev h f => some (spec1 h f fun a => BitVec.ofFnLE fun i : Fin 64 => a.getLsbD (63 - i))
  | .bswp h f => some (spec1 h f fun a => BitVec.ofFnLE fun i : Fin 64 => a.getLsbD (8 * (7 - i / 8) + i % 8))
  | _ => none

/-- The last column of R252; `n` is the amount. -/
def shlOf (a : Word) (n : Nat) : Word := if 64 ≤ n then 0 else low64 (a.toNat * 2 ^ n)
def shrOf (a : Word) (n : Nat) : Word := if 64 ≤ n then 0 else low64 (a.toNat / 2 ^ n)
def sarOf (a : Word) (n : Nat) : Word :=
  if 64 ≤ n then (if a.getLsbD 63 then low64 (2 ^ 64 - 1) else 0) else low64 (a.toInt / 2 ^ n)
def rolOf (a : Word) (n : Nat) : Word := low64 (a.toNat * 2 ^ (n % 64) + a.toNat / 2 ^ (64 - n % 64))

/-- The shifts and rotates of R252. -/
def shiftSpec : Instr → Option RegSpec
  | .shl h f => some (spec2 h f fun a b => shlOf a b.toNat)
  | .shli h f => some (specI h f fun a _ => shlOf a (f.imm.toNat % 64))
  | .shr h f => some (spec2 h f fun a b => shrOf a b.toNat)
  | .shri h f => some (specI h f fun a _ => shrOf a (f.imm.toNat % 64))
  | .sar h f => some (spec2 h f fun a b => sarOf a b.toNat)
  | .sari h f => some (specI h f fun a _ => sarOf a (f.imm.toNat % 64))
  | .rol h f => some (spec2 h f fun a b => rolOf a b.toNat)
  | .roli h f => some (specI h f fun a _ => rolOf a (f.imm.toNat % 64))
  | _ => none

/-- A field of `len` bits read as a signed number (R253). -/
def signedField (len f : Nat) : Int := if f / 2 ^ (len - 1) % 2 = 1 then (f : Int) - 2 ^ len else f

/-- The bit-field instructions of R253: pos is IMM[5:0] and len - 1 is IMM[12:6]. -/
def fieldSpec : Instr → Option RegSpec
  | .bfx h f => some (specI h f fun a _ =>
      low64 (a.toNat / 2 ^ (f.imm.toNat % 64) % 2 ^ (f.imm.toNat / 64 % 128 + 1)))
  | .bfxs h f => some (specI h f fun a _ =>
      low64 (signedField (f.imm.toNat / 64 % 128 + 1)
        (a.toNat / 2 ^ (f.imm.toNat % 64) % 2 ^ (f.imm.toNat / 64 % 128 + 1))))
  | .bfi h f => some
      { h := h, len := 8, d := f.d.toNat, reads := [f.a.toNat]
        value := fun t =>
          let pos := f.imm.toNat % 64
          let mask := low64 ((2 ^ (f.imm.toNat / 64 % 128 + 1) - 1) * 2 ^ pos)
          (t.reg f.d.toNat &&& ~~~ mask) ||| (low64 ((t.reg f.a.toNat).toNat * 2 ^ pos) &&& mask)
        guard := fun t => t.regGuard f.d.toNat || t.regGuard f.a.toNat }
  | .sext h f => some (specI h f fun a _ =>
      low64 (signedField (f.imm.toNat % 64 + 1) (a.toNat % 2 ^ (f.imm.toNat % 64 + 1))))
  | _ => none

/-- Immediates, addresses, selection and the lane mask read (R254, R255, R257, R260). -/
def moveSpec : Instr → Option RegSpec
  | .li h f => some ⟨h, 8, f.d.toNat, [], fun _ => low64 f.imm.toInt, fun _ => false⟩
  | .liw h f => some ⟨h, 12, f.d.toNat, [], fun _ => f.imm, fun _ => false⟩
  | .lea h f =>
      if f.x = 1 then some ⟨h, 8, f.d.toNat, [f.a.toNat, f.b.toNat],
        fun t => low64 ((t.reg f.a.toNat).toNat + (t.reg f.b.toNat).toNat * 2 ^ f.sz.toNat),
        fun t => t.regGuard f.a.toNat || t.regGuard f.b.toNat⟩
      else if f.sz = 0 then some ⟨h, 8, f.d.toNat, [f.a.toNat], fun t => low64 ((t.reg f.a.toNat).toNat + f.off.toInt),
        fun t => t.regGuard f.a.toNat⟩
      else none
  | .sel h f => some
      { h := h, len := 8, d := f.d.toNat, reads := [f.a.toNat, f.b.toNat]
        value := fun t => if t.pred f.p.toNat then t.reg f.a.toNat else t.reg f.b.toNat
        guard := fun t => (if t.pred f.p.toNat then t.regGuard f.a.toNat else t.regGuard f.b.toNat) || t.predGuard f.p.toNat }
  | .lmr h f =>
      if f.a.toNat < 8 then some ⟨h, 8, f.d.toNat, [], fun t => low64 (t.mask f.a.toNat).toNat, fun t => t.maskGuard f.a.toNat⟩
      else none
  | _ => none

/-! Predicates and masks -/

/-- What an instruction that sets a predicate writes: its fixed fields, the predicate, the registers it reads, the value and
the guard bit. -/
structure PredSpec where
  h : Head
  p : Nat
  reads : List Nat
  value : Task → Bool
  guard : Task → Bool

/-- The conditions of R258, .n comparing unsigned. -/
def conditionHolds (c : Nat) (n : Bool) (a b : Word) : Bool :=
  match c, n with
  | 0, _ => decide (a.toNat = b.toNat)
  | 1, _ => decide (a.toNat ≠ b.toNat)
  | 2, false => decide (a.toInt < b.toInt)
  | 3, false => decide (a.toInt ≤ b.toInt)
  | 4, false => decide (b.toInt < a.toInt)
  | 5, false => decide (b.toInt ≤ a.toInt)
  | 2, true => decide (a.toNat < b.toNat)
  | 3, true => decide (a.toNat ≤ b.toNat)
  | 4, true => decide (b.toNat < a.toNat)
  | 5, true => decide (b.toNat ≤ a.toNat)
  | 6, _ => (List.range 64).all fun i => !(a.getLsbD i && b.getLsbD i)
  | _, _ => (List.range 64).any fun i => a.getLsbD i && b.getLsbD i

/-- CMP and CMPI with the condition codes that R258 defines, and PSET (R259). -/
def predSpec : Instr → Option PredSpec
  | .cmp h f =>
      if f.fn.getLsbD 3 = true ∧ (f.fn.toNat % 8 ≤ 1 ∨ 6 ≤ f.fn.toNat % 8) then none
      else some ⟨h, f.p.toNat, [f.a.toNat, f.b.toNat],
        fun t => conditionHolds (f.fn.toNat % 8) (f.fn.getLsbD 3) (t.reg f.a.toNat) (t.reg f.b.toNat),
        fun t => t.regGuard f.a.toNat || t.regGuard f.b.toNat⟩
  | .cmpi h f =>
      if f.fn.getLsbD 3 = true ∧ (f.fn.toNat % 8 ≤ 1 ∨ 6 ≤ f.fn.toNat % 8) then none
      else some ⟨h, f.p.toNat, [f.a.toNat],
        fun t => conditionHolds (f.fn.toNat % 8) (f.fn.getLsbD 3) (t.reg f.a.toNat) (low64 f.imm.toInt),
        fun t => t.regGuard f.a.toNat⟩
  | .pset h f => some ⟨h, f.pd.toNat, [],
      fun t => f.tt.getLsbD (2 * (t.pred f.pa.toNat).toNat + (t.pred f.pb.toNat).toNat),
      fun t => t.predGuard f.pa.toNat || t.predGuard f.pb.toNat⟩
  | _ => none

/-- The task goes on with one predicate and its guard bit in TSR changed; p7 reads 1 and keeps a clear guard bit whatever
is written to it (R108, R110). -/
def WritesPred (s t : State) (x : Cur) (pc p : Nat) (v guard : Bool) : Prop :=
  let u := (t.slot x.c x.n).task
  GoesOn s t x pc ∧ OtherRegs x.t u [] ∧ u.lm = x.t.lm ∧ u.tid = x.t.tid ∧
    (∀ q, q < 8 → q ≠ p → u.pred q = x.t.pred q ∧ u.predGuard q = x.t.predGuard q) ∧
    (p ≠ 7 → u.pred p = v ∧ u.predGuard p = guard) ∧ u.pred 7 = true ∧ u.predGuard 7 = false ∧
    ∀ b, b < 64 → (b ≠ 8 + p ∨ p = 7) → u.tsr.getLsbD b = x.t.tsr.getLsbD b

/-- The task goes on with one lane mask and its guard bit in TSR changed (R257). -/
def WritesMask (s t : State) (x : Cur) (pc m : Nat) (v : BitVec 16) (guard : Bool) : Prop :=
  let u := (t.slot x.c x.n).task
  GoesOn s t x pc ∧ OtherRegs x.t u [] ∧ u.p = x.t.p ∧ u.tid = x.t.tid ∧
    (∀ q, q < 8 → q ≠ m → u.mask q = x.t.mask q ∧ u.maskGuard q = x.t.maskGuard q) ∧
    u.mask m = v ∧ u.maskGuard m = guard ∧ ∀ b, b < 64 → b ≠ 16 + m → u.tsr.getLsbD b = x.t.tsr.getLsbD b

/-! Results that are pending (R82) -/

/-- Nothing of the machine differs but the core's own task, pending and access state, and what has left by an Onazal port: memory, the
other cores, capsules, layers, the Plaza and the host registers are as before, and of the core every state register, tensor, map,
channel, tracker and byte of register space. -/
def OnlyPending (s t : State) (x : Cur) : Prop :=
  { t with
    cores := s.cores, accesses := s.accesses, results := s.results, fences := s.fences, packets := s.packets
    cross := s.cross, serial := s.serial, host := { t.host with out := s.host.out } } = s ∧
    SameMemory s t ∧ (∀ d, d ≠ x.c → t.core d = s.core d) ∧
    { t.core x.c with
      slots := (s.core x.c).slots, portCount := (s.core x.c).portCount, rmark := (s.core x.c).rmark
      rpend := (s.core x.c).rpend, l1 := (s.core x.c).l1, lookaside := (s.core x.c).lookaside, fills := (s.core x.c).fills
      lsuTickets := (s.core x.c).lsuTickets } = s.core x.c ∧
    ∀ m, m % 8 ≠ x.n % 8 → (t.core x.c).slot m = (s.core x.c).slot m

/-- The task goes on with its registers as they are; the general registers `ds` are pending and marked (R82, R415). -/
def LeavesPending (s t : State) (x : Cur) (pc : Nat) (ds : List Nat) : Prop :=
  OnlyPending s t x ∧ SameStatus x.t (t.slot x.c x.n).task ∧ OtherRegs x.t (t.slot x.c x.n).task [] ∧
    (t.slot x.c x.n).task.pc = BitVec.ofNat 64 pc ∧
    ∀ r, r < 16 → (t.slot x.c x.n).pend.getLsbD r = ((s.slot x.c x.n).pend.getLsbD r || ds.contains r)

/-- Quotient and remainder of R251. -/
def quotientOf (n : Bool) (a b : Word) : Word :=
  if b.toNat = 0 then low64 (2 ^ 64 - 1)
  else if n then low64 (a.toNat / b.toNat) else low64 (a.toInt.tdiv b.toInt)
def remainderOf (n : Bool) (a b : Word) : Word :=
  if b.toNat = 0 then a
  else if n then low64 (a.toNat % b.toNat) else low64 (a.toInt - b.toInt * a.toInt.tdiv b.toInt)

/-- DIV and REM, R251. -/
def divideSpec : Instr → Option RegSpec
  | .div h f => some (spec2 h f (quotientOf (f.fn.getLsbD 0)))
  | .rem h f => some (spec2 h f (remainderOf (f.fn.getLsbD 0)))
  | _ => none

/-! Accesses -/

/-- The instruction at the issue port gets `n` LSU places: it holds a ticket that has been granted, or places are free and nothing
waits for one (R97, R172, R458). -/
def HasPlace (s : State) (x : Cur) (n : Nat) : Prop :=
  (∃ u, x.k.lsuTicket? x.n = some u ∧ u.granted = true) ∨
    (x.k.lsuTicket? x.n = none ∧ x.k.placeTickets = [] ∧ s.unplacedOf x.c = [] ∧ s.lsuPlaces x.c + n ≤ 256)

/-- Its ticket has not been granted, or it has none and no place is free or something waits for one. -/
def LacksPlace (s : State) (x : Cur) (n : Nat) : Prop :=
  (∃ u, x.k.lsuTicket? x.n = some u ∧ u.granted = false) ∨
    (x.k.lsuTicket? x.n = none ∧ (x.k.placeTickets ≠ [] ∨ s.unplacedOf x.c ≠ [] ∨ 256 < s.lsuPlaces x.c + n))

/-- The task waits in its slot for LSU places, as it was, and has sent nothing. -/
def WaitsForPlace (s t : State) (x : Cur) : Prop :=
  (t.slot x.c x.n).state = .blocked .lsuPlace ∧ (t.slot x.c x.n).task = x.t ∧ SameMemory s t ∧ t.accesses = s.accesses ∧
    t.results = s.results ∧ t.packets = s.packets

/-- What a memory instruction asks of the LSU: its fixed fields and length, the general registers it reads and those it
leaves pending, its own checks, the capsule address and size, the right it needs, whether it is a store of one whole 64-bit word
(R428), and the operation, kind, data and guard bit it sends (R164, R269, R272-R283). -/
structure MemSpec where
  h : Head
  len : Nat
  reads : List Nat
  pends : List Nat
  ok : Prop
  ea : Nat
  size : Nat
  use : Use
  word : Bool
  op : AccOp
  kind : Kind
  data : List Byte
  guard : Bool
  regSize : Nat
  signed : Bool

/-- Alignment of a general register group, R61. -/
abbrev groupAligned (d w : Nat) : Prop := d % 2 ^ w = 0

/-- A tagged operation names a word of a scratchpad (R276). -/
abbrev taggedOk (f : FmtM) (ea : Nat) : Prop :=
  f.sz = 3 ∧ f.dw = 0 ∧ windowOf ea = .scratch ∧ ea < 2 ^ 48 ∧ ea % 8 = 0

/-- An atomic operation's own fields (R269, R280): no index form, a size of 4 or 8 bytes. -/
abbrev atomicOk (f : FmtM) : Prop := f.x = 0 ∧ 2 ≤ f.sz.toNat ∧ f.dw = 0

/-- A floating atomic's type and size (R282): binary32 with SZ = 2 or bfloat16 with SZ = 1. -/
abbrev floatOk (f : FmtM) : Prop := f.x = 0 ∧ f.dw = 0 ∧ ((f.fn = 0 ∧ f.sz = 2) ∨ (f.fn = 1 ∧ f.sz = 1))

/-- The registers that format M names for its address. -/
def addrReads (f : FmtM) : List Nat := if f.x = 1 then [f.a.toNat, f.b.toNat] else [f.a.toNat]

/-- The address of format M in terms of the task (R235, R238). -/
def addrOf (f : FmtM) (t : Task) : Nat :=
  if f.x = 1 then ((t.reg f.a.toNat).toNat + (t.reg f.b.toNat).toNat) % 2 ^ 64
  else (low64 ((t.reg f.a.toNat).toNat + f.off.toInt)).toNat

/-- The registers of a group, R61. -/
def groupRegs (d w : Nat) : List Nat := (List.range (2 ^ w)).map (d + ·)

/-- Plain loads and stores (R272). -/
def plainSpec (t : Task) : Instr → Option MemSpec
  | .ld h f => some
      { h := h, len := 8, reads := addrReads f, pends := groupRegs f.d.toNat f.dw.toNat
        ok := groupAligned f.d.toNat f.dw.toNat ∧ (f.dw ≠ 0 → f.sz = 3) ∧ (f.fn.getLsbD 0 = true → f.dw = 0 ∧ f.sz ≠ 3)
        ea := addrOf f t, size := 2 ^ f.sz.toNat * 2 ^ f.dw.toNat, use := .load, word := false, op := .load, kind := .r, data := []
        guard := false, regSize := 2 ^ f.sz.toNat, signed := f.fn.getLsbD 0 }
  | .st h f => some
      { h := h, len := 8, reads := addrReads f ++ groupRegs f.d.toNat f.dw.toNat, pends := []
        ok := groupAligned f.d.toNat f.dw.toNat ∧ (f.dw ≠ 0 → f.sz = 3)
        ea := addrOf f t, size := 2 ^ f.sz.toNat * 2 ^ f.dw.toNat, use := .store
        word := decide (f.dw = 0 ∧ f.sz = 3), op := .store, kind := .w
        data := if f.dw = 0 then leBytes (2 ^ f.sz.toNat) (t.reg f.d.toNat).toNat
          else (groupRegs f.d.toNat f.dw.toNat).flatMap fun r => leBytes 8 (t.reg r).toNat
        guard := (groupRegs f.d.toNat f.dw.toNat).any t.regGuard, regSize := 0, signed := false }
  | _ => none

/-- A tagged load and a tagged store, R276. -/
def taggedLoad (t : Task) (h : Head) (f : FmtM) (op : AccOp) : MemSpec :=
  { h := h, len := 8, reads := addrReads f, pends := [f.d.toNat], ok := taggedOk f (addrOf f t), ea := addrOf f t, size := 8
    use := .load, word := false, op := op, kind := .f, data := [], guard := false, regSize := 8, signed := false }
def taggedStore (t : Task) (h : Head) (f : FmtM) (op : AccOp) (data : Bool) : MemSpec :=
  { h := h, len := 8, reads := addrReads f ++ if data then [f.d.toNat] else [], pends := [], ok := taggedOk f (addrOf f t)
    ea := addrOf f t, size := 8, use := .store, word := false, op := op, kind := .f
    data := if data then leBytes 8 (t.reg f.d.toNat).toNat else [], guard := data && t.regGuard f.d.toNat, regSize := 0
    signed := false }

/-- The tagged operations of R276. -/
def taggedSpec (t : Task) : Instr → Option MemSpec
  | .ldf h f => some (taggedLoad t h f .ldf)
  | .ldfe h f => some (taggedLoad t h f .ldfe)
  | .ste h f => some (taggedStore t h f .ste true)
  | .stf h f => some (taggedStore t h f .stf true)
  | .feset h f => some (taggedStore t h f .feset false)
  | .feclr h f => some (taggedStore t h f .feclr false)
  | .fetst h f => some (taggedLoad t h f .fetst)
  | _ => none

/-- An atomic that returns the old value, and a reduction (R280-R283). -/
def amoOf (t : Task) (h : Head) (f : FmtM) (op : AccOp) (ok : Prop) (reads : List Nat) (guard : Bool) : MemSpec :=
  { h := h, len := 8, reads := reads, pends := [f.d.toNat], ok := ok, ea := addrOf f t, size := 2 ^ f.sz.toNat
    use := .atomic, word := false, op := op, kind := .a, data := leBytes (2 ^ f.sz.toNat) (t.reg f.b.toNat).toNat, guard := guard
    regSize := 2 ^ f.sz.toNat, signed := false }
def redOf (t : Task) (h : Head) (f : FmtM) (op : AccOp) (ok : Prop) : MemSpec :=
  { h := h, len := 8, reads := [f.a.toNat, f.d.toNat], pends := [], ok := ok, ea := addrOf f t, size := 2 ^ f.sz.toNat
    use := .atomic, word := false, op := op, kind := .a, data := leBytes (2 ^ f.sz.toNat) (t.reg f.d.toNat).toNat
    guard := t.regGuard f.d.toNat, regSize := 0, signed := false }

/-- The atomics in a capsule that is, or is not, deterministic: AMO, CAS, AMOF and REDF need DET clear (R104). -/
def atomicSpec (t : Task) (det : Bool) : Instr → Option MemSpec
  | .amo h f => some (amoOf t h f (.amo f.fn.toNat)
      (atomicOk f ∧ (f.fn.toNat ≤ 6 ∨ f.fn = 12 ∨ f.fn = 13) ∧ det = false) [f.a.toNat, f.b.toNat] (t.regGuard f.b.toNat))
  | .cas h f => some (amoOf t h f (.cas (t.reg f.d.toNat).toNat) (atomicOk f ∧ det = false)
      [f.a.toNat, f.b.toNat, f.d.toNat] (t.regGuard f.b.toNat || t.regGuard f.d.toNat))
  | .red h f => some (redOf t h f (.red f.fn.toNat) (atomicOk f ∧ (f.fn.toNat ≤ 5 ∨ f.fn = 12 ∨ f.fn = 13)))
  | .amof h f => some (amoOf t h f (.amof f.fn.toNat) (floatOk f ∧ det = false) [f.a.toNat, f.b.toNat]
      (t.regGuard f.b.toNat))
  | .redf h f => some (redOf t h f (.redf f.fn.toNat) (floatOk f ∧ det = false))
  | _ => none

/-- An access of `m` for the target `g` is numbered from `n` on in `t`: whose it is, where it goes and what it carries. -/
def HasAccess (t : State) (x : Cur) (m : MemSpec) (g : Target) (n : Nat) : Prop :=
  ∃ a ∈ t.accesses, n ≤ a.id ∧ a.core = x.c ∧ a.slot = x.n ∧ a.inst = x.cap.inst ∧ a.op = m.op ∧ a.kind = m.kind ∧
    a.ca = m.ea ∧ a.addr = g.addr ∧ a.size = m.size ∧ a.data = m.data ∧ a.guard = m.guard ∧
    (m.pends = [] → a.result = none) ∧
    (m.pends ≠ [] → ∃ r ∈ t.results, a.result = some (r.id, 0) ∧ r.core = x.c ∧ r.slot = x.n ∧
      r.dst = .regs (m.pends.headD 0) m.pends.length m.regSize m.signed ∧ r.parts = [none])

/-- The task is as it was, but for its pc. -/
def TaskKept (s t : State) (x : Cur) (pc : Nat) : Prop :=
  SameStatus x.t (t.slot x.c x.n).task ∧ OtherRegs x.t (t.slot x.c x.n).task [] ∧
    (t.slot x.c x.n).task.pc = BitVec.ofNat 64 pc ∧ (t.slot x.c x.n).pend = (s.slot x.c x.n).pend

/-- Every tensor that a list of ranges names is defined (R171). -/
def ListDefined (k : Core) (l : BitVec 39) : Prop :=
  ∀ i, i < listCount l → 256 ≤ listItem l i → tDefined (SMap.get 0 k.tensors (listItem l i % 256)) = true

/-- A control transfer's target is valid: a multiple of 4 below CODELEN, and below 2^32 when it comes from a register, at which
an instruction begins when its 32-byte block is decoded from its first byte (R261). -/
def ValidTarget (cap : Capsule) (t : Nat) : Prop :=
  t % 4 = 0 ∧ t < cap.hdr.codelen ∧ t < 2 ^ 32 ∧ beginsAt cap.code t 9 (t / 32 * 32) = true

/-! Vector instructions -/

/-- The operands of a vector instruction can be used: groups aligned and within the view, no granule pending for another slot
or marked by the task, none that is written still to be read by an entry of qm, and none that is read with an uncorrectable error
(R83, R115, R240, R415, R416, R437). -/
def VecReady (h : Head) (x : Cur) (reads writes : List VOpd) : Prop :=
  (∀ o ∈ reads ++ writes, o.1 % 2 ^ o.2 = 0 ∧ o.1 + 2 ^ o.2 ≤ viewCount x.k.vwv) ∧
    Settled h x ((reads ++ writes).flatMap x.k.vGrans) ∧
    (∀ e ∈ x.k.qm, ∀ g ∈ writes.flatMap x.k.vGrans, (e.reads x.k).contains g = false) ∧
    ∀ g ∈ reads.flatMap x.k.vGrans, g ∉ x.k.badGrans

/-- What a vector instruction writes: its fixed fields and length, destination group, source groups, the general registers it
reads, its own conditions, the width of an element's container, which elements it writes, their values and the guard bit of
the result. -/
structure VecSpec where
  h : Head
  len : Nat
  d : VOpd
  reads : List VOpd
  regs : List Nat
  ok : Prop
  cb : Nat
  writes : Nat → Bool
  value : Nat → Nat
  guard : Bool

/-- Element `i` of a group, in a container of `cb` bits. -/
def elemAt (k : Core) (o : VOpd) (cb i : Nat) : Nat := (k.elems o cb).getD i 0

/-- The elements that `m` writes hold its values and every other element and byte of register space is as before; a
register written whole takes the guard bit, one written in part ORs it in (R117, R289). -/
def HoldsElements (k l : Core) (m : VecSpec) : Prop :=
  (∀ i, i < elemCount m.d.2 m.cb →
      elemAt l m.d m.cb i = if m.writes i then m.value i % 2 ^ m.cb else elemAt k m.d m.cb i) ∧
    (∀ o, (o < k.vOff m.d.1 ∨ k.vOff m.d.1 + 64 * 2 ^ m.d.2 ≤ o) → l.spaceByte o = k.spaceByte o) ∧
    ∀ j, j < 2 ^ m.d.2 →
      let old := (k.granule (k.vOff m.d.1 / 64 + j)).guard
      let mine := (List.range (elemCount m.d.2 m.cb)).filter fun i => i * m.cb / 512 == j
      (l.granule (k.vOff m.d.1 / 64 + j)).guard =
        if mine.all m.writes then m.guard else if mine.any m.writes then old || m.guard else old

/-- Of the machine only the executing slot and the core's register space differ, with the errors in it. -/
def OnlyVector (s t : State) (x : Cur) : Prop :=
  OnlyCore s t x.c ∧
    { t.core x.c with
      slots := (s.core x.c).slots, portCount := (s.core x.c).portCount, rmark := (s.core x.c).rmark
      regs := (s.core x.c).regs, badGrans := (s.core x.c).badGrans } = s.core x.c ∧
    ∀ n, n % 8 ≠ x.n % 8 → (t.core x.c).slot n = (s.core x.c).slot n

/-- The task goes on with its registers unchanged, and the vector result is written. -/
def WritesVector (s t : State) (x : Cur) (m : VecSpec) : Prop :=
  OnlyVector s t x ∧ TaskKept s t x (x.pc + m.len) ∧ HoldsElements x.k (t.core x.c) m

/-- A type code of R236 with its elements: floating 0 to 2, signed 3 to 5, unsigned 6 to 8. -/
abbrev plainType (t : BitVec 4) : Prop := t.toNat ≤ 8
abbrev floatType (t : BitVec 4) : Prop := t.toNat ≤ 2
/-- The width of a plain type's element. -/
def plainBits (t : BitVec 4) : Nat := typeBits [] t.toNat

/-- RM and SAT are as the type allows (R291): RM 0 to 4, and 0 for an integer type. -/
abbrev roundOk (f : FmtV) : Prop := f.rm.toNat ≤ 4 ∧ (¬floatType f.t → f.rm = 0)

/-- An integer result of `w` bits: wrapped, or clamped to the type's range under SAT (R291). -/
def intCode (w : Nat) (signed sat : Bool) (v : Int) : Nat :=
  if sat then
    if signed then wrapInt w (max (-(2 ^ (w - 1))) (min v (2 ^ (w - 1) - 1))) else wrapInt w (max 0 (min v (2 ^ w - 1)))
  else wrapInt w v

/-- The integer of a container. -/
def codeInt (w : Nat) (signed : Bool) (c : Nat) : Int := if signed then toSigned w c else ((c % 2 ^ w : Nat) : Int)

/-- The element of a result of R297: the exact value, rounded once for a floating type, narrowed for an integer type. -/
def arithElem (f : FmtV) (ff : Nat → Machine.Num → Machine.Num → Machine.Num → Machine.Num) (fi : Int → Int → Int → Int) (a b d : Nat) : Nat :=
  match typeFmt [] f.t.toNat with
  | .flt sp => sp.round f.rm.toNat (f.sat == 1) (ff f.rm.toNat (sp.value a) (sp.value b) (sp.value d))
  | .int w sg => intCode w sg (f.sat == 1) (fi (codeInt w sg a) (codeInt w sg b) (codeInt w sg d))
  | _ => 0

/-- A vector instruction of format V on groups of one size. -/
def specV (x : Cur) (h : Head) (f : FmtV) (two dest : Bool) (ok : Prop) (cb : Nat) (value : Nat → Nat → Nat → Nat) : VecSpec :=
  let d := (f.vd.toNat, f.vdw.toNat)
  let a := (f.va.toNat, f.vaw.toNat)
  let b := (f.vb.toNat, f.vbw.toNat)
  let reads := [a] ++ (if two then [b] else []) ++ if dest then [d] else []
  { h := h, len := 8, d := d, reads := reads, regs := []
    ok := ok ∧ f.vaw = f.vdw ∧ (two = true → f.vbw = f.vdw)
    cb := cb, writes := laneActive (x.t.mask f.lm.toNat) cb
    value := fun i => value (elemAt x.k a cb i) (elemAt x.k b cb i) (elemAt x.k d cb i)
    guard := reads.any x.k.vGuard }

/-- An arithmetic instruction of R297. -/
def specArith (x : Cur) (h : Head) (f : FmtV) (two fused : Bool) (ok : Prop) (ff : Nat → Machine.Num → Machine.Num → Machine.Num → Machine.Num)
    (fi : Int → Int → Int → Int) : VecSpec :=
  specV x h f two fused (ok ∧ roundOk f) (plainBits f.t) (arithElem f ff fi)

/-- The table of R297. -/
def vecArithSpec (x : Cur) : Instr → Option VecSpec
  | .vadd h f => some (specArith x h f true false (plainType f.t) (fun rm a b _ => Machine.Num.add rm a b) fun a b _ => a + b)
  | .vsub h f => some (specArith x h f true false (plainType f.t) (fun rm a b _ => Machine.Num.add rm a b.negate) fun a b _ => a - b)
  | .vmul h f => some (specArith x h f true false (plainType f.t) (fun _ a b _ => Machine.Num.mul a b) fun a b _ => a * b)
  | .vfma h f => some (specArith x h f true true (plainType f.t) (fun rm a b d => Machine.Num.add rm (Machine.Num.mul a b) d)
      fun a b d => a * b + d)
  | .vfms h f => some (specArith x h f true true (plainType f.t) (fun rm a b d => Machine.Num.add rm (Machine.Num.mul a b) d.negate)
      fun a b d => a * b - d)
  | .vfnma h f => some (specArith x h f true true (plainType f.t) (fun rm a b d => Machine.Num.add rm d (Machine.Num.mul a b).negate)
      fun a b d => d - a * b)
  | .vmin h f => some (specArith x h f true false (plainType f.t) (fun _ a b _ => Machine.Num.pick true a b) fun a b _ => min a b)
  | .vmax h f => some (specArith x h f true false (plainType f.t) (fun _ a b _ => Machine.Num.pick false a b) fun a b _ => max a b)
  | .vabs h f => some (specArith x h f false false (f.t.toNat ≤ 5) (fun _ a _ _ => a.abs) fun a _ _ => if a < 0 then -a else a)
  | .vneg h f => some (specArith x h f false false (f.t.toNat ≤ 5) (fun _ a _ _ => a.negate) fun a _ _ => -a)
  | _ => none

/-- A logic or shift instruction of R298, which has no rounding mode and no SAT. -/
def specLogic (x : Cur) (h : Head) (f : FmtV) (ok : Prop) (g : Nat → Nat → Nat → Nat) : VecSpec :=
  specV x h f true false (ok ∧ plainType f.t ∧ f.rm = 0 ∧ f.sat = 0) (plainBits f.t) fun a b _ => g (plainBits f.t) a b

/-- The table of R298: logic on every type, shifts on the integer types by an amount read as unsigned. -/
def vecLogicSpec (x : Cur) : Instr → Option VecSpec
  | .vand h f => some (specLogic x h f True fun _ a b => a &&& b)
  | .vor h f => some (specLogic x h f True fun _ a b => a ||| b)
  | .vxor h f => some (specLogic x h f True fun _ a b => a ^^^ b)
  | .vshl h f => some (specLogic x h f (¬floatType f.t) fun w a b => if w ≤ b then 0 else a * 2 ^ b)
  | .vshr h f => some (specLogic x h f (¬floatType f.t) fun w a b => if w ≤ b then 0 else a / 2 ^ b)
  | .vsar h f => some (specLogic x h f (¬floatType f.t) fun w a b =>
      if w ≤ b then (if toSigned w a < 0 then 2 ^ w - 1 else 0) else wrapInt w (toSigned w a / 2 ^ b))
  | _ => none

/-- A destination group filled from a general register or an index, R296. -/
def specPut (x : Cur) (h : Head) (len : Nat) (d : VOpd) (t : BitVec 4) (lm : BitVec 3) (regs : List Nat) (ok : Prop)
    (only : Nat → Bool) (value : Nat → Nat) (guard : Bool) : VecSpec :=
  { h := h, len := len, d := d, reads := [], regs := regs, ok := ok, cb := plainBits t
    writes := fun i => laneActive (x.t.mask lm.toNat) (plainBits t) i && only i, value := value, guard := guard }

/-- Lane moves, selection, permutation and shuffles (R296, R300, R308, R309). -/
def vecMoveSpec (x : Cur) : Instr → Option VecSpec
  | .vmov h f => some (specV x h f false false True 32 fun a _b _d => a)
  | .vbcast h f => some (specPut x h 12 (f.vd.toNat, f.vdw.toNat) f.t f.lm [f.g.toNat] (plainType f.t ∧ f.gw = 0)
      (fun _ => true) (fun _ => (x.t.reg f.g.toNat).toNat) (x.t.regGuard f.g.toNat))
  | .vins h f => some (specPut x h 12 (f.vd.toNat, f.vdw.toNat) f.t f.lm [f.g.toNat]
      (plainType f.t ∧ f.gw = 0 ∧ f.imm.toNat < elemCount f.vdw.toNat (plainBits f.t))
      (fun i => i == f.imm.toNat) (fun _ => (x.t.reg f.g.toNat).toNat) (x.t.regGuard f.g.toNat))
  | .viota h f => some (specPut x h 8 (f.vd.toNat, f.vdw.toNat) f.t f.lm [] (plainType f.t ∧ ¬floatType f.t)
      (fun _ => true) (fun i => i) false)
  | .vsel h f =>
      let sel := f.fn.toNat % 8
      let v := specV x h f true false (f.t = 0 ∧ f.rm = 0 ∧ f.sat = 0) 32 fun _ _ _ => 0
      some { v with
          value := (fun i => if (x.t.mask sel).getLsbD (i % 16) then elemAt x.k (f.va.toNat, f.vaw.toNat) 32 i
            else elemAt x.k (f.vb.toNat, f.vbw.toNat) 32 i),
          guard := v.guard || x.t.maskGuard sel }
  | .vperm h f =>
      let cb := plainBits f.t
      let v := specV x h f true false (plainType f.t ∧ ¬floatType f.t ∧ f.rm = 0 ∧ f.sat = 0) cb fun _ _ _ => 0
      let pick := fun i =>
        elemAt x.k (f.va.toNat, f.vaw.toNat) cb (elemAt x.k (f.vb.toNat, f.vbw.toNat) cb i % elemCount f.vdw.toNat cb)
      some { v with value := pick }
  | .vshuf h f =>
      let cb := plainBits f.t
      let n := elemCount f.vdw.toNat cb
      let pat := f.fn.toNat % 8
      let a := (f.va.toNat, f.vaw.toNat)
      let b := (f.vb.toNat, f.vbw.toNat)
      let reads := if 2 ≤ pat ∧ pat ≤ 5 then [a, b] else [a]
      let both := fun j => if j < n then elemAt x.k a cb j else elemAt x.k b cb (j - n)
      some
        { h := h, len := 12, d := (f.vd.toNat, f.vdw.toNat), reads := reads, regs := []
          ok := pat ≤ 5 ∧ plainType f.t ∧ f.rm = 0 ∧ f.sat = 0 ∧ f.vaw = f.vdw ∧ (2 ≤ pat → f.vbw = f.vdw) ∧
            f.imm.toNat ≤ (if pat = 0 then n - 1 else 0)
          cb := cb, writes := laneActive (x.t.mask f.lm.toNat) cb
          value := (fun i => match pat with
            | 0 => both ((i + f.imm.toNat) % n)
            | 1 => both (n - 1 - i)
            | 2 => both (if i % 2 = 0 then i / 2 else n + i / 2)
            | 3 => both (if i % 2 = 0 then n / 2 + i / 2 else n + n / 2 + i / 2)
            | 4 => both (2 * i)
            | _ => both (2 * i + 1)),
          guard := reads.any x.k.vGuard }
  | _ => none

/-- op of VRED and VSCAN for a type (R306). -/
abbrev foldOk (op : Nat) (t : BitVec 4) : Prop := op ≤ 5 ∧ (3 ≤ op → ¬floatType t)

/-- The sum of the products of the elements of lane `l` of two groups, per lane 32 / `cb` of them (R310). -/
def laneProducts (x : Cur) (a b : VOpd) (cb l : Nat) : List (Nat × Nat) :=
  (List.range (32 / cb)).map fun j => (elemAt x.k a cb (l * (32 / cb) + j), elemAt x.k b cb (l * (32 / cb) + j))

/-- VSCAN, VDOT and VMACI (R307, R310, R311). -/
def vecCrossSpec (x : Cur) : Instr → Option VecSpec
  | .vscan h f =>
      let op := f.fn.toNat % 8
      let cb := plainBits f.t
      let v := specV x h f false false (plainType f.t ∧ foldOk op f.t ∧ roundOk f) cb fun _ _ _ => 0
      let y := scanSteps (foldElems op (typeFmt [] f.t.toNat) cb f.rm.toNat (f.sat == 1)) 10 1
        ((foldInputs x (f.va.toNat, f.vaw.toNat) op f.t.toNat f.lm).map (canonical (typeFmt [] f.t.toNat)))
      some { v with value := fun i => y.getD i 0 }
  | .vdot h f =>
      let cb := plainBits f.t
      let ok := (f.t = 1 ∨ f.t = 2 ∨ f.t = 5 ∨ f.t = 8) ∧ roundOk f
      let v := specV x h f true true ok 32 fun _ _ _ => 0
      let ps := laneProducts x (f.va.toNat, f.vaw.toNat) (f.vb.toNat, f.vbw.toNat) cb
      let old := elemAt x.k (f.vd.toNat, f.vdw.toNat) 32
      some { v with value := fun l => match typeFmt [] f.t.toNat with
        | .int w sg => intCode 32 sg (f.sat == 1)
            (codeInt 32 sg (old l) + ((ps l).map fun p => codeInt w sg p.1 * codeInt w sg p.2).sum)
        | fmt => binary32.round f.rm.toNat (f.sat == 1)
            (Machine.Num.add f.rm.toNat (binary32.value (old l)) (laneDot fmt f.rm.toNat (ps l))) }
  | .vmaci h f =>
      let g := x.t.reg f.g.toNat
      let cb := plainBits f.t
      let d := (f.vd.toNat, f.vdw.toNat)
      let row := (f.va.toNat + g.toNat / 2 ^ 32 % 2 ^ 16 * 2 ^ f.vdw.toNat, f.vdw.toNat)
      let c := g.toNat % 2 ^ plainBits f.t2
      let fx := typeFmt [] f.t2.toNat
      let value := fun i => match typeFmt [] f.t.toNat, fx with
        | .int w sg, .int wx sx => intCode w sg (f.sat == 1)
            (codeInt w sg (elemAt x.k d cb i) + codeInt wx sx c * codeInt w sg (elemAt x.k row cb i))
        | fmt, _ => fmt.round f.rm.toNat (f.sat == 1) false
            (Machine.Num.add f.rm.toNat (fmt.value x.k.tableOf (elemAt x.k d cb i))
              (Machine.Num.mul (fx.value x.k.tableOf c) (fmt.value x.k.tableOf (elemAt x.k row cb i))))
      some
        { h := h, len := 12, d := d, reads := [row, d], regs := [f.g.toNat]
          ok := plainType f.t ∧ plainType f.t2 ∧ f.gw = 0 ∧ f.vaw = f.vdw ∧ f.va.toNat % 2 ^ f.vaw.toNat = 0 ∧
            f.va.toNat + 2 ^ f.vaw.toNat ≤ viewCount x.k.vwv ∧ f.rm.toNat ≤ 4 ∧
            (¬floatType f.t ∧ ¬floatType f.t2 → f.rm = 0)
          cb := cb, writes := laneActive (x.t.mask f.lm.toNat) cb, value := value
          guard := x.k.vGuard row || x.k.vGuard d || x.t.regGuard f.g.toNat }
  | _ => none

/-- The value of element `i` of a block-scaled conversion's source before rounding is `v i`; the code written for it. -/
def convertSpec (x : Cur) (h : Head) (f : FmtVX) (regs : List Nat) (ok : Prop) (code : (Nat → Machine.Num) → Nat → Nat) :
    VecSpec :=
  let fm := x.k.fmts
  let d := (f.vd.toNat, f.vdw.toNat)
  let a := (f.va.toNat, f.vaw.toNat)
  let cv := convShape fm f.t.toNat f.t2.toNat d.2 a.2
  let src := typeFmt fm f.t2.toNat
  let table := match tableRead? fm f.t2.toNat with
    | some ct => x.k.tableGuard.getLsbD ct
    | none => false
  { h := h, len := 12, d := d, reads := [a], regs := regs
    ok := ok ∧ f.rm.toNat ≤ 4 ∧ cv.widthFault d.2 a.2 = none ∧
      ((9 ≤ f.t.toNat ∨ 9 ≤ f.t2.toNat) → cv.n % 32 = 0 ∧ cv.n ≤ 128) ∧
      ∀ ct, tableRead? fm f.t2.toNat = some ct → ∀ q ∈ x.k.qm, q.op = .mcode → q.f.fn.toNat % 4 ≠ ct
    cb := cv.cd
    writes := fun i => decide (cv.n ≤ i) || laneActive (x.t.mask f.lm.toNat) (max cv.cd cv.cs) i
    value := fun i => if cv.n ≤ i then 0
      else code (fun j => src.value x.k.tableOf (elemAt x.k a cv.cs j)) i
    guard := x.k.vGuard a || regs.any x.t.regGuard || table }

/-- A .x type names a valid descriptor of one of some KINDs (R303-R305). -/
abbrev kindOk (fm : List Nat) (t : BitVec 4) (kinds : List Nat) : Prop :=
  9 ≤ t.toNat → fdValid (fm.getD (t.toNat - 9) 0) = true ∧ fdKind (fm.getD (t.toNat - 9) 0) ∈ kinds

/-- VCVT and VDEQ (R303, R305): block `b` is elements 32 `b` to 32 `b` + 31, and its scale is bits [16 b + 15 : 16 b] of gs. -/
def vecConvertSpec (x : Cur) : Instr → Option VecSpec
  | .vcvt h f =>
      let fm := x.k.fmts
      let dx := decide (9 ≤ f.t.toNat)
      let sx := decide (9 ≤ f.t2.toNat)
      let scale := fun i => s16Value ((x.t.reg f.g.toNat).toNat / 2 ^ (16 * (i / 32)) % 2 ^ 16)
      some (convertSpec x h f (if dx || sx then [f.g.toNat] else [])
        (f.t.toNat ≤ 12 ∧ f.t2.toNat ≤ 12 ∧ ¬(dx = true ∧ sx = true) ∧ ((dx || sx) = true → f.gw = 0) ∧
          kindOk fm f.t [0, 1, 6] ∧ kindOk fm f.t2 [0, 1, 2, 6])
        fun v i => (typeFmt fm f.t.toNat).round f.rm.toNat (f.sat == 1)
          ((typeFmt fm f.t2.toNat).isInt && !dx && !sx)
          (if sx then Machine.Num.mul (v i) (scale i) else if dx then (v i).divScale (scale i) else v i))
  | .vdeq h f =>
      let fm := x.k.fmts
      let scale := fun i => s16Value ((x.t.reg f.g.toNat).toNat / 2 ^ (16 * (i / 32)) % 2 ^ 16)
      let phi := binary32.value ((x.t.reg (f.g.toNat + 1)).toNat % 2 ^ 32)
      some (convertSpec x h f [f.g.toNat, f.g.toNat + 1]
        (floatType f.t ∧ 9 ≤ f.t2.toNat ∧ f.t2.toNat ≤ 12 ∧ f.gw = 1 ∧ f.g.toNat % 2 = 0 ∧ kindOk fm f.t2 [0, 1, 2, 6])
        fun v i => (typeFmt fm f.t.toNat).round f.rm.toNat (f.sat == 1) false
          (Machine.Num.mul (Machine.Num.mul (v i) (scale i)) phi))
  | _ => none

/-- VQNT (R304): the values of the active elements of block `b`, and its scale. -/
def quantBlock (x : Cur) (f : FmtVX) (b : Nat) : List Machine.Num :=
  let fm := x.k.fmts
  let cv := convShape fm f.t.toNat f.t2.toNat f.vdw.toNat f.vaw.toNat
  ((List.range cv.n).filter fun i => decide (i / 32 = b) && laneActive (x.t.mask f.lm.toNat) (max cv.cd cv.cs) i).map fun i =>
    (typeFmt fm f.t2.toNat).value x.k.tableOf (elemAt x.k (f.va.toNat, f.vaw.toNat) cv.cs i)
def quantScale (x : Cur) (f : FmtVX) (b : Nat) : Nat :=
  blockScale (f.fn.getLsbD 0) (typeFmt x.k.fmts f.t.toNat) (quantBlock x f b)

/-- The codes of VQNT. -/
def quantSpec (x : Cur) (h : Head) (f : FmtVX) : VecSpec :=
  convertSpec x h f []
    (9 ≤ f.t.toNat ∧ f.t.toNat ≤ 12 ∧ floatType f.t2 ∧ f.gw = 0 ∧ kindOk x.k.fmts f.t [0, 1, 6])
    fun v i => if (quantBlock x f (i / 32)).any (· == .nan) then 0
      else (typeFmt x.k.fmts f.t.toNat).round f.rm.toNat (f.sat == 1) false
        ((v i).divScale (s16Value (quantScale x f (i / 32))))

/-- The functions of R301. -/
def vecFuncSpec : Instr → Option (Head × FmtV × (Machine.Num → Machine.Num))
  | .vrcp h f => some (h, f, Machine.Num.recip)
  | .vrsq h f => some (h, f, Machine.Num.rsqrt)
  | .vexp2 h f => some (h, f, Machine.Num.exp2)
  | .vlog2 h f => some (h, f, Machine.Num.log2)
  | _ => none

/-- Granules pending, each recorded with the executing slot (R118). -/
def GranulesPending (t : State) (x : Cur) (gs : List Nat) : Prop :=
  ∀ g ∈ gs, ∃ e ∈ (t.core x.c).rpend, e.1 = g ∧ e.2.slot = x.n

/-- The parts of a vector load or store: where each access goes and which bytes of the group it carries (R293). -/
structure VMemSpec where
  h : Head
  d : VOpd
  load : Bool
  reads : List VOpd
  regs : List Nat
  ok : Prop
  /-- Address, offset within the group, size, and active bytes of each access, in ascending order. -/
  parts : List (Nat × Nat × Nat × (Nat → Bool))

/-- The parts of a whole-register form: the registers with an active lane. -/
def wholeForm (x : Cur) (f : FmtVM) (ea : Word) : List (Nat × Nat × Nat × (Nat → Bool)) :=
  ((List.range (2 ^ f.vdw.toNat)).filter fun _ => x.t.mask f.lm.toNat != 0).map fun j =>
    ((ea + BitVec.ofNat 64 (64 * j)).toNat, 64 * j, 64, fun b => (x.t.mask f.lm.toNat).getLsbD (b / 4))

/-- The parts of an element form: the active elements. -/
def elementsForm (x : Cur) (w : Nat) (lm : BitVec 3) (bytes : Nat) (addr : Nat → Word) :
    List (Nat × Nat × Nat × (Nat → Bool)) :=
  ((List.range (64 * 2 ^ w / bytes)).filter fun i => laneActive (x.t.mask lm.toNat) (8 * bytes) i).map fun i =>
    ((addr i).toNat, i * bytes, bytes, fun b => decide (b < bytes))

/-- The address of format VM (R292). -/
def vmAddr (x : Cur) (f : FmtVM) : Word :=
  if f.x = 1 then x.t.reg f.a.toNat + x.t.reg f.b.toNat else x.t.reg f.a.toNat + BitVec.ofInt 64 f.off.toInt

/-- The vector memory forms of R292 and R293. -/
def vecMemSpec (x : Cur) : Instr → Option VMemSpec
  | .vld h f => some ⟨h, (f.vd.toNat, f.vdw.toNat), true, [], if f.x = 1 then [f.a.toNat, f.b.toNat] else [f.a.toNat], True,
      wholeForm x f (vmAddr x f)⟩
  | .vst h f => some ⟨h, (f.vd.toNat, f.vdw.toNat), false, [], if f.x = 1 then [f.a.toNat, f.b.toNat] else [f.a.toNat], True,
      wholeForm x f (vmAddr x f)⟩
  | .vlds h f => some ⟨h, (f.vd.toNat, f.vdw.toNat), true, [], [f.a.toNat, f.b.toNat], f.x = 0 ∧ plainType f.t,
      elementsForm x f.vdw.toNat f.lm (plainBits f.t / 8) fun i => vmAddr x f + BitVec.ofNat 64 i * x.t.reg f.b.toNat⟩
  | .vsts h f => some ⟨h, (f.vd.toNat, f.vdw.toNat), false, [], [f.a.toNat, f.b.toNat], f.x = 0 ∧ plainType f.t,
      elementsForm x f.vdw.toNat f.lm (plainBits f.t / 8) fun i => vmAddr x f + BitVec.ofNat 64 i * x.t.reg f.b.toNat⟩
  | .vgath h f => some ⟨h, (f.vd.toNat, 0), true, [(f.vi.toNat, 0)], [f.a.toNat],
      f.x = 0 ∧ f.vdw = 0 ∧ (f.t = 0 ∨ f.t = 3 ∨ f.t = 6),
      elementsForm x 0 f.lm 4 fun i =>
        vmAddr x f + BitVec.ofInt 64 (toSigned 32 (elemAt x.k (f.vi.toNat, 0) 32 i) * 2 ^ (f.fn.toNat % 4))⟩
  | .vscat h f => some ⟨h, (f.vd.toNat, 0), false, [(f.vi.toNat, 0)], [f.a.toNat],
      f.x = 0 ∧ f.vdw = 0 ∧ (f.t = 0 ∨ f.t = 3 ∨ f.t = 6),
      elementsForm x 0 f.lm 4 fun i =>
        vmAddr x f + BitVec.ofInt 64 (toSigned 32 (elemAt x.k (f.vi.toNat, 0) 32 i) * 2 ^ (f.fn.toNat % 4))⟩
  | _ => none

/-- The guard bit that a vector store brings to the line of a part: the OR of those of the source granules that have an active
element for the line (R295). -/
def partGuard (x : Cur) (m : VMemSpec) (p : Nat × Nat × Nat × (Nat → Bool)) : Bool :=
  !m.load && m.parts.any fun q =>
    decide (q.1 / 64 = p.1 / 64) && x.k.granGuard (granulesOf (x.k.vOff m.d.1 + q.2.1) q.2.2.1)

/-! Matrix and tensor instructions -/

/-- Granules that an entry of qm may take up: not pending for a writer outside qm of another slot, and not marked by the task
for a writer outside qm (R83, R240, R415). -/
def QueueReady (h : Head) (x : Cur) (gs : List Nat) : Prop :=
  ∀ g ∈ gs, (∀ p ∈ x.k.rpend, p.1 = g → p.2.slot = x.n ∨ ∃ q ∈ x.k.qm, q.id = p.2.by_) ∧
    (h.s = true ∨ ∀ m ∈ x.k.rmark, m.1 = g → m.2.slot = x.n → m.2.mq = true)

/-- Registers of the views exist (R115). -/
abbrev accOk (k : Core) (n : Nat) : Prop := n + 1 ≤ viewCount k.vwa
abbrev tileOk (k : Core) (n : BitVec 5) (wide : Bool) : Prop :=
  n.toNat + (if wide then 2 else 1) ≤ viewCount k.vwm ∧ (wide = true → n.toNat % 2 = 0)
abbrev vecOk (k : Core) (n : BitVec 7) (count : Nat) : Prop := n.toNat + count ≤ viewCount k.vwv

/-- Coordinates lie in the tensor's box, and c0 is a multiple (R321, R322). -/
def coordsOk (t : BitVec 1024) (c : List Nat) (multiple : Nat) : Prop :=
  (∀ d, d < 7 → c.getD d 0 < tSize t d) ∧ c.getD 0 0 % multiple = 0

/-- TA and TB of a multiply (R318): accepted codes and descriptors, both 16-bit or neither. -/
abbrev typesOk (k : Core) (f : FmtX) : Prop :=
  let ok := fun (t : BitVec 4) => t.toNat ∈ [1, 2, 5, 8, 9, 10, 11, 12] ∧
    (9 ≤ t.toNat → fdValid (k.fmts.getD (t.toNat - 9) 0) = true ∧ fdKind (k.fmts.getD (t.toNat - 9) 0) ∈ [0, 1, 2, 3, 4, 6])
  ok f.ta ∧ ok f.tb ∧ (typeBits k.fmts f.ta.toNat = 16 ↔ typeBits k.fmts f.tb.toNat = 16)

/-- The operands of a multiply exist (R323): `e` gives which of them is an aligned pair. -/
def multiplyOk (x : Cur) (f : FmtX) (e : QmEntry) (scaled : Bool) : Prop :=
  accOk x.k f.ad.toNat ∧ tileOk x.k f.ma e.wideA ∧ tileOk x.k f.mb e.wideB ∧
    (scaled = true → vecOk x.k f.vsa 1 ∧ vecOk x.k f.vsb 1) ∧ typesOk x.k f

/-- What an MQ instruction asks: its operation, the general registers it reads, and its own conditions, those on memory
included (R314, R315). -/
structure MqSpec where
  h : Head
  f : FmtX
  op : QmOp
  regs : List Nat
  ok : Prop

/-- The coordinates that a pair of general registers holds (R321). -/
def pairOfG (x : Cur) (f : FmtX) : List Nat :=
  pairCoords (x.t.reg f.g.toNat).toNat (x.t.reg ((f.g.toNat + 1) % 16)).toNat

/-- The MQ instructions of R320 to R326 and R330 to R334 that enter qm. -/
def mqSpec (s : State) (x : Cur) : Instr → Option MqSpec
  | .mzero h f => some ⟨h, f, .mzero, [], accOk x.k f.ad.toNat⟩
  | .mld h f =>
      let e := x.entry s .mld f
      some ⟨h, f, .mld, groupRegs f.g.toNat 1, f.g.toNat % 2 = 0 ∧ f.gw = 1 ∧ tileOk x.k f.ma false ∧ tDefined e.t1 = true ∧
        fdKind (tFd e.t1) ≠ 5 ∧ coordsOk e.t1 (pairOfG x f) (tileElems e.t1) ∧
        s.mqChecks x.cap x.c x.t.member .load (fun _ => false) e.mrRuns = []⟩
  | .mldSc h f =>
      let e := x.entry s .mldSc f
      some ⟨h, f, .mldSc, groupRegs f.g.toNat 1, f.g.toNat % 2 = 0 ∧ f.gw = 1 ∧ vecOk x.k f.vsa 1 ∧ tDefined e.t1 = true ∧
        fdKind (tFd e.t1) ≠ 5 ∧ tScaled e.t1 = true ∧ coordsOk e.t1 (pairOfG x f) (tileElems e.t1) ∧
        s.mqChecks x.cap x.c x.t.member .load (fun _ => false) e.mrRuns = []⟩
  | .mst h f =>
      let e := x.entry s .mst f
      some ⟨h, f, .mst, groupRegs f.g.toNat 1, f.g.toNat % 2 = 0 ∧ f.gw = 1 ∧ accOk x.k f.ad.toNat ∧ f.fn ≠ 3 ∧
        f.rm.toNat ≤ 4 ∧ tDefined e.t1 = true ∧ tScaled e.t1 = false ∧ fdKind (tFd e.t1) ≠ 2 ∧
        (f.fn.getLsbD 0 = true → fdKind (tFd e.t1) = 5) ∧ coordsOk e.t1 (pairOfG x f) 16 ∧
        s.mqChecks x.cap x.c x.t.member .store
          (rowsUnitGuard e.mwRuns fun i => x.k.predGuard [x.k.accGranule f.ad.toNat i]) e.mwRuns = []⟩
  | .mma h f => some ⟨h, f, .mma, [], multiplyOk x f (x.entry s .mma f) false⟩
  | .mmas h f => some ⟨h, f, .mmas, [], multiplyOk x f (x.entry s .mmas f) true⟩
  | .mmar h f =>
      let e := x.entry s .mmar f
      let i := (x.t.reg f.g.toNat).toNat % 2 ^ 15
      let group := (x.t.reg f.g.toNat).toNat / 2 ^ 16 % 2 ^ 8
      let o := (x.t.reg ((f.g.toNat + 1) % 16)).toNat % 2 ^ 17
      some ⟨h, f, .mmar, groupRegs f.g.toNat 1, f.g.toNat % 2 = 0 ∧ f.gw = 1 ∧ multiplyOk x f e (f.fn.getLsbD 0) ∧
        o % 64 = 0 ∧ o + (if e.wideB then 1024 else 512) ≤ x.cap.hdr.scratch ∧
        ∃ c, x.cap.coreOf? group i = some c ∧ (clusterOf c = clusterOf x.c ∨ clusterOf c = pairOf (clusterOf x.c))⟩
  | .macc h f => some ⟨h, f, .macc, [], accOk x.k f.ad.toNat ∧ accOk x.k (f.ma.toNat % 16) ∧
      ((f.ta = 0 ∧ f.rm.toNat ≤ 4) ∨ (f.ta = 3 ∧ f.rm = 0))⟩
  | .mtrn h f => some ⟨h, f, .mtrn, [], tileOk x.k f.ma false ∧ tileOk x.k f.mb false ∧ f.ta.toNat ∈ [1, 2, 4, 7]⟩
  | .mcode h f => some ⟨h, f, .mcode, [], vecOk x.k f.vsa 1⟩
  | .tqry h f => some ⟨h, f, .tqry, [], f.vsa.toNat % 2 = 0 ∧ vecOk x.k f.vsa 2⟩
  | _ => none

/-- Of the machine only the executing slot, the core's pending bits and marks, its engine queues and the numbering differ:
memory, register space, tensors, maps, state registers, other cores and accesses are as before. -/
def OnlyQueued (s t : State) (x : Cur) : Prop :=
  { t with cores := s.cores, serial := s.serial } = s ∧ SameMemory s t ∧ (∀ d, d ≠ x.c → t.core d = s.core d) ∧
    { t.core x.c with
      slots := (s.core x.c).slots, portCount := (s.core x.c).portCount, rmark := (s.core x.c).rmark
      rpend := (s.core x.c).rpend, qm := (s.core x.c).qm, q0 := (s.core x.c).q0, q1 := (s.core x.c).q1
      qn := (s.core x.c).qn, maps := (s.core x.c).maps } = s.core x.c ∧
    ∀ n, n % 8 ≠ x.n % 8 → (t.core x.c).slot n = (s.core x.c).slot n

/-- An entry `e` of the executing instruction has entered qm behind the others, with what R314 captures. -/
def EntersQm (s t : State) (x : Cur) (f : FmtX) (op : QmOp) (e : QmEntry) : Prop :=
  (t.core x.c).qm = x.k.qm ++ [e] ∧ (t.core x.c).q0 = x.k.q0 ∧ (t.core x.c).q1 = x.k.q1 ∧ (t.core x.c).qn = x.k.qn ∧
    (t.core x.c).maps = x.k.maps ∧ e.id = s.serial ∧ e.op = op ∧ e.f = f ∧ e.slot = x.n ∧ e.begun = false ∧
    e.fmts = x.k.fmts ∧ e.t1 = SMap.get 0 x.k.tensors f.tn.toNat ∧ e.t2 = SMap.get 0 x.k.tensors f.tn2.toNat ∧
    e.t3 = SMap.get 0 x.k.tensors f.tn3.toNat ∧
    e.g = (List.range 4).map (fun i => (x.t.reg ((f.g.toNat + i) % 16)).toNat) ∧
    GranulesPending t x (e.writes x.k)

/-! Tasks, packets and events -/

/-- The task goes on at `pc` as it was, but that TSR.SPAWN has counted `n` draws of a TID (R102). -/
def CountsSpawn (s t : State) (x : Cur) (pc n : Nat) : Prop :=
  let u := (t.slot x.c x.n).task
  OnlyPending s t x ∧ u.p = x.t.p ∧ u.lm = x.t.lm ∧ u.tid = x.t.tid ∧ OtherRegs x.t u [] ∧
    (∀ b, b < 44 → u.tsr.getLsbD b = x.t.tsr.getLsbD b) ∧ u.spawnOrd = (x.t.spawnOrd + n) % 2 ^ 20 ∧
    u.pc = BitVec.ofNat 64 pc ∧ (t.slot x.c x.n).pend = (s.slot x.c x.n).pend

/-- One packet has been sent by the executing task, behind every other: it is in the network, or held by a fence (R164). -/
def Sends (s t : State) (x : Cur) (p : Packet) (d cls : Nat) : Prop :=
  t.packets = s.packets ++ [p] ∧ p.id = s.serial ∧ p.inst = x.cap.inst ∧ p.src = x.c ∧ p.dest = d ∧ p.cls = cls ∧
    (p.state = .moving ∨ p.state = .held)

/-- The context of a child (R338): the group from g0 on, the join word at g15 with .j, and zero elsewhere. -/
def IsChild (x : Cur) (f : FmtW) (k : Task) : Prop :=
  k.pc = BitVec.ofNat 64 f.imm.toNat ∧ k.tid = mix x.t.tid x.t.spawnOrd ∧ k.tsr = BitVec.ofNat 64 x.t.member ∧
    k.p = Task.fresh.p ∧ k.lm = Task.fresh.lm ∧
    (∀ j, j < 2 ^ f.dw.toNat → k.reg j = x.t.reg (f.d.toNat + j) ∧ k.regGuard j = x.t.regGuard (f.d.toNat + j)) ∧
    (f.fn.getLsbD 0 = true → k.reg 15 = x.t.reg f.a.toNat ∧ k.regGuard 15 = x.t.regGuard f.a.toNat) ∧
    ∀ r, r < 16 → 2 ^ f.dw.toNat ≤ r → (r ≠ 15 ∨ f.fn.getLsbD 0 = false) → k.reg r = 0 ∧ k.regGuard r = false

/-- The role operand of formats T and W (R65, R235). -/
def roleOf (f : FmtT) (x : Cur) : Nat := if f.rx = 1 then (x.t.reg f.b.toNat).toNat else f.ri.toNat

/-- The active nonzero elements that SPSEND sends, each with its index; a floating zero of either sign is zero (R335). -/
def sentElems (x : Cur) (f : FmtVX) : List (Nat × Nat) :=
  let cb := plainBits f.t
  ((List.range (elemCount f.vaw.toNat cb)).map fun i => (elemAt x.k (f.va.toNat, f.vaw.toNat) cb i, i)).filter fun e =>
    laneActive (x.t.mask f.lm.toNat) cb e.2 &&
      if f.t.toNat ≤ 2 then decide (e.1 % 2 ^ (cb - 1) ≠ 0) else decide (e.1 ≠ 0)

/-- The slot of the executing task waits for a condition, its task as it was. -/
def Blocks (s t : State) (x : Cur) : Prop :=
  (∃ why, (t.slot x.c x.n).state = .blocked why) ∧ (t.slot x.c x.n).task = x.t ∧ SameMemory s t ∧
    t.accesses = s.accesses ∧ t.packets = s.packets

/-- A record of a fault has been sent to the supervisor core, as the newest packet of the capsule, or stands at its core behind the
faults that the core has detected before and not yet sent (R398, R400, R401). -/
def Records (s t : State) (inst disp : Nat) (i : FaultInfo) : Prop :=
  ∃ r late, r.info = i ∧ r.disp = disp ∧
    ((∃ p ∈ t.packets, s.serial ≤ p.id ∧ p.inst = inst ∧ p.cls = 3 ∧ p.body = .fault r late) ∨
      ∃ c, (t.core c).inst = some inst ∧ FaultItem.record r late ∈ (t.core c).faultQ)

/-- A packet that its destination's logic or queue may take (R85, R169, R224). -/
def Arrived (s : State) (p : Packet) : Prop :=
  s.packet? p.id = some p ∧ p.state = .moving ∧ s.packetParked p = false ∧ s.packetOvertakes p = false

/-- An access that has reached its home in its turn, meets no error and waits for no refresh (R148, R149, R155, R437). -/
def AtHome (s : State) (a : Access) : Prop :=
  s.access? a.id = some a ∧ a.state = .sent ∧ s.overtakes a = false ∧ s.destParked a = false ∧ s.isEviction a = false ∧
    s.isReturn a = false ∧ s.placeOf a < 2 ^ 64 ∧ s.reachable (s.placeOf a) = true ∧ s.linkReady a = true ∧
    s.bankBusy (s.placeOf a) = false ∧
    ∀ store, s.memError? (s.bearer a.inst) (s.homeNow a) (s.placeOf a) a.size store = none

/-- Bytes `lo` to `lo` + `data.length` - 1 of memory hold `data`, and every other byte is as before. -/
def MemoryStores (s t : State) (lo : Nat) (data : List Byte) : Prop :=
  (∀ i, i < data.length → readByte t.mem (lo + i) = data.getD i 0) ∧
    ∀ a, (a < lo ∨ lo + data.length ≤ a) → readByte t.mem a = readByte s.mem a

/-- What bearer `b` stores: bytes `lo` to `lo` + `data.length` - 1 of memory hold `data`, and every other byte is as before, but that
a scratchpad line which did not carry the tag of the bearer's instance reads zeros around the data (R160). -/
def MemoryStoresBy (s t : State) (b : Bearer) (lo : Nat) (data : List Byte) : Prop :=
  (∀ i, i < data.length → readByte t.mem (lo + i) = data.getD i 0) ∧
    ∀ a, (a < lo ∨ lo + data.length ≤ a) → readByte t.mem a =
      if devSpace lo = 2 ∧ s.resident b lo = false ∧ a / 64 = lo / 64 then 0 else readByte s.mem a

/-- The new value of an integer atomic on `w` bits, R280. -/
def atomicResult (fn w old src : Nat) : Nat :=
  let lesser := fun (signed : Bool) => if signed then decide (toSigned w old ≤ toSigned w src) else decide (old ≤ src)
  match fn with
  | 0 => (old + src) % 2 ^ w
  | 1 => old &&& src
  | 2 => old ||| src
  | 3 => old ^^^ src
  | 4 => if lesser true then old else src
  | 5 => if lesser true then src else old
  | 12 => if lesser false then old else src
  | 13 => if lesser false then src else old
  | _ => src

/-- The registers and BARs of the package answer: it is brought up, and its function is not in D3hot (R361, R375). -/
def HostAnswers (s : State) : Prop := s.host.ready = true ∧ s.d3hot = false

/-- The range and token of a window allow it to be enabled (R365). -/
def WindowFits (s : State) (w : Nat) : Prop :=
  let v := s.window w
  v.size ≠ 0 ∧ v.base % 2 ^ 21 = 0 ∧ v.size % 2 ^ 21 = 0 ∧ v.base + v.size ≤ 768 * 2 ^ 30 ∧
    (∀ e ∈ s.host.windows, e.1 ≠ w → e.2.en = true → v.base + v.size ≤ e.2.base ∨ e.2.base + e.2.size ≤ v.base) ∧
    (v.owner = 0 ∨ v.token = windowToken v.owner v.base v.size)

/-- The device error log has an entry of a unit, a location and a kind (R408). -/
def Logged (s : State) (unit location kind : Nat) : Prop :=
  ∃ e ∈ s.host.errlog, e.unit = unit ∧ e.location = location ∧ e.kind = kind

/-- Of the machine only the host registers, and the Plaza with its run lists, differ. -/
def OnlyHost (s t : State) : Prop := { t with host := s.host, plaza := s.plaza, capsules := s.capsules } = s

/-- A power state is entered: of the machine only the host registers and the Plaza differ, and die layers that GATED has left without
power count their local cycles anew (R130, R374). -/
def OnlyPowered (s t : State) : Prop :=
  OnlyHost { s with layers := if s.host.power = .gated then s.layers.map fun l => { l with cyc := 0 } else s.layers } t

/-! Elements in memory and in register space (R28, R116, R313) -/

/-- Bytes by number: of a capsule's address space, or of a core's register space. -/
abbrev Bytes := Nat → Byte

/-- The `w` bits from bit `b` on, bit 0 of the lowest byte first (R28). -/
def codeAt (f : Bytes) (b w : Nat) : Nat :=
  ((List.range w).map fun i => ((f ((b + i) / 8)).getLsbD ((b + i) % 8)).toNat * 2 ^ i).sum

/-- `n` bytes from `o` on. -/
def bytesFrom (f : Bytes) (o n : Nat) : List Byte := (List.range n).map fun i => f (o + i)

/-- Two spans, each a first bit and a count, share no bit. -/
abbrev apart (a b : Nat × Nat) : Prop := a.1 + a.2 ≤ b.1 ∨ b.1 + b.2 ≤ a.1

/-- Only bytes `lo` to `lo + n - 1` differ. -/
def SameBut (f g : Bytes) (lo n : Nat) : Prop := ∀ o, (o < lo ∨ lo + n ≤ o) → g o = f o

/-- The coordinates `i` further along dimension 0 and `j` further along dimension 1. -/
def shift (c : List Nat) (i j : Nat) : List Nat := (c.set 0 (c.getD 0 0 + i)).set 1 (c.getD 1 0 + j)

/-- The bits of an element of a tensor (R313). -/
def elemSpan (t : BitVec 1024) (c : List Nat) : Nat × Nat :=
  (8 * (tBase t + strideSum t (tStr t) c) + c.getD 0 0 * tBits t, tBits t)

/-- The code of an element, and the scale of its block (R313). -/
def elemOf (f : Bytes) (t : BitVec 1024) (c : List Nat) : Nat := codeAt f (elemSpan t c).1 (elemSpan t c).2
def scaleOf (f : Bytes) (t : BitVec 1024) (c : List Nat) : Nat := codeAt f (8 * scaleByte t c) 16

/-- The bytes of a capsule as memory holds them; `line` gives the device line of a 64-byte line of the capsule's address space. -/
def memView (s : State) (line : Nat → Nat) : Bytes := fun ca => readByte s.mem (64 * line (ca / 64) + ca % 64)

/-- The bytes of the runs `rs` stand in lines that an engine access reaches and can read as they stand: present (R142), not on a peer
(R370), not another owner's (R159), with the stock and residency tags of the capsule (R156, R160); and no write to the runs `ws` changes
a page vector that leads to them. -/
def Stands (s : State) (cap : Capsule) (member : Nat) (line : Nat → Nat) (ws rs : List Run) : Prop :=
  ∀ r ∈ rs, ∀ i, i < r.2 →
    let ca := r.1 + i
    let a := 64 * line (ca / 64) + ca % 64
    let plain := fun (b : Nat) => s.foreign cap.bearer.key b = false ∧ s.hidden cap.bearer b = false ∧
      (devSpace b = 2 → s.resident cap.bearer b = true)
    ∃ ext, s.engAt cap member ca = .at a ext ∧ a < 2 ^ 64 ∧ s.onPeer a = false ∧ plain a ∧
      ∀ e, ext = some e → e.sparse = true →
        let v := e.entryAddr ((ca - e.vbase) / 2 ^ 21)
        v % 8 = 0 ∧ plain v ∧ ∀ w ∈ ws, ∀ j, j < w.2 → line ((w.1 + j) / 64) ≠ v / 64

/-- No two lines of the runs `ws` are one line of the device. -/
def LinesApart (line : Nat → Nat) (ws : List Run) : Prop :=
  ∀ v ∈ ws, ∀ w ∈ ws, ∀ i j, i < v.2 → j < w.2 → line ((v.1 + i) / 64) = line ((w.1 + j) / 64) →
    (v.1 + i) / 64 = (w.1 + j) / 64

/-- Every bit of memory outside the spans `l` of the capsule's bits reads as before. -/
def OnlyBits (s t : State) (line : Nat → Nat) (l : List (Nat × Nat)) : Prop :=
  ∀ a i, i < 8 → (∀ ca, 64 * line (ca / 64) + ca % 64 = a → ∀ r ∈ l, apart (8 * ca + i, 1) r) →
    (readByte t.mem a).getLsbD i = (readByte s.mem a).getLsbD i

/-! Copies (R347-R354) -/

/-- What the issue of a copy has checked of its tensors and sizes (R347, R352-R354). -/
def CopyIssued (e : CopyEntry) : Prop :=
  (∀ c ∈ e.tensorFaults 0 0 0, c = none) ∧
    (∀ c ∈ e.limitFaults (fun _ => false) (fun _ => false) (fun _ => false) false, c = none) ∧ e.chunks = (e.bytes + 511) / 512

/-- The elements of chunk `b`, numbered in box order: those whose destination bits lie in bytes 512 `b` to 512 `b` + 511 (R347, R349). -/
def chunkElems (e : CopyEntry) (b : Nat) : List Nat :=
  (List.range (e.rows * e.rowElems)).filter fun m => decide (4096 * b ≤ m * tBits e.td ∧ m * tBits e.td < 4096 * (b + 1))

/-- Where element `m` of the box stands in the source and in the destination. -/
def srcElem (e : CopyEntry) (m : Nat) : List Nat := stepElem (e.srcCoords (m / e.rowElems)) (m % e.rowElems)
def dstElem (e : CopyEntry) (m : Nat) : List Nat := stepElem (e.dstCoords (m / e.rowElems)) (m % e.rowElems)

/-- Scales go with the chunk of the last byte (R349): the bits of those of each row. -/
def scaleSpans (e : CopyEntry) (b : Nat) : List (Nat × Nat) :=
  if b + 1 = e.chunks then (e.scaleRuns e.td e.dstCoords).map fun r => (8 * r.1, 8 * r.2) else []

/-- The bits that chunk `b` writes (R349, R350, R354). -/
def chunkSpans (e : CopyEntry) (b : Nat) : List (Nat × Nat) :=
  if e.kind = .cseal then [((elemSpan e.td e.dc).1 + 4096 * b, if b + 1 = e.chunks then 512 else 4096)]
  else (chunkElems e b).map (fun m => elemSpan e.td (dstElem e m)) ++ scaleSpans e b

/-- No other element of the chunk, nor a scale, takes bits of element `m` from it; of two pages of a CSCAT that name one destination
page the one of the higher n remains (R352). -/
def Remains (e : CopyEntry) (b m : Nat) : Prop :=
  let page := fun (i : Nat) => e.pageOf ⟨i / e.rowElems, 0, 1⟩
  (∀ n ∈ chunkElems e b, n ≠ m → apart (elemSpan e.td (dstElem e n)) (elemSpan e.td (dstElem e m)) ∨
    (e.kind = .cscat ∧ page n < page m)) ∧
    ∀ r ∈ scaleSpans e b, apart r (elemSpan e.td (dstElem e m))

/-- The destination element of a source element, R351: a container as it is between equal formats, else rounded. -/
def copiedElem (e : CopyEntry) (code : Nat) : Nat :=
  let f := fdFormat (tFd e.ts)
  if tFd e.ts = tFd e.td then code else (fdFormat (tFd e.td)).round e.rm e.sat f.isInt (f.value (fun _ => 0) code)

/-- The new value of a destination element of a CREDC, R353. -/
def reducedElem (e : CopyEntry) (old code : Nat) : Nat :=
  let op := e.fn % 8
  let int := fun (w : Nat) (sg : Bool) =>
    let a := codeInt w sg old
    let b := codeInt w sg code
    match op with
    | 0 => intCode w sg e.sat (a + b)
    | 1 => intCode w sg e.sat (min a b)
    | 2 => intCode w sg e.sat (max a b)
    | 3 => old % 2 ^ w &&& code % 2 ^ w
    | 4 => old % 2 ^ w ||| code % 2 ^ w
    | _ => old % 2 ^ w ^^^ code % 2 ^ w
  if e.fn / 8 % 2 = 1 then int 32 true
  else match fdFormat (tFd e.td) with
    | .int w sg => int w sg
    | .flt sp =>
      let v := (fdFormat (tFd e.ts)).value (fun _ => 0) code
      if op = 0 then sp.round e.rm e.sat (Machine.Num.add e.rm (sp.value old) v)
      else sp.round 0 false (Machine.Num.pick (op == 1) (sp.value old) (sp.value (sp.round e.rm e.sat v)))
    | _ => old

/-- What chunk `b` of COPY, CGATH, CSCAT or CREDC leaves in memory (R347, R350-R353): every element of the chunk that remains holds
its converted or combined source, and every scale its source's. Where the boxes share bytes the entry has kept its source rows, and the
value is the one kept, or the one that stands in the source before or after. -/
def ChunkCopied (s t : State) (line : Nat → Nat) (e : CopyEntry) (b : Nat) : Prop :=
  let f := memView s line
  let g := memView t line
  (∀ m ∈ chunkElems e b, Remains e b m →
    let at_ := elemSpan e.ts (srcElem e m)
    let src := elemOf f e.ts (srcElem e m)
    let new := elemOf g e.td (dstElem e m)
    let k := m / e.rowElems
    (e.kind = .credc → new = reducedElem e (elemOf f e.td (dstElem e m)) src % 2 ^ tBits e.td) ∧
    (e.kind ≠ .credc → e.kept = [] → new = copiedElem e src % 2 ^ tBits e.td) ∧
    (e.kind ≠ .credc → (∀ r ∈ scaleSpans e b, apart r at_) →
      (∀ n ∈ chunkElems e b, apart (elemSpan e.td (dstElem e n)) at_ ∨ (elemSpan e.td (dstElem e n) = at_ ∧ Remains e b n)) →
      ∃ v, new = copiedElem e v % 2 ^ tBits e.td ∧ (v = src ∨ v = elemOf g e.ts (srcElem e m) ∨
        ∃ row, (k, row) ∈ e.kept ∧
          v = codeAt (fun i => row.getD i 0) (elemPhase e.ts (e.srcCoords k) + m % e.rowElems * tBits e.ts) (tBits e.ts)))) ∧
  (tScaled e.td = true → b + 1 = e.chunks → ∀ (k : Nat) (r q : Run), (e.scaleRuns e.ts e.srcCoords)[k]? = some r →
    (e.scaleRuns e.td e.dstCoords)[k]? = some q →
    (∀ (l : Nat) (p : Run), (e.scaleRuns e.td e.dstCoords)[l]? = some p → l ≠ k → apart p q) →
    bytesFrom g q.1 q.2 = bytesFrom f r.1 r.2)

/-- The key of a CSEAL, R354. -/
def sealKey (owner label : Nat) : List Byte := kmac256 (ownerKey owner) (ascii "cseal" ++ leBytes 8 label) 64

/-- What chunk `b` of a CSEAL leaves in memory (R354): 512 bytes of ciphertext, or the trailer over the ciphertext that the entry has
written before. -/
def ChunkSealed (s t : State) (line : Nat → Nat) (cap : Capsule) (e : CopyEntry) (b : Nat) : Prop :=
  let k := sealKey cap.hdr.owner e.ge
  let text := e.kept.flatMap (·.2)
  let head := leBytes 8 e.ge ++ leBytes 8 text.length ++ List.replicate 16 0
  let dst := elemByte e.td e.dc + 512 * b
  (b + 1 < e.chunks → bytesFrom (memView t line) dst 512 =
    aesCtr (k.take 32) (32 * b) (bytesFrom (memView s line) (elemByte e.ts e.sc + 512 * b) 512)) ∧
  (b + 1 = e.chunks → bytesFrom (memView t line) dst 64 = head ++ kmac256 (k.drop 32) (text ++ head) 32)

/-! Tiles, accumulators and the matrix queue (R48-R51, R116, R318-R332, R480) -/

/-- Container `n` of row `r` of a tile of `w`-bit containers at `off`; those past a row stand in the second tile of a pair (R116, R318). -/
def tileCode (f : Bytes) (off w r n : Nat) : Nat :=
  codeAt f (8 * (off + 512 * (n / (256 / w)) + 32 * r) + n % (256 / w) * w) w

/-- Word (i, j) of an accumulator at `off` (R116). -/
def accWord (f : Bytes) (off i j : Nat) : Nat := codeAt f (8 * (off + 64 * i + 4 * j)) 32

/-- The scale of block `blk` of row `r` in the scale register at an offset; 1.0 where there is none (R48, R319). -/
def blockScaleOf (f : Bytes) (reg : Option Nat) (r blk : Nat) : Machine.Num :=
  match reg with
  | none => .fin 1 false
  | some o => s16Value (codeAt f (8 * (o + 4 * r + 2 * blk)) 16)

/-- An accumulator word after the block whose products are `ps` (R48-R50). -/
def accumulate (int : Bool) (acc : Nat) (ps : List Machine.Num) (sa sb : Machine.Num) : Nat :=
  let s := ps.foldl (Machine.Num.add 0) (.fin 0 false)
  if int then match s with
    | .fin q _ => wrapInt 32 ((acc : Int) + q.num)
    | _ => acc
  else
    let t32 := if s = .nan ∨ sa = .nan ∨ sb = .nan then binary32.nan
      else match s with
        | .fin q _ => if q = 0 then 0 else binary32.round 0 false (Machine.Num.mul (Machine.Num.mul s sa) sb)
        | _ => binary32.round 0 false s
    binary32.round 0 false (Machine.Num.add 0 (binary32.value acc) (binary32.value t32))

/-- Word (i, j) of the accumulator after a multiply, blocks in ascending k (R48, R323). -/
def mulWord (k : Core) (m : Mul) (f : Bytes) (i j : Nat) : Nat :=
  let n := if m.ca = 16 then 16 else 32
  (List.range (tileK m.ca m.cb / n)).foldl (fun acc blk =>
    accumulate m.int acc
      ((List.range n).map fun l => Machine.Num.mul (k.value m.fa (tileCode f m.ma m.ca i (n * blk + l)))
        (k.value m.fb (tileCode f m.mb m.cb j (n * blk + l))))
      (blockScaleOf f m.sa i blk) (blockScaleOf f m.sb j blk)) (accWord f m.ad i j)

/-- A multiply takes register space from `f` to `g`. -/
def Multiplies (k : Core) (m : Mul) (f g : Bytes) : Prop :=
  SameBut f g m.ad 1024 ∧ ∀ i j, i < 16 → j < 16 → accWord g m.ad i j = mulWord k m f i j

/-- MLD takes register space from `f` to `g` (R321): the elements of the tile as they stand in `v`, and 0 outside the tensor. -/
def LoadsTile (v f g : Bytes) (t : BitVec 1024) (c : List Nat) (off : Nat) : Prop :=
  SameBut f g off 512 ∧ ∀ r n, r < 16 → n < 256 / tBits t →
    tileCode g off (tBits t) r n =
      if c.getD 0 0 + n < tSize t 0 ∧ c.getD 1 0 + r < tSize t 1 then elemOf v t (shift c n r) % 2 ^ fdBits (tFd t) else 0

/-- MLD.sc takes register space from `f` to `g` (R321): the scales of two blocks of each row, and 0x7F00 outside the tensor. -/
def LoadsScales (v f g : Bytes) (t : BitVec 1024) (c : List Nat) (off : Nat) : Prop :=
  let n := fdBlock (tFd t)
  SameBut f g off 64 ∧ ∀ r blk, r < 16 → blk < 2 →
    codeAt g (8 * (off + 4 * r + 2 * blk)) 16 =
      if c.getD 0 0 + n * blk < tSize t 0 ∧ c.getD 1 0 + r < tSize t 1 then scaleOf v t (shift c (n * blk) r) else 0x7F00

/-- The elements of the tile of C at `c` that lie in the tensor, by row and column. -/
def tileInside (t : BitVec 1024) (c : List Nat) : List (Nat × Nat) :=
  ((List.range 256).map fun n => (n / 16, n % 16)).filter fun p =>
    decide (c.getD 0 0 + p.2 < tSize t 0 ∧ c.getD 1 0 + p.1 < tSize t 1)

/-- The element that a store makes of an accumulator word, R322. -/
def storedElem (t : BitVec 1024) (raw int : Bool) (rm : Nat) (sat : Bool) (x : Nat) : Nat :=
  if raw then x
  else if int then (fdFormat (tFd t)).round rm sat true (Machine.Num.ofRat (toSigned 32 x))
  else (fdFormat (tFd t)).round rm sat false (binary32.value x)

/-- MST stores the accumulator of `f` at `off` (R322): each element of the tensor that no other of the tile overlaps, and nothing
outside them. -/
def StoresTile (s t : State) (line : Nat → Nat) (f : Bytes) (tn : BitVec 1024) (c : List Nat) (off : Nat) (raw int : Bool)
    (rm : Nat) (sat : Bool) : Prop :=
  let span := fun (p : Nat × Nat) => elemSpan tn (shift c p.2 p.1)
  OnlyBits s t line ((tileInside tn c).map span) ∧
    ∀ p ∈ tileInside tn c, (∀ q ∈ tileInside tn c, q ≠ p → apart (span q) (span p)) →
      elemOf (memView t line) tn (shift c p.2 p.1) = storedElem tn raw int rm sat (accWord f off p.1 p.2) % 2 ^ tBits tn

/-- TA and TB of an entry are codes that R318 takes, with the formats captured at issue (R314). -/
def EntryTypes (e : QmEntry) : Prop :=
  let fd := fun (t : BitVec 4) => e.fmts.getD (t.toNat - 9) 0
  let ok := fun (t : BitVec 4) => t.toNat ∈ [1, 2, 5, 8, 9, 10, 11, 12] ∧
    (9 ≤ t.toNat → fdValid (fd t) = true ∧ fdKind (fd t) ∈ [0, 1, 2, 3, 4, 6])
  ok e.f.ta ∧ ok e.f.tb ∧ (typeBits e.fmts e.f.ta.toNat = 16 ↔ typeBits e.fmts e.f.tb.toNat = 16)

/-- The tensors and the block of an MMAT as its issue has checked them, and a step that is still to be taken (R327, R328). -/
def EntryBlock (e : QmEntry) : Prop :=
  tDefined e.t1 = true ∧ tScaled e.t1 = false ∧ fdKind (tFd e.t1) ≠ 2 ∧ tDefined e.t2 = true ∧ fdKind (tFd e.t2) ≠ 5 ∧
    tDefined e.t3 = true ∧ fdKind (tFd e.t3) ≠ 5 ∧ (tBits e.t2 = 16 ↔ tBits e.t3 = 16) ∧
    firstFault (blockFault e fun _ => false) = none ∧ e.step < e.steps

/-- A tile step loads an operand tile at `c`, its pair partner and its scales (R327, R328). -/
def LoadsOperand (v f g : Bytes) (t : BitVec 1024) (c : List Nat) (off : Nat) (wide : Bool) (scale : Option Nat) : Prop :=
  ∃ x y, LoadsTile v f x t c off ∧ (if wide then LoadsTile v x y t (shift c 32 0) (off + 512) else y = x) ∧
    match scale with
    | none => g = y
    | some o => LoadsScales v y g t c o

/-- The accumulator at the start of a tile step: 0, or under .acc the tile of C at `c` as binary32, or as integers (R328, R480). -/
def StartsTile (v f g : Bytes) (t : BitVec 1024) (c : List Nat) (off : Nat) (acc int : Bool) : Prop :=
  let ft := fdFormat (tFd t)
  SameBut f g off 1024 ∧ ∀ i j, i < 16 → j < 16 →
    let x := ft.value (fun _ => 0) (elemOf v t (shift c j i))
    accWord g off i j = if acc then (if int then (NFmt.int 32 true).round 0 false ft.isInt x else binary32.round 0 false x) else 0

/-- A tile step of MMAT takes register space from `f` to `g`, in ascending k (R328, R51). -/
def TileStep (v f g : Bytes) (k : Core) (e : QmEntry) : Prop :=
  let m := e.stepMul k
  let k0 := e.g.getD 2 0
  let kt := tileK m.ca m.cb
  let n := e.g.getD 3 0 / 2 ^ 32 % 2 ^ 16 / kt
  ∃ a : Nat → Bytes, StartsTile v f (a 0) e.t1 [e.tilePos.2, e.tilePos.1] m.ad (e.f.fn.getLsbD 0) m.int ∧ a n = g ∧
    ∀ i, i < n → ∃ b c, LoadsOperand v (a i) b e.t2 [k0 + i * kt, e.tilePos.1] m.ma m.wideA m.sa ∧
      LoadsOperand v b c e.t3 [k0 + i * kt, e.tilePos.2] m.mb m.wideB m.sb ∧ Multiplies k m c (a (i + 1))

end Sys2Proof
end

