-- ==== Sys2Proof/Certificates/Slice0/Obligations.lean ====
section
/-! DEFINITION. The statements for the provers. -/

open Sys2Proof
open Sys2Proof.Machine

/-- R250, R254, R255, R257, R260: an integer instruction that issues, with its registers unmarked, writes the low 64 bits of the exact
value of column x, the bitwise result or the count; LI, LIW, LEA in both forms, SEL and LMR write their value. Each writes its guard bit,
and changes no other register, no other core, no byte of memory and nothing else. -/
def Obligations.IntegerResults : Prop :=
  ∀ (i : Instr) (r : RegSpec) (s : State) (x : Cur),
    (arithmeticSpec i = some r ∨ logicSpec i = some r ∨ moveSpec i = some r) →
    Issues s r.h r.len x → Unmarked r.h x (r.d :: r.reads) →
    ∃ t, exec i s = .next t ∧ WritesReg s t x (x.pc + r.len) r.d (r.value x.t) (r.guard x.t)

/-- R252, R253: shifts and rotates by a register of any value or by an immediate, and bit fields, one that runs past bit 63
included; that a field of a length of 65 to 128, which R253 does not give, runs at all is the model's reading (log 18). -/
def Obligations.ShiftAndFieldResults : Prop :=
  ∀ (i : Instr) (r : RegSpec) (s : State) (x : Cur), (shiftSpec i = some r ∨ fieldSpec i = some r) →
    Issues s r.h r.len x → Unmarked r.h x (r.d :: r.reads) →
    ∃ t, exec i s = .next t ∧ WritesReg s t x (x.pc + r.len) r.d (r.value x.t) (r.guard x.t)

/-- R251, R82: DIV and REM complete with their destination pending and the quotient or remainder as the value of the result
that is to be written, every other register as it was. -/
def Obligations.DivisionResults : Prop :=
  ∀ (i : Instr) (r : RegSpec) (s : State) (x : Cur), divideSpec i = some r → Issues s r.h r.len x →
    Unmarked r.h x (r.d :: r.reads) →
    ∃ t q, exec i s = .next t ∧ LeavesPending s t x (x.pc + r.len) [r.d] ∧ t.accesses = s.accesses ∧
      t.results = s.results ++ [q] ∧ q.id = s.serial ∧ q.core = x.c ∧ q.slot = x.n ∧ q.dst = .regs r.d 1 8 false ∧
      q.parts = [some (leBytes 8 (r.value x.t).toNat, r.guard x.t)]

/-- R256: MOV copies each register of the source group with its guard bit to the register at the same position in the
destination group, and changes no other. -/
def Obligations.MoveGroup : Prop :=
  ∀ (h : Head) (f : FmtA) (s : State) (x : Cur), Issues s h 8 x → f.dw = f.aw →
    f.d.toNat % 2 ^ f.dw.toNat = 0 → f.a.toNat % 2 ^ f.aw.toNat = 0 →
    Unmarked h x (groupRegs f.d.toNat f.dw.toNat ++ groupRegs f.a.toNat f.aw.toNat) →
    ∃ t, exec (.mov h f) s = .next t ∧ GoesOn s t x (x.pc + 8) ∧ SameStatus x.t (t.slot x.c x.n).task ∧
      OtherRegs x.t (t.slot x.c x.n).task (groupRegs f.d.toNat f.dw.toNat) ∧
      ∀ j, j < 2 ^ f.dw.toNat →
        (t.slot x.c x.n).task.reg (f.d.toNat + j) = x.t.reg (f.a.toNat + j) ∧
        (t.slot x.c x.n).task.regGuard (f.d.toNat + j) = x.t.regGuard (f.a.toNat + j)

/-- R258, R259, R257, R108: CMP, CMPI and PSET write their predicate and its guard bit, and LMW the lane mask with its source's
guard bit, and nothing else; p7 reads 1. -/
def Obligations.PredicateAndMaskResults : Prop :=
  (∀ (i : Instr) (r : PredSpec) (s : State) (x : Cur), predSpec i = some r → Issues s r.h 8 x → Unmarked r.h x r.reads →
    ∃ t, exec i s = .next t ∧ WritesPred s t x (x.pc + 8) r.p (r.value x.t) (r.guard x.t)) ∧
  (∀ (h : Head) (f : FmtA) (s : State) (x : Cur), Issues s h 8 x → f.d.toNat < 8 → Unmarked h x [f.a.toNat] →
    ∃ t, exec (.lmw h f) s = .next t ∧
      WritesMask s t x (x.pc + 8) f.d.toNat (BitVec.ofNat 16 (x.t.reg f.a.toNat).toNat) (x.t.regGuard f.a.toNat))

/-- R231: a no-operation of 64, 96 or 128 bits changes nothing but the pc. -/
def Obligations.NoOperations : Prop :=
  ∀ (h : Head) (f : FmtN) (s : State) (x : Cur),
    (Issues s h 8 x → ∃ t, exec (.nop64 h f) s = .next t ∧ KeepsTask s t x (x.pc + 8)) ∧
    (Issues s h 12 x → ∃ t, exec (.nop96 h f) s = .next t ∧ KeepsTask s t x (x.pc + 12)) ∧
    (Issues s h 16 x → ∃ t, exec (.nop128 h f) s = .next t ∧ KeepsTask s t x (x.pc + 16))

/-- R262, R263: BRA and CALL go to their own offset plus 4 × OFF, BRX and RET to the value of their register; CALL writes pc + 8
to its link with a clear guard bit. LOOP decrements its counter, which keeps its guard bit, and branches while it is nonzero. None
changes anything else. -/
def Obligations.Transfers : Prop :=
  ∀ (h : Head) (f : FmtB) (e : FmtA) (s : State) (x : Cur), Issues s h 8 x →
    let a : Int := x.pc + 4 * f.off.toInt
    let valid := 0 ≤ a ∧ ValidTarget x.cap a.toNat
    (valid →
      (∃ t, exec (.bra h f) s = .next t ∧ KeepsTask s t x a.toNat) ∧
      (Unmarked h x [f.d.toNat] → ∃ t, exec (.call h f) s = .next t ∧
        WritesReg s t x a.toNat f.d.toNat (BitVec.ofNat 64 (x.pc + 8)) false)) ∧
    (ValidTarget x.cap (x.t.reg e.a.toNat).toNat → Unmarked h x [e.a.toNat] →
      (∃ t, exec (.brx h e) s = .next t ∧ KeepsTask s t x (x.t.reg e.a.toNat).toNat) ∧
      (∃ t, exec (.ret h e) s = .next t ∧ KeepsTask s t x (x.t.reg e.a.toNat).toNat)) ∧
    (Unmarked h x [f.d.toNat] →
      ((x.t.reg f.d.toNat).toNat ≠ 1 → valid →
        ∃ t, exec (.loop h f) s = .next t ∧ WritesReg s t x a.toNat f.d.toNat (low64 ((x.t.reg f.d.toNat).toNat - 1))
          (x.t.regGuard f.d.toNat)) ∧
      ((x.t.reg f.d.toNat).toNat = 1 →
        ∃ t, exec (.loop h f) s = .next t ∧ WritesReg s t x (x.pc + 8) f.d.toNat 0 (x.t.regGuard f.d.toNat)))

/-- R417, R399, R8: a transfer whose target is no multiple of 4 (DETAIL 1), is at or above 2^32 in a register (2), is at or above
CODELEN (3), or begins no instruction, an exact pc-relative target below 0 among them (4), faults with class 5, that DETAIL and the
target in AUX, and has no other effect: CALL and LOOP write no register. -/
def Obligations.InvalidTargetFaults : Prop :=
  ∀ (h : Head) (f : FmtB) (e : FmtA) (s : State) (x : Cur), Issues s h 8 x →
    let begins := fun a => beginsAt x.cap.code a 9 (a / 32 * 32)
    (let a : Int := x.pc + 4 * f.off.toInt
     ∀ detail aux : Nat,
      ((a < 0 ∧ detail = 4 ∧ aux = (a % 2 ^ 64).toNat) ∨
        (0 ≤ a ∧ aux = a.toNat ∧
          ((aux % 4 ≠ 0 ∧ detail = 1) ∨ (aux % 4 = 0 ∧ x.cap.hdr.codelen ≤ aux ∧ detail = 3) ∨
            (aux % 4 = 0 ∧ aux < x.cap.hdr.codelen ∧ begins aux = false ∧ detail = 4)))) →
      (∃ t, exec (.bra h f) s = .next t ∧ Faults s t x ⟨5, detail, aux, 0, false⟩) ∧
      (Unmarked h x [f.d.toNat] →
        (∃ t, exec (.call h f) s = .next t ∧ Faults s t x ⟨5, detail, aux, 0, false⟩) ∧
        ((x.t.reg f.d.toNat).toNat ≠ 1 → ∃ t, exec (.loop h f) s = .next t ∧ Faults s t x ⟨5, detail, aux, 0, false⟩))) ∧
    (Unmarked h x [e.a.toNat] →
      let a := (x.t.reg e.a.toNat).toNat
      ∀ detail : Nat,
      ((a % 4 ≠ 0 ∧ detail = 1) ∨ (a % 4 = 0 ∧ 2 ^ 32 ≤ a ∧ detail = 2) ∨
        (a % 4 = 0 ∧ a < 2 ^ 32 ∧ x.cap.hdr.codelen ≤ a ∧ detail = 3) ∨
        (a % 4 = 0 ∧ a < 2 ^ 32 ∧ a < x.cap.hdr.codelen ∧ begins a = false ∧ detail = 4)) →
      (∃ t, exec (.brx h e) s = .next t ∧ Faults s t x ⟨5, detail, a, 0, x.t.regGuard e.a.toNat⟩) ∧
      ∃ t, exec (.ret h e) s = .next t ∧ Faults s t x ⟨5, detail, a, 0, x.t.regGuard e.a.toNat⟩)

/-- R264, R267, R418, R401: EXIT ends the task at once: its slot is empty and its registers cease to exist, whatever results are
outstanding; no other slot of the core, no byte of memory and no access changes. TRAP and BKPT wait, parked, until their task has no
result outstanding; then they hold it with a record of class 1 or 2 that carries the code, its registers unchanged and its pc at the
instruction. -/
def Obligations.ExitAndTraps : Prop :=
  ∀ (h : Head) (f : FmtN) (s : State) (x : Cur), Issues s h 8 x →
    (∃ t, exec (.exit h f) s = .next t ∧ t.slot x.c x.n = Slot.fresh ∧ SameMemory s t ∧ t.accesses = s.accesses ∧
      t.results = s.results ∧ ∀ m, m % 8 ≠ x.n % 8 → t.slot x.c m = s.slot x.c m) ∧
    (x.k.outstanding x.n = false →
      (∃ t, exec (.trap h f) s = .next t ∧ Faults s t x ⟨1, f.imm.toNat, 0, 0, false⟩) ∧
      (∃ t, exec (.bkpt h f) s = .next t ∧ Faults s t x ⟨2, f.imm.toNat, 0, 0, false⟩)) ∧
    (x.k.outstanding x.n = true →
      (∃ t, exec (.trap h f) s = .next t ∧ (t.slot x.c x.n).state = .parked ∧ (t.slot x.c x.n).task = x.t ∧ SameMemory s t) ∧
      (∃ t, exec (.bkpt h f) s = .next t ∧ (t.slot x.c x.n).state = .parked ∧ (t.slot x.c x.n).task = x.t ∧ SameMemory s t))

/-- R265: MFS of a register of 64 bits writes its value and guard bit to gd; of CORE or TKB0 to TKB15, to the pair, low half
first. A number that R123 reserves faults with 4/12. A free value that the privileged view draws is counted (log 20). -/
def Obligations.StateRegisterRead : Prop :=
  ∀ (h : Head) (f : FmtS) (s : State) (x : Cur), Issues s h 8 x →
    Unmarked h x (groupRegs f.d.toNat f.dw.toNat) →
    (∀ v g, s.readSr x f.sr.toNat = some (v, g) → f.dw.toNat = (if srWide f.sr.toNat then 1 else 0) →
      f.d.toNat % 2 ^ f.dw.toNat = 0 →
      ∃ t, exec (.mfs h f) s = .next t ∧ GoesOn s { t with freeCount := s.freeCount } x (x.pc + 8) ∧
        SameStatus x.t (t.slot x.c x.n).task ∧
        OtherRegs x.t (t.slot x.c x.n).task (groupRegs f.d.toNat f.dw.toNat) ∧
        (t.slot x.c x.n).task.reg f.d.toNat = BitVec.ofNat 64 v ∧ (t.slot x.c x.n).task.regGuard f.d.toNat = g ∧
        (srWide f.sr.toNat = true → (t.slot x.c x.n).task.reg (f.d.toNat + 1) = BitVec.ofNat 64 (v / 2 ^ 64) ∧
          (t.slot x.c x.n).task.regGuard (f.d.toNat + 1) = g)) ∧
    (s.readSr x f.sr.toNat = none → f.dw = 0 → srWide f.sr.toNat = false →
      ∃ t, exec (.mfs h f) s = .next t ∧ Faults s t x ⟨4, 12, f.sr.toNat, 0, false⟩)

/-- R266, R124, R125, R126, R127, R134: MTS to BARTO, CLASSM, FMT0 to FMT3, HDL0 to HDL15 and, in a system capsule, CFGSEL, FRSEL and
BAYSEL writes the writable fields with the source's guard bit, and no other field: the reserved bits [8:0] of FMTn stay 0, and a MASK
bit of CLASSM is that of its HDLn. To TSR, TID, CORE, CAPS, CYC, DISC, WSPH, CHST, VWV, VWM, VWA, TKB0 to TKB15 and FREC it changes
nothing; a register that is not there faults with 4/12. -/
def Obligations.StateRegisterWrite : Prop :=
  ∀ (h : Head) (f : FmtS) (s : State) (x : Cur), Issues s h 8 x → Unmarked h x [f.d.toNat] →
    let n := f.sr.toNat
    let v := x.t.reg f.d.toNat
    let g := x.t.regGuard f.d.toNat
    let k := s.core x.c
    let writes := fun (t : State) (back : Core → Core) =>
      exec (.mts h f) s = .next t ∧ TaskKept s t x (x.pc + 8) ∧ OnlyCoreBut s t x back
    (n = 0x07 → ∃ t, writes t (fun l => { l with barto := k.barto, bartoGuard := k.bartoGuard }) ∧
      (t.core x.c).barto.toNat = v.toNat % 2 ^ 32 ∧ (t.core x.c).bartoGuard = g) ∧
    (n = 0x08 → ∃ t, writes t (fun l => { l with hdl := k.hdl }) ∧
      ∀ q (_ : q < 16), (t.core x.c).hdl[q] = { k.hdl[q] with mask := v.getLsbD q, maskGuard := g }) ∧
    (0x10 ≤ n ∧ n ≤ 0x13 → ∃ t, writes t (fun l => { l with fmt := k.fmt, fmtGuard := k.fmtGuard }) ∧
      ∀ q (_ : q < 4), if q = n % 4
        then (∀ b, b < 32 → ((t.core x.c).fmt[q]).getLsbD b = (decide (9 ≤ b) && v.getLsbD b)) ∧
          (t.core x.c).fmtGuard.getLsbD q = g
        else (t.core x.c).fmt[q] = k.fmt[q] ∧ (t.core x.c).fmtGuard.getLsbD q = k.fmtGuard.getLsbD q) ∧
    (0x20 ≤ n ∧ n ≤ 0x2F → ∃ t, writes t (fun l => { l with hdl := k.hdl }) ∧
      ∀ q (_ : q < 16), (t.core x.c).hdl[q] = if q = n % 16 then { k.hdl[q] with mask := v.getLsbD 33, maskGuard := g }
        else k.hdl[q]) ∧
    (s.isSystem x.cap = true →
      (n = 0x80 → ∃ t, writes t (fun l => { l with cfgsel := k.cfgsel, selGuard := k.selGuard }) ∧
        (t.core x.c).cfgsel.toNat = v.toNat % 2 ^ 32 ∧ (t.core x.c).selGuard.getLsbD 0 = g) ∧
      (n = 0x82 → ∃ t, writes t (fun l => { l with frsel := k.frsel, selGuard := k.selGuard }) ∧
        (t.core x.c).frsel.toNat = v.toNat % 2 ^ 32 ∧ (t.core x.c).selGuard.getLsbD 1 = g) ∧
      (n = 0x84 → ∃ t, writes t (fun l => { l with baysel := k.baysel, selGuard := k.selGuard }) ∧
        (t.core x.c).baysel.toNat = v.toNat % 2 ^ 32 ∧ (t.core x.c).selGuard.getLsbD 2 = g)) ∧
    ((n ≤ 6 ∨ n = 9 ∨ (0x0C ≤ n ∧ n ≤ 0x0E) ∨ (0x30 ≤ n ∧ n ≤ 0x40)) →
      ∃ t, exec (.mts h f) s = .next t ∧ KeepsTask s t x (x.pc + 8)) ∧
    (s.readSr x n = none → ∃ t, exec (.mts h f) s = .next t ∧ Faults s t x ⟨4, 12, n, 0, false⟩)

/-- R272, R276, R269, R82, R172: a load, store or tagged operation whose operands pass their checks, whose address an extent or window
takes in, and which gets an LSU place, sends one access for that address, size and data; LD, LDF, LDFE and FETST leave their destination
pending, and no byte of memory changes yet. Without a place the task waits in its slot. -/
def Obligations.LoadStoreIssue : Prop :=
  ∀ (i : Instr) (m : MemSpec) (s : State) (x : Cur) (g : Target), (plainSpec x.t i = some m ∨ taggedSpec x.t i = some m) →
    Issues s m.h m.len x → Unmarked m.h x (m.reads ++ m.pends) → m.ok → Numbered s →
    s.checkAccess x.cap x.c x.t.member m.ea m.size m.use m.word m.guard = .ok g →
    (HasPlace s x 1 → ∃ t, exec i s = .next t ∧ LeavesPending s t x (x.pc + m.len) m.pends ∧ HasAccess t x m g s.serial) ∧
    (LacksPlace s x 1 → ∃ t, exec i s = .next t ∧ WaitsForPlace s t x)

/-- R280, R281, R282, R104, R172: an atomic or reduction that gets an LSU place sends one indivisible access of kind A with its operand;
AMO, CAS and AMOF leave their destination pending; AMO, CAS, AMOF and REDF do so outside a deterministic capsule. Without a place the
task waits in its slot. -/
def Obligations.AtomicIssue : Prop :=
  ∀ (i : Instr) (m : MemSpec) (s : State) (x : Cur) (g : Target), atomicSpec x.t x.cap.hdr.det i = some m →
    Issues s m.h m.len x → Unmarked m.h x (m.reads ++ m.pends) → m.ok → Numbered s →
    s.checkAccess x.cap x.c x.t.member m.ea m.size m.use m.word m.guard = .ok g →
    (HasPlace s x 1 → ∃ t, exec i s = .next t ∧ LeavesPending s t x (x.pc + m.len) m.pends ∧ HasAccess t x m g s.serial) ∧
    (LacksPlace s x 1 → ∃ t, exec i s = .next t ∧ WaitsForPlace s t x)

/-- R275, R178, R179, R170, R171: LDA sends a load and opens the fence that holds later accesses of the ranges it names, which waits
for that load; STL sends its store held, to be released once the earlier accesses and engine entries that its ranges take in, and the
earlier STLs of its task, are complete at its scope. -/
def Obligations.AcquireReleaseIssue : Prop :=
  ∀ (h : Head) (f : FmtML) (s : State) (x : Cur) (g : Target), Issues s h 16 x → f.dw = 0 → ListDefined x.k f.list →
    Unmarked h x (addrReads f.toM ++ [f.d.toNat]) → Numbered s → HasPlace s x 1 →
    let l := listRanges x.k f.list
    (s.checkAccess x.cap x.c x.t.member (addrOf f.toM x.t) (2 ^ f.sz.toNat) .load false false = .ok g →
      ∃ t a fe, exec (.lda h f) s = .next t ∧ LeavesPending s t x (x.pc + 16) [f.d.toNat] ∧
        a ∈ t.accesses ∧ s.serial ≤ a.id ∧ a.core = x.c ∧ a.op = .load ∧ a.kind = .r ∧ a.ca = addrOf f.toM x.t ∧
        a.addr = g.addr ∧ a.size = 2 ^ f.sz.toNat ∧
        t.fences = s.fences ++ [fe] ∧ fe.isLda = true ∧ fe.core = x.c ∧ fe.slot = x.n ∧ fe.scope = f.sc.toNat ∧
        fe.waits = [a.id] ∧ fe.entries = [] ∧ fe.ranges = l) ∧
    (s.checkAccess x.cap x.c x.t.member (addrOf f.toM x.t) (2 ^ f.sz.toNat) .store (f.sz == 3) (x.t.regGuard f.d.toNat) = .ok g →
      ∃ t a waits, exec (.stl h f) s = .next t ∧ LeavesPending s t x (x.pc + 16) [] ∧ t.results = s.results ∧
        a ∈ t.accesses ∧ s.serial ≤ a.id ∧ a.core = x.c ∧ a.op = .store ∧ a.kind = .w ∧ a.ca = addrOf f.toM x.t ∧
        a.addr = g.addr ∧ a.size = 2 ^ f.sz.toNat ∧ a.data = leBytes (2 ^ f.sz.toNat) (x.t.reg f.d.toNat).toNat ∧
        a.guard = x.t.regGuard f.d.toNat ∧ (a.state = .held ∨ a.state = .unplaced) ∧ a.stl = some (f.sc.toNat, waits) ∧
        (∀ b ∈ s.accesses, s.ofCore x.c b = true → b.isLsu = true → b.op.isPref = false → inRanges l b.runs = true → b.id ∈ waits) ∧
        (∀ e ∈ x.k.copies, (inRanges l e.crRuns = true ∨ inRanges l e.boxRuns = true) → e.id ∈ waits) ∧
        (∀ e ∈ x.k.qm, ((e.mrRuns ≠ [] ∧ inRanges l e.mrRuns = true) ∨ (e.mwRuns ≠ [] ∧ inRanges l e.mwRuns = true)) → e.id ∈ waits) ∧
        ∀ b ∈ s.accesses, b.core = x.c → b.slot = x.n → b.slotSerial = (x.k.slot x.n).serial → b.opcode = 0x43 → b.id ∈ waits)

/-- R284, R175, R170: FENCE opens a fence of its scope that holds later accesses of its successor kinds until exactly those earlier
accesses and engine entries of its predecessor kinds that its ranges take in are complete: a copy counts by its source box as CR and by
its whole destination box as CW, an entry of qm by what it reads as MR and what it writes as MW. -/
def Obligations.FenceIssue : Prop :=
  ∀ (h : Head) (f : FmtF) (s : State) (x : Cur), Issues s h 12 x → ListDefined x.k f.list →
    let l := listRanges x.k f.list
    let p := fun k : Kind => f.pm.getLsbD k.bit = true
    ∃ t fe, exec (.fence h f) s = .next t ∧ TaskKept s t x (x.pc + 12) ∧
      OnlyCoreBut s { t with fences := s.fences, serial := s.serial } x id ∧
      t.fences = s.fences ++ [fe] ∧ fe.core = x.c ∧ fe.slot = x.n ∧ fe.isLda = false ∧ fe.scope = f.sc.toNat ∧ fe.succ = f.sm ∧
      (∀ n, n ∈ fe.waits ↔ ∃ b ∈ s.accesses, b.id = n ∧ s.ofCore x.c b = true ∧ b.isLsu = true ∧ b.op.isPref = false ∧ p b.kind ∧
        inRanges l b.runs = true) ∧
      ∀ n, n ∈ fe.entries ↔
        (∃ e ∈ x.k.copies, e.id = n ∧ ((p .cr ∧ inRanges l e.crRuns = true) ∨ (p .cw ∧ inRanges l e.boxRuns = true))) ∨
        ∃ e ∈ x.k.qm, e.id = n ∧ ((p .mr ∧ e.mrRuns ≠ [] ∧ inRanges l e.mrRuns = true) ∨
          (p .mw ∧ e.mwRuns ≠ [] ∧ inRanges l e.mwRuns = true))

/-- R285, R122, R171, R286, R174: TRACK binds a tracker to the range of its two registers, TRACKT to the footprint of a defined tensor,
and UNTRACK unbinds one; no other tracker and nothing else changes. QFENCE with at least two queues places one joining entry in them,
and changes nothing else. -/
def Obligations.TrackersAndQueueFence : Prop :=
  (∀ (h : Head) (f : FmtA) (s : State) (x : Cur), Issues s h 8 x →
      let others := fun t : State => TaskKept s t x (x.pc + 8) ∧
        OnlyCoreBut s t x (fun l => { l with trackers := (s.core x.c).trackers }) ∧
        ∀ n, n < 16 → n ≠ f.d.toNat → (t.core x.c).tracker n = x.k.tracker n
      (Unmarked h x [f.a.toNat, f.b.toNat] → ∃ t, exec (.track h f) s = .next t ∧ others t ∧
        (t.core x.c).tracker f.d.toNat =
          ⟨true, false, 0, (x.t.reg f.a.toNat).toNat % 2 ^ 48, (x.t.reg f.b.toNat).toNat % 2 ^ 48⟩) ∧
      (tDefined (SMap.get 0 x.k.tensors f.fn.toNat) = true → ∃ t, exec (.trackt h f) s = .next t ∧ others t ∧
        (t.core x.c).tracker f.d.toNat = ⟨true, true, f.fn.toNat, (footprint (SMap.get 0 x.k.tensors f.fn.toNat)).1,
          (footprint (SMap.get 0 x.k.tensors f.fn.toNat)).2⟩) ∧
      (∃ t, exec (.untrack h f) s = .next t ∧ others t ∧ ((t.core x.c).tracker f.d.toNat).bound = false)) ∧
  (∀ (h : Head) (f : FmtN) (s : State) (x : Cur), Issues s h 8 x →
      2 ≤ ((List.range 4).filter fun i => f.imm.getLsbD i).length →
      ∃ t, exec (.qfence h f) s = .next t ∧ TaskKept s t x (x.pc + 8) ∧
        OnlyCoreBut s { t with serial := s.serial } x (fun l => { l with joins := (s.core x.c).joins }) ∧
        (t.core x.c).joins = x.k.joins ++ [(s.serial, f.imm.extractLsb' 0 4)])

/-- R279, R172: PUT that gets an LSU place sends one access, on its class, that stores its register group with the group's guard bit to
the scratchpad of the core bound to a role; without a place the task waits in its slot. -/
def Obligations.PutIssue : Prop :=
  ∀ (h : Head) (f : FmtT) (s : State) (x : Cur) (c : Nat), Issues s h 8 x → f.d.toNat % 2 ^ f.dw.toNat = 0 →
    Unmarked h x ([f.a.toNat] ++ (if f.rx = 1 then [f.b.toNat] else []) ++ groupRegs f.d.toNat f.dw.toNat) →
    4 ≤ f.cls.toNat → (x.t.reg f.a.toNat).toNat % (8 * 2 ^ f.dw.toNat) = 0 →
    (x.t.reg f.a.toNat).toNat + 8 * 2 ^ f.dw.toNat ≤ x.cap.hdr.scratch →
    x.cap.coreOf? f.rk.toNat (roleOf f x) = some c → Numbered s →
    (HasPlace s x 1 →
      ∃ t a, exec (.put h f) s = .next t ∧ LeavesPending s t x (x.pc + 8) [] ∧ t.results = s.results ∧ a ∈ t.accesses ∧
        s.serial ≤ a.id ∧ a.core = x.c ∧ a.slot = x.n ∧ a.op = .put ∧ a.kind = .w ∧
        a.addr = scratchAddr s.pkgId c (x.t.reg f.a.toNat).toNat ∧ a.size = 8 * 2 ^ f.dw.toNat ∧ a.cls = f.cls.toNat ∧
        a.result = none ∧ a.data = ((groupRegs f.d.toNat f.dw.toNat).flatMap fun r => leBytes 8 (x.t.reg r).toNat) ∧
        a.guard = (groupRegs f.d.toNat f.dw.toNat).any x.t.regGuard) ∧
    (LacksPlace s x 1 → ∃ t, exec (.put h f) s = .next t ∧ WaitsForPlace s t x)

/-- R278: PREF of a line that a cache may hold sends one fetch without a destination; of any other line, or of an address that
does not pass its checks, it is discarded without any effect. It never faults on its address. -/
def Obligations.PrefetchIssue : Prop :=
  ∀ (h : Head) (f : FmtM) (s : State) (x : Cur), Issues s h 8 x → Unmarked h x (addrReads f) → f.fn.toNat < 3 → Numbered s →
    (∀ g, s.checkAccess x.cap x.c x.t.member (addrOf f x.t) 1 .load true false = .ok g →
      s.cacheable g.addr ((g.ext.map (·.msa)).getD false) = true →
      ∃ t a, exec (.pref h f) s = .next t ∧ LeavesPending s t x (x.pc + 8) [] ∧ a ∈ t.accesses ∧ s.serial ≤ a.id ∧
        a.op = .pref f.fn.toNat ∧ a.addr = g.addr ∧ a.result = none) ∧
    (∀ g, s.checkAccess x.cap x.c x.t.member (addrOf f x.t) 1 .load true false = .ok g →
      s.cacheable g.addr ((g.ext.map (·.msa)).getD false) = false →
      ∃ t, exec (.pref h f) s = .next t ∧ KeepsTask s t x (x.pc + 8)) ∧
    (∀ e, s.checkAccess x.cap x.c x.t.member (addrOf f x.t) 1 .load true false = .error e →
      ∃ t, exec (.pref h f) s = .next t ∧ KeepsTask s t x (x.pc + 8))

/-- R297, R298, R289, R291: an element-wise instruction whose operands are ready writes, in every active lane, the exact result
rounded once or narrowed once, or the logic or shift of its containers, with the guard bits of its sources, and leaves the inactive
elements, the rest of register space and every register of the task as they were. -/
def Obligations.VectorArithmetic : Prop :=
  ∀ (i : Instr) (m : VecSpec) (s : State) (x : Cur), (vecArithSpec x i = some m ∨ vecLogicSpec x i = some m) →
    Issues s m.h m.len x → VecReady m.h x m.reads [m.d] → m.ok → ∃ t, exec i s = .next t ∧ WritesVector s t x m

/-- R296, R300, R308, R309, R307, R310, R311, R303, R305, R302: lane moves, broadcast, insertion, iota, selection, permutation and
the fixed shuffles; the inclusive scan, the dot product per lane and the scaled row added into vd; VCVT and VDEQ write the code of each
active element, with the scale of its block and the factor, and zero past the last element of a narrow destination. The guard bit of a result through a
code table (log 47), a .x side that is clamped (log 48) and the sign of a zero dot product (log 49) are the model's readings. -/
def Obligations.VectorMoves : Prop :=
  ∀ (i : Instr) (m : VecSpec) (s : State) (x : Cur),
    (vecMoveSpec x i = some m ∨ vecCrossSpec x i = some m ∨ vecConvertSpec x i = some m) → Issues s m.h m.len x →
    Unmarked m.h x m.regs → VecReady m.h x m.reads [m.d] → m.ok → ∃ t, exec i s = .next t ∧ WritesVector s t x m

/-- R304: VQNT writes the codes of each block under the block's scale, and the scales, 16 bits each, to its general register. -/
def Obligations.VectorQuantize : Prop :=
  ∀ (h : Head) (f : FmtVX) (s : State) (x : Cur), Issues s h 12 x → Unmarked h x [f.g.toNat] →
    VecReady h x [(f.va.toNat, f.vaw.toNat)] [(f.vd.toNat, f.vdw.toNat)] → (quantSpec x h f).ok →
    ∃ t, exec (.vqnt h f) s = .next t ∧ OnlyVector s t x ∧ HoldsElements x.k (t.core x.c) (quantSpec x h f) ∧
      SameStatus x.t (t.slot x.c x.n).task ∧ OtherRegs x.t (t.slot x.c x.n).task [f.g.toNat] ∧
      (t.slot x.c x.n).task.pc = BitVec.ofNat 64 (x.pc + 12) ∧
      (t.slot x.c x.n).task.regGuard f.g.toNat = (quantSpec x h f).guard ∧
      ∀ b, b < (convShape x.k.fmts f.t.toNat f.t2.toNat f.vdw.toNat f.vaw.toNat).n / 32 →
        ((t.slot x.c x.n).task.reg f.g.toNat).toNat / 2 ^ (16 * b) % 2 ^ 16 = quantScale x f b

/-- R301, R82: VRCP, VRSQ, VEXP2 and VLOG2 leave their destination pending; the result to be written holds, in each active
element, the function's value rounded once: of VEXP2 and VLOG2, the value cut to the bits that the model computes (log 7, its choice). -/
def Obligations.VectorFunctions : Prop :=
  ∀ (i : Instr) (h : Head) (f : FmtV) (g : Machine.Num → Machine.Num) (s : State) (x : Cur),
    vecFuncSpec i = some (h, f, g) → Issues s h 8 x → f.vaw = f.vdw → floatType f.t → f.rm.toNat ≤ 4 →
    VecReady h x [(f.va.toNat, f.vaw.toNat)] [(f.vd.toNat, f.vdw.toNat)] →
    let cb := plainBits f.t
    let code := fun n => (typeFmt [] f.t.toNat).round f.rm.toNat (f.sat == 1) false
      (g ((typeFmt [] f.t.toNat).value x.k.tableOf (elemAt x.k (f.va.toNat, f.vaw.toNat) cb n)))
    ∃ t r cells, exec i s = .next t ∧ OnlyPending s t x ∧ TaskKept s t x (x.pc + 8) ∧
      GranulesPending t x (x.k.vGrans (f.vd.toNat, f.vdw.toNat)) ∧ t.accesses = s.accesses ∧
      t.results = s.results ++ [r] ∧ r.core = x.c ∧ r.slot = x.n ∧ r.dst = .space cells ∧
      ∀ n, n < elemCount f.vdw.toNat cb →
        (∃ m : BitVec 64, cells[n * cb / 512]? = some (x.k.vOff f.vd.toNat + 64 * (n * cb / 512), m) ∧
          ∀ b, b < cb / 8 → m.getLsbD (n * cb / 8 % 64 + b) = laneActive (x.t.mask f.lm.toNat) cb n) ∧
        (laneActive (x.t.mask f.lm.toNat) cb n = true → ∃ bytes, r.parts[n * cb / 512]? =
            some (some (bytes, x.k.vGuard (f.va.toNat, f.vaw.toNat))) ∧
          (bytes.drop (n * cb / 8 % 64)).take (cb / 8) = leBytes (cb / 8) (code n))

/-- R299, R296, R306: VCMP writes one bit for each lane, 0 where the guard's bit is 0; VEXT writes one element, sign-extended
for a signed type; VRED writes the reduction of the active elements. -/
def Obligations.VectorToTask : Prop :=
  (∀ (h : Head) (f : FmtV) (s : State) (x : Cur), Issues s h 8 x → f.vaw = 0 → f.vbw = 0 → f.fn.toNat % 8 ≤ 5 →
    f.vd.toNat < 8 → f.vdw = 0 → plainType f.t → f.rm.toNat ≤ 4 → (¬floatType f.t → f.rm = 0) → f.sat = 0 →
    VecReady h x [(f.va.toNat, 0), (f.vb.toNat, 0)] [] →
    ∃ t v, exec (.vcmp h f) s = .next t ∧
      WritesMask s t x (x.pc + 8) f.vd.toNat v (x.k.vGuard (f.va.toNat, 0) || x.k.vGuard (f.vb.toNat, 0)) ∧
      ∀ l, l < 16 → v.getLsbD l = ((x.t.mask f.lm.toNat).getLsbD l &&
        (laneProducts x (f.va.toNat, 0) (f.vb.toNat, 0) (plainBits f.t) l).all fun p =>
          compareElems (f.fn.toNat % 8) (typeFmt [] f.t.toNat) p.1 p.2)) ∧
  (∀ (h : Head) (f : FmtVX) (s : State) (x : Cur), Issues s h 12 x → plainType f.t → f.gw = 0 →
    f.imm.toNat < elemCount f.vaw.toNat (plainBits f.t) → Unmarked h x [f.g.toNat] →
    VecReady h x [(f.va.toNat, f.vaw.toNat)] [] →
    ∃ t, exec (.vext h f) s = .next t ∧ WritesReg s t x (x.pc + 12) f.g.toNat
      (low64 (codeInt (plainBits f.t) (decide (3 ≤ f.t.toNat ∧ f.t.toNat ≤ 5))
        (elemAt x.k (f.va.toNat, f.vaw.toNat) (plainBits f.t) f.imm.toNat)))
      (x.k.vGuard (f.va.toNat + f.imm.toNat * plainBits f.t / 512, 0))) ∧
  (∀ (h : Head) (f : FmtVX) (s : State) (x : Cur), Issues s h 12 x → plainType f.t → f.gw = 0 →
    foldOk (f.fn.toNat % 8) f.t → f.rm.toNat ≤ 4 → (¬floatType f.t → f.rm = 0) → Unmarked h x [f.g.toNat] →
    VecReady h x [(f.va.toNat, f.vaw.toNat)] [] →
    ∃ t, exec (.vred h f) s = .next t ∧ WritesReg s t x (x.pc + 12) f.g.toNat
      (reduceElems (f.fn.toNat % 8) (typeFmt [] f.t.toNat) f.rm.toNat (f.sat == 1)
        (foldInputs x (f.va.toNat, f.vaw.toNat) (f.fn.toNat % 8) f.t.toNat f.lm))
      (x.k.vGuard (f.va.toNat, f.vaw.toNat)))

/-- R292, R293, R294, R295, R118: VLD, VST, VLDS, VSTS, VGATH and VSCAT complete: a vector load or store whose parts all pass their checks
sends one access for each register or element with an active byte, numbered in ascending order. A load's accesses fill the parts of one result, which leaves its destination granules
pending; a store's carry the active bytes of its source and the guard bit of their line. With no active element it changes nothing: for a VLD,
and for its registers without an active byte, that is the model's reading (log 50). -/
def Obligations.VectorMemoryIssue : Prop :=
  ∀ (i : Instr) (m : VMemSpec) (s : State) (x : Cur) (gs : List Target), vecMemSpec x i = some m → Issues s m.h 12 x →
    Unmarked m.h x m.regs → m.ok → Numbered s →
    VecReady m.h x (m.reads ++ if m.load then [] else [m.d]) (if m.load then [m.d] else []) →
    gs.length = m.parts.length →
    (∀ (j : Nat) (p : Nat × Nat × Nat × (Nat → Bool)) (g : Target), m.parts[j]? = some p → gs[j]? = some g →
      s.checkAccess x.cap x.c x.t.member p.1 p.2.2.1 (if m.load then .load else .store) false (partGuard x m p) = .ok g) →
    let first := s.serial + if m.load then 1 else 0
    ∃ t, exec i s = .next t ∧ OnlyPending s t x ∧ TaskKept s t x (x.pc + 12) ∧
      (m.parts = [] → KeepsTask s t x (x.pc + 12)) ∧
      (m.load = false → t.results = s.results) ∧
      (m.load = true → m.parts ≠ [] → GranulesPending t x (x.k.vGrans m.d) ∧
        ∃ r cells, t.results = s.results ++ [r] ∧ r.id = s.serial ∧ r.core = x.c ∧ r.slot = x.n ∧ r.grans = x.k.vGrans m.d ∧
          r.parts = List.replicate m.parts.length none ∧ r.dst = .space cells ∧
          ∀ (j : Nat) (p : Nat × Nat × Nat × (Nat → Bool)), m.parts[j]? = some p →
            ∃ mask, cells[j]? = some (x.k.vOff m.d.1 + p.2.1, mask) ∧ ∀ b, b < p.2.2.1 → mask.getLsbD b = p.2.2.2 b) ∧
      ∀ (j : Nat) (p : Nat × Nat × Nat × (Nat → Bool)) (g : Target), m.parts[j]? = some p → gs[j]? = some g →
        ∃ a ∈ t.accesses, a.id = first + j ∧ a.core = x.c ∧ a.slot = x.n ∧ a.inst = x.cap.inst ∧ a.ca = p.1 ∧ a.addr = g.addr ∧
          a.size = p.2.2.1 ∧ a.op = (if m.load then .load else .store) ∧ a.kind = (if m.load then .r else .w) ∧
          a.guard = partGuard x m p ∧ a.result = (if m.load then some (s.serial, j) else none) ∧
          (m.load = false → a.data = ((x.k.vBytes m.d).drop p.2.1).take p.2.2.1 ∧
            ∀ b, b < p.2.2.1 → a.mask.getLsbD b = p.2.2.2 b)

/-- R314, R315, R118: an MQ instruction whose operands, types and memory pass their checks enters qm behind the earlier
entries, with the formats, tensors and registers as they are now, and leaves what it will write pending. No tile, register
or byte of memory changes yet. -/
def Obligations.MatrixIssue : Prop :=
  ∀ (i : Instr) (m : MqSpec) (s : State) (x : Cur), mqSpec s x i = some m → Issues s m.h 12 x → Unmarked m.h x m.regs →
    QueueReady m.h x ((x.entry s m.op m.f).reads x.k ++ (x.entry s m.op m.f).writes x.k) → m.ok →
    ∃ t e, exec i s = .next t ∧ OnlyQueued s t x ∧ TaskKept s t x (x.pc + 12) ∧ EntersQm s t x m.f m.op e ∧
      (m.op = .mmar → x.cap.coreOf? ((x.t.reg m.f.g.toNat).toNat / 2 ^ 16 % 2 ^ 8) ((x.t.reg m.f.g.toNat).toNat % 2 ^ 15) =
        some e.src)

/-- R327, R329: MMAT, with no earlier one of the task in progress, enters qm with its three tensors and its block, sets
TSR.STEP to 0 and is the task's MMAT in progress. -/
def Obligations.MacroMultiplyIssue : Prop :=
  ∀ (h : Head) (f : FmtX) (s : State) (x : Cur), Issues s h 12 x →
    let e0 := x.entry s .mmat f
    (∀ m, (x.k.slot x.n).mmat = some m → s.entryLive m = false) →
    Unmarked h x ((List.range 4).map fun i => (f.g.toNat + i) % 16) → f.g.toNat % 4 = 0 → f.gw = 2 → f.rm.toNat ≤ 4 →
    accOk x.k f.ad.toNat → tileOk x.k f.ma e0.matWideA → tileOk x.k f.mb e0.matWideB →
    (tScaled e0.t2 = true ∨ tScaled e0.t3 = true → vecOk x.k f.vsa 1 ∧ vecOk x.k f.vsb 1) →
    tDefined e0.t1 = true → tScaled e0.t1 = false → fdKind (tFd e0.t1) ≠ 2 → tDefined e0.t2 = true →
    fdKind (tFd e0.t2) ≠ 5 → tDefined e0.t3 = true → fdKind (tFd e0.t3) ≠ 5 → (tBits e0.t2 = 16 ↔ tBits e0.t3 = 16) →
    firstFault (blockFault e0 fun i => x.t.regGuard ((f.g.toNat + i) % 16)) = none → QueueReady h x (e0.reads x.k ++ e0.writes x.k) →
    s.mqChecks x.cap x.c x.t.member .load (fun _ => false) e0.mrRuns = [] →
    s.mqChecks x.cap x.c x.t.member .store (fun _ => s.runsGuarded x.cap x.t.member e0.mrRuns ||
      tablesGuard x.k.predTable (fdFormat (tFd e0.t2)) (fdFormat (tFd e0.t3))) e0.mwRuns = [] →
    ∃ t e, exec (.mmat h f) s = .next t ∧ OnlyQueued s t x ∧ EntersQm s t x f .mmat e ∧
      (t.slot x.c x.n).mmat = some e.id ∧ (t.slot x.c x.n).task.pc = BitVec.ofNat 64 (x.pc + 12) ∧
      OtherRegs x.t (t.slot x.c x.n).task [] ∧ (t.slot x.c x.n).task.p = x.t.p ∧ (t.slot x.c x.n).task.lm = x.t.lm ∧
      ∀ b, b < 64 → (t.slot x.c x.n).task.tsr.getLsbD b = if 24 ≤ b ∧ b < 44 then false else x.t.tsr.getLsbD b

/-- R333, R312: TDEF, once no source granule is pending, replaces one entry of the core's tensor table by the 128 bytes of its two
vector registers at issue; no other entry, and nothing else, changes. That the entry keeps its reserved bits as zeros is the model's
choice (log 80). -/
def Obligations.TensorDefine : Prop :=
  ∀ (h : Head) (f : FmtX) (s : State) (x : Cur) (v : BitVec 1024), Issues s h 12 x → f.vsa.toNat % 2 = 0 →
    vecOk x.k f.vsa 2 → (∀ p ∈ x.k.rpend, p.1 ∉ granulesOf (x.k.vOff f.vsa.toNat) 128) →
    (∀ g ∈ granulesOf (x.k.vOff f.vsa.toNat) 128, g ∉ x.k.badGrans) →
    (∀ b, b < 1024 → v.getLsbD b =
      (decide ¬((128 ≤ b ∧ b ≤ 136) ∨ (169 ≤ b ∧ b ≤ 191) ∨ (416 ≤ b ∧ b ≤ 447)) &&
        (x.k.spaceByte (x.k.vOff f.vsa.toNat + b / 8)).getLsbD (b % 8))) →
    (tDefined v = true ∨ tNdim v = 0) →
    ∃ t, exec (.tdef h f) s = .next t ∧ TaskKept s t x (x.pc + 12) ∧
      OnlyCoreBut s t x (fun l => { l with tensors := (s.core x.c).tensors }) ∧
      SMap.get 0 (t.core x.c).tensors f.tn.toNat = v ∧
      ∀ n, n ≠ f.tn.toNat → SMap.get 0 (t.core x.c).tensors n = SMap.get 0 x.k.tensors n

/-- R347, R348, R349: a copy whose operands, tensors, limits and memory pass their checks, with a free entry in its queue and
an idle map, enters its queue with what it names captured, and its map reads 0 in the bits of its chunks and 1 above. No byte
of memory changes yet. -/
def Obligations.CopyIssue : Prop :=
  ∀ (i : Instr) (kind : CopyKind) (h : Head) (f : FmtC) (s : State) (x : Cur),
    ((i = .copy h f ∧ kind = .copy) ∨ (i = .cgath h f ∧ kind = .cgath) ∨ (i = .cscat h f ∧ kind = .cscat) ∨
      (i = .credc h f ∧ kind = .credc) ∨ (i = .cseal h f ∧ kind = .cseal)) → Issues s h 16 x →
    let e0 := x.copyEntry s kind f
    let n := (e0.bytes + 511) / 512
    (x.k.copyQueue f.q.toNat).length < 16 → (∀ o ∈ x.k.copies, o.map ≠ f.d.toNat) →
    f.gd.toNat % 2 = 0 → f.gs.toNat % 2 = 0 → f.gx.toNat % 2 = 0 → f.gdw = 1 → f.gsw = 1 → f.gxw = 1 → f.rm.toNat ≤ 4 →
    Unmarked h x (groupRegs f.gd.toNat 1 ++ groupRegs f.gs.toNat 1 ++ groupRegs f.gx.toNat 1 ++ [f.ge.toNat]) →
    (kind = .credc → e0.reduceFnFault = none ∧ (e0.reducesInt = true → f.rm = 0) ∧
      (e0.reducesInt = false → x.cap.hdr.det = false)) →
    (∀ c ∈ e0.tensorFaults f.td.toNat f.ts.toNat f.ti.toNat, c = none) → (∀ c ∈ e0.limitFaults (x.pairGuard f.gs) (x.pairGuard f.gd) (x.pairGuard f.gx) (x.guard f.ge), c = none) →
    s.copyChecks x.cap x.c { e0 with chunks := n } = [] →
    ∃ t e, exec i s = .next t ∧ OnlyQueued s t x ∧ TaskKept s t x (x.pc + 16) ∧
      (t.core x.c).copyQueue f.q.toNat = x.k.copyQueue f.q.toNat ++ [e] ∧ (t.core x.c).qm = x.k.qm ∧
      e.id = s.serial ∧ e.kind = kind ∧ e.map = f.d.toNat ∧ e.chunks = n ∧ e.begun = false ∧ e.done = [] ∧
      e.td = SMap.get 0 x.k.tensors f.td.toNat ∧ e.ts = SMap.get 0 x.k.tensors f.ts.toNat ∧
      e.dc = pairCoords (x.t.reg f.gd.toNat).toNat (x.t.reg (f.gd.toNat + 1)).toNat ∧
      e.sc = pairCoords (x.t.reg f.gs.toNat).toNat (x.t.reg (f.gs.toNat + 1)).toNat ∧
      e.box = pairCoords (x.t.reg f.gx.toNat).toNat (x.t.reg (f.gx.toNat + 1)).toNat ∧
      (∀ b, b < 4096 → ((t.core x.c).map f.d.toNat).getLsbD b = decide (n ≤ b)) ∧
      ∀ m, m ≠ f.d.toNat → (t.core x.c).map m = x.k.map m

/-- R355, R83: CWAIT goes on when every bit that its mask names from its base on is set, and blocks its task otherwise;
CWAIT of a whole map needs every bit; CTEST reads one bit with a clear guard bit. -/
def Obligations.ChunkMapWaits : Prop :=
  ∀ (h : Head) (f : FmtA) (s : State) (x : Cur), Issues s h 8 x →
    let base := (x.t.reg f.b.toNat).toNat
    let mask := x.t.reg f.a.toNat
    let m := x.k.map f.c.toNat
    (Unmarked h x [f.a.toNat, f.b.toNat] → base % 64 = 0 → base < 4096 →
      ((∀ b, b < 64 → mask.getLsbD b = true → m.getLsbD (base + b) = true) →
        ∃ t, exec (.cwait h f) s = .next t ∧ KeepsTask s t x (x.pc + 8)) ∧
      (∀ b, b < 64 → mask.getLsbD b = true → m.getLsbD (base + b) = false →
        ∃ t, exec (.cwait h f) s = .next t ∧ (∃ why, (t.slot x.c x.n).state = .blocked why) ∧
          (t.slot x.c x.n).task = x.t ∧ SameMemory s t)) ∧
    ((∀ b, b < 4096 → m.getLsbD b = true) → ∃ t, exec (.cwaitAll h f) s = .next t ∧ KeepsTask s t x (x.pc + 8)) ∧
    (∀ b, b < 4096 → m.getLsbD b = false →
      ∃ t, exec (.cwaitAll h f) s = .next t ∧ (∃ why, (t.slot x.c x.n).state = .blocked why) ∧
        (t.slot x.c x.n).task = x.t ∧ SameMemory s t) ∧
    (Unmarked h x [f.b.toNat, f.d.toNat] → ∃ t, exec (.ctest h f) s = .next t ∧ WritesReg s t x (x.pc + 8) f.d.toNat
      (if m.getLsbD (base % 4096) then 1 else 0) false)

/-! Tasks -/

/-- R338, R339, R340, R102, R103: SPAWN sends one packet with a child on class 2 to the issuing core, or in promenade mode to a
replica of the child's segment, and SPAWNP to the role floor(TID × m / 2^64) of its group. The child holds the group from g0 on, its
join word and a TID of its own; the creator goes on, its registers unchanged, with TSR.SPAWN counted up. -/
def Obligations.TaskCreation : Prop :=
  ∀ (h : Head) (f : FmtW) (s : State) (x : Cur) (d : Nat), Issues s h 12 x → f.d.toNat % 2 ^ f.dw.toNat = 0 →
    Unmarked h x (groupRegs f.d.toNat f.dw.toNat ++ if f.fn.getLsbD 0 then [f.a.toNat] else []) →
    ValidTarget x.cap f.imm.toNat →
    ((if x.cap.hdr.prom = true ∧ inSegment x.k f.imm.toNat = false
        then x.cap.replica? x.c f.imm.toNat (mix x.t.tid x.t.spawnOrd) else some x.c) = some d →
      ∃ t p k, exec (.spawn h f) s = .next t ∧ CountsSpawn s t x (x.pc + 12) 1 ∧ Sends s t x p d 2 ∧
        p.parks = true ∧ p.leaves = false ∧ p.body = .task k none false ∧ IsChild x f k) ∧
    (0 < x.cap.groupSize f.rk.toNat →
      x.cap.coreOf? f.rk.toNat ((mix x.t.tid x.t.spawnOrd).toNat * x.cap.groupSize f.rk.toNat / 2 ^ 64) = some d →
      ∃ t p k, exec (.spawnp h f) s = .next t ∧ CountsSpawn s t x (x.pc + 12) 1 ∧ Sends s t x p d 2 ∧
        p.parks = true ∧ p.leaves = false ∧ p.body = .task k none false ∧ IsChild x f k)

/-- R341, R335, R403, R102: SEND sends the words of its group to a role on its class, with the TID drawn for the task that it starts;
from the core of the supervisor role it sends a resume packet of one to four words on class 3, which draws none (of a group of eight, the
first four: log 90, the model's choice), and from any other core class 3 faults with 4/17. SPSEND sends one message for each active nonzero element, in ascending order. -/
def Obligations.MessagesSent : Prop :=
  (∀ (h : Head) (f : FmtT) (s : State) (x : Cur) (d : Nat), Issues s h 8 x → f.d.toNat % 2 ^ f.dw.toNat = 0 →
    Unmarked h x ((if f.rx = 1 then [f.b.toNat] else []) ++ groupRegs f.d.toNat f.dw.toNat) →
    x.cap.coreOf? f.rk.toNat (roleOf f x) = some d →
    let words := (groupRegs f.d.toNat f.dw.toNat).map fun r => (x.t.reg r, x.t.regGuard r)
    (4 ≤ f.cls.toNat → ∃ t p, exec (.send h f) s = .next t ∧ CountsSpawn s t x (x.pc + 8) 1 ∧
      Sends s t x p d f.cls.toNat ∧ p.body = .message (mix x.t.tid x.t.spawnOrd).toNat x.t.member words) ∧
    (x.k.role = x.cap.hdr.super → ∃ t p, exec (.sendResume h f) s = .next t ∧ CountsSpawn s t x (x.pc + 8) 0 ∧
      Sends s t x p d 3 ∧ p.body = .resume (words.take 4)) ∧
    (x.k.role ≠ x.cap.hdr.super → ∃ t, exec (.sendResume h f) s = .next t ∧ Faults s t x ⟨4, 17, 0, 0, false⟩)) ∧
  (∀ (h : Head) (f : FmtVX) (s : State) (x : Cur) (d : Nat), Issues s h 12 x → plainType f.t → f.gw = 0 → 4 ≤ f.cls.toNat →
    Unmarked h x [f.g.toNat] → VecReady h x [(f.va.toNat, f.vaw.toNat)] [] →
    x.cap.coreOf? f.rk.toNat ((x.t.reg f.g.toNat).toNat % 2 ^ 15) = some d →
    let base := (x.t.reg f.g.toNat).toNat / 2 ^ 32 % 2 ^ 16
    ∃ t ps, exec (.spsend h f) s = .next t ∧ CountsSpawn s t x (x.pc + 12) (sentElems x f).length ∧
      t.packets = s.packets ++ ps ∧ ps.length = (sentElems x f).length ∧
      ∀ (n : Nat) (p : Packet) (e : Nat × Nat), ps[n]? = some p → (sentElems x f)[n]? = some e →
        p.id = s.serial + n ∧ p.dest = d ∧ p.cls = f.cls.toNat ∧
        p.body = .message (mix x.t.tid ((x.t.spawnOrd + n) % 2 ^ 20)).toNat x.t.member
          [(BitVec.ofNat 64 (e.1 + (base + e.2) % 2 ^ 16 * 2 ^ 32),
            x.k.vGuard (f.va.toNat + e.2 * plainBits f.t / 512, 0))])

/-- R342, R343, R181, R172: JOIN sends one LDFE for each word of its group, in ascending address, and leaves the group pending; JOIN.ret
sends its result with STF and ends the task; either waits in its slot without LSU places for what it sends. GO, outside promenade mode,
makes its task depart, with the pc at the next instruction, for the core that homes the address. GO in promenade mode faults with
4/16. -/
def Obligations.JoinsAndMigration : Prop :=
  ∀ (h : Head) (f : FmtT) (s : State) (x : Cur), Issues s h 8 x → Numbered s →
    (∀ g : Target, let ea := (x.t.reg f.a.toNat).toNat
      let n := 2 ^ f.dw.toNat
      f.d.toNat % n = 0 → Unmarked h x ([f.a.toNat] ++ groupRegs f.d.toNat f.dw.toNat) → windowOf ea = .scratch →
      ea < 2 ^ 48 → ea % (8 * n) = 0 → s.checkAccess x.cap x.c x.t.member ea (8 * n) .load false false = .ok g →
      (HasPlace s x n →
        ∃ t r, exec (.join h f) s = .next t ∧ LeavesPending s t x (x.pc + 8) (groupRegs f.d.toNat f.dw.toNat) ∧
          t.results = s.results ++ [r] ∧ r.core = x.c ∧ r.slot = x.n ∧ r.dst = .regs f.d.toNat n 8 false ∧
          r.parts = List.replicate n none ∧
          ∀ j, j < n → ∃ a ∈ t.accesses, a.id = r.id + 1 + j ∧ a.core = x.c ∧ a.slot = x.n ∧ a.op = .ldfe ∧ a.kind = .f ∧
            a.ca = ea + 8 * j ∧ a.addr = g.addr + 8 * j ∧ a.size = 8 ∧ a.result = some (r.id, j)) ∧
      (LacksPlace s x n → ∃ t, exec (.join h f) s = .next t ∧ WaitsForPlace s t x)) ∧
    (∀ g : Target, let ea := (x.t.reg 15).toNat
      Unmarked h x [f.d.toNat, 15] → windowOf ea = .scratch → ea < 2 ^ 48 → ea % 8 = 0 →
      s.checkAccess x.cap x.c x.t.member ea 8 .store false (x.t.regGuard f.d.toNat) = .ok g →
      (HasPlace s x 1 →
        ∃ t a, exec (.joinRet h f) s = .next t ∧ t.slot x.c x.n = Slot.fresh ∧ SameMemory s t ∧ a ∈ t.accesses ∧
          s.serial ≤ a.id ∧ a.core = x.c ∧ a.op = .stf ∧ a.kind = .f ∧ a.ca = ea ∧ a.addr = g.addr ∧ a.size = 8 ∧
          a.data = leBytes 8 (x.t.reg f.d.toNat).toNat ∧ a.guard = x.t.regGuard f.d.toNat) ∧
      (LacksPlace s x 1 → ∃ t, exec (.joinRet h f) s = .next t ∧ WaitsForPlace s t x)) ∧
    (∀ d, x.k.outstanding x.n = false → x.cap.hdr.prom = false →
      s.goTarget x.cap x.c x.t.member (x.t.reg f.a.toNat).toNat x.t.tid = .ok d →
      ∃ t, exec (.go h f) s = .next t ∧ (t.slot x.c x.n).state = .departing ∧
        (t.slot x.c x.n).depart = some ⟨d, true, x.pc⟩ ∧ TaskKept s t x (x.pc + 8) ∧ OnlyCoreBut s t x id) ∧
    (x.k.outstanding x.n = false → x.cap.hdr.prom = true →
      ∃ t, exec (.go h f) s = .next t ∧ Faults s t x ⟨4, 16, 0, 0, false⟩) ∧
    (x.k.outstanding x.n = true →
      ∃ t, exec (.go h f) s = .next t ∧ (t.slot x.c x.n).state = .parked ∧ (t.slot x.c x.n).task = x.t ∧ OnlyCore s t x.c)

/-- R344, R345, R87, R125, R82: CHSEND writes its register with its guard bit into the opposite channel of its neighbour and goes on;
CHRECV takes the oldest word of its own channel and goes on with its destination pending. Each blocks its task, as it was, while the
channel is full or empty, CHSEND also while the neighbour's role is parked; and each faults with 4/15 where there is no neighbour, or
one that neither belongs to the capsule nor is a parked role of it. CHMASK sets one class's MASK bit, with a clear guard bit. Nothing
else changes. -/
def Obligations.ChannelsAndMasks : Prop :=
  (∀ (h : Head) (f : FmtA) (s : State) (x : Cur), Issues s h 8 x → Unmarked h x [f.d.toNat] →
    let ch := f.fn.toNat % 4
    let o := (ch + 2) % 4
    (∀ d, neighbour? x.c ch = some d → d ≠ x.c →
      ((s.core d).inst = some x.cap.inst → s.parkedAt x.c d = false → ((s.core d).channel o).length < 4 →
        ∃ t, exec (.chsend h f) s = .next t ∧ TaskKept s t x (x.pc + 8) ∧ OnlyCoreBut s (t.setCore d (s.core d)) x id ∧
          t.core d = (s.core d).setChannel o ((s.core d).channel o ++ [(x.t.reg f.d.toNat, x.t.regGuard f.d.toNat)])) ∧
      (((s.core d).inst = some x.cap.inst ∧ 4 ≤ ((s.core d).channel o).length) ∨ s.parkedAt x.c d = true →
        ∃ t, exec (.chsend h f) s = .next t ∧ (t.slot x.c x.n).state = .blocked (.channelFull ch) ∧
          (t.slot x.c x.n).task = x.t ∧ OnlyCoreBut s t x id)) ∧
    (∀ d, neighbour? x.c ch = some d → (s.core d).inst = some x.cap.inst ∨ s.parkedAt x.c d = true →
      (∀ v g rest, x.k.channel ch = (v, g) :: rest →
        ∃ t q, exec (.chrecv h f) s = .next t ∧ (t.core x.c).channel ch = rest ∧
          LeavesPending s (t.setCore x.c ((t.core x.c).setChannel ch (x.k.channel ch))) x (x.pc + 8) [f.d.toNat] ∧
          t.accesses = s.accesses ∧ t.results = s.results ++ [q] ∧ q.core = x.c ∧ q.slot = x.n ∧
          q.dst = .regs f.d.toNat 1 8 false ∧ q.parts = [some (leBytes 8 v.toNat, g)]) ∧
      (x.k.channel ch = [] →
        ∃ t, exec (.chrecv h f) s = .next t ∧ (t.slot x.c x.n).state = .blocked (.channelEmpty ch) ∧
          (t.slot x.c x.n).task = x.t ∧ OnlyCoreBut s t x id)) ∧
    ((∀ d, neighbour? x.c ch = some d → (s.core d).inst ≠ some x.cap.inst ∧ s.parkedAt x.c d = false) →
      (∃ t, exec (.chsend h f) s = .next t ∧ Faults s t x ⟨4, 15, ch, 0, false⟩) ∧
      ∃ t, exec (.chrecv h f) s = .next t ∧ Faults s t x ⟨4, 15, ch, 0, false⟩)) ∧
  (∀ (h : Head) (f : FmtN) (s : State) (x : Cur), Issues s h 8 x →
    ∃ t, exec (.chmask h f) s = .next t ∧ TaskKept s t x (x.pc + 8) ∧
      OnlyCoreBut s t x (fun l => { l with hdl := (s.core x.c).hdl }) ∧
      ∀ q (_ : q < 16), (t.core x.c).hdl[q] =
        if q = f.imm.toNat % 16 then { x.k.hdl[q] with mask := f.imm.getLsbD 4, maskGuard := false } else x.k.hdl[q])

/-- R346, R92, R454, R266: BARA records the first arrival of its core in the phase, which takes an unclaimed completion with it, and
goes on; it does nothing more where the core has arrived, or the barrier is broken. BAR arrives and then waits; BARW waits. The wait of
a task passes at once, with status 2, at a broken barrier, and for BARW with the status of a completion unclaimed since the core's last
arrival, which it claims; otherwise it blocks the task, from now on under BARTO.LIMIT; and once the wait has ended BAR and BARW write its
status to their register with a clear guard bit and go on. A core that is no member of the group faults with 4/14, whose AUX has index 0
and the group (log 60, the model's reading). An arrival is recorded at once even behind an open FENCE (log 91, the model's choice). -/
def Obligations.BarrierInstructions : Prop :=
  ∀ (h : Head) (f : FmtT) (s : State) (x : Cur), Issues s h 8 x →
    let n := f.rk.toNat
    let frame := fun (t : State) =>
      OnlyCoreBut s { t with capsules := s.capsules, packets := s.packets, serial := s.serial } x
        (fun l => { l with members := (s.core x.c).members }) ∧
      ∀ k, k ≠ n → (t.core x.c).membership? k = x.k.membership? k
    let goes := fun (t : State) (status : Nat) => frame t ∧ SameStatus x.t (t.slot x.c x.n).task ∧
      OtherRegs x.t (t.slot x.c x.n).task [f.d.toNat] ∧ (t.slot x.c x.n).task.reg f.d.toNat = BitVec.ofNat 64 status ∧
      (t.slot x.c x.n).task.regGuard f.d.toNat = false ∧ (t.slot x.c x.n).bar = none ∧
      (t.slot x.c x.n).task.pc = BitVec.ofNat 64 (x.pc + 8)
    let waits := fun (t : State) => frame t ∧ (t.slot x.c x.n).state = .blocked (.barrier n) ∧ (t.slot x.c x.n).task = x.t ∧
      (t.slot x.c x.n).bar = some ⟨n, s.cycOf x.c, x.k.barto.toNat, none⟩
    (∀ m g, x.k.membership? n = some m → x.cap.groups[n]? = some g →
      let arrived : Membership := { m with arrived := true, unclaimed := false, everArrived := true, abandoned := false }
      (g.broken = false → m.arrived = false →
        ∃ t, exec (.bara h f) s = .next t ∧ TaskKept s t x (x.pc + 8) ∧ frame t ∧ (t.core x.c).membership? n = some arrived) ∧
      (g.broken = true ∨ m.arrived = true → ∃ t, exec (.bara h f) s = .next t ∧ KeepsTask s t x (x.pc + 8)) ∧
      ((s.slot x.c x.n).bar = none → Unmarked h x [f.d.toNat] →
        (g.broken = false → ∃ t, exec (.bar h f) s = .next t ∧ waits t ∧
          (t.core x.c).membership? n = some (if m.arrived then m else arrived)) ∧
        (g.broken = false → m.arrived = false → m.unclaimed = true → ∃ t, exec (.barw h f) s = .next t ∧ goes t m.status ∧
          (t.core x.c).membership? n = some { m with unclaimed := false }) ∧
        (g.broken = false → m.arrived = true ∨ m.unclaimed = false →
          ∃ t, exec (.barw h f) s = .next t ∧ waits t ∧ (t.core x.c).membership? n = some m) ∧
        (g.broken = true →
          (∃ t, exec (.bar h f) s = .next t ∧ goes t 2) ∧ ∃ t, exec (.barw h f) s = .next t ∧ goes t 2))) ∧
    (∀ m b status, x.k.membership? n = some m → (s.slot x.c x.n).bar = some b → b.result = some status →
      Unmarked h x [f.d.toNat] →
      (∃ t, exec (.bar h f) s = .next t ∧ goes t status) ∧ ∃ t, exec (.barw h f) s = .next t ∧ goes t status) ∧
    (x.k.membership? n = none →
      (∃ t, exec (.bara h f) s = .next t ∧ Faults s t x ⟨4, 14, n * 2 ^ 16, 0, false⟩) ∧
      (Unmarked h x [f.d.toNat] →
        (∃ t, exec (.bar h f) s = .next t ∧ Faults s t x ⟨4, 14, n * 2 ^ 16, 0, false⟩) ∧
        ∃ t, exec (.barw h f) s = .next t ∧ Faults s t x ⟨4, 14, n * 2 ^ 16, 0, false⟩))

/-- R356, R357, R358, R218, R217: CPOST hands a template at a multiple of 32 to the Plaza, HANDOVER takes a writer capability from its
holder and sends it to the core of a role, HANDOVER.c promises it to the child last posted from a template, and DONE sends the end
of the capsule with STATUS 0 and ends its task. No byte of memory changes. A HANDOVER.c of a post that is not queued yet reads its
template where it stands (log 44, the model's reading). -/
def Obligations.ChainingAndDone : Prop :=
  ∀ (h : Head) (f : FmtT) (e : FmtN) (s : State) (x : Cur), Issues s h 8 x →
    let ca := (x.t.reg f.a.toNat).toNat
    (Unmarked h x [f.a.toNat] → ca % 32 = 0 →
      ∃ t p, exec (.cpost h f) s = .next t ∧ TaskKept s t x (x.pc + 8) ∧ SameMemory s t ∧ t.accesses = s.accesses ∧
        t.plaza.posts = s.plaza.posts ++ [p] ∧ p.addr = ca ∧ p.inst = x.cap.inst ∧ p.core = x.c ∧ p.member = x.t.member ∧
        p.queued = false ∧ ∀ b ∈ s.accesses, s.ofCore x.c b = true → b.isLsu = true → b.op.isPref = false → b.id ∈ p.waits) ∧
    (∀ d u, Unmarked h x (f.a.toNat :: if f.rx = 1 then [f.b.toNat] else []) →
      x.cap.coreOf? f.rk.toNat (roleOf f x) = some d → x.cap.uniqueAt? x.t.member ca = some u →
      x.cap.holds u x.k.role = true →
      ∃ t m cap, exec (.handover h f) s = .next t ∧ TaskKept s t x (x.pc + 8) ∧ SameMemory s t ∧
        t.capMoves = s.capMoves ++ [m] ∧ m.fromCore = x.c ∧ m.toCore = d ∧ m.member = u.member ∧ m.ext = u.index ∧
        t.capsule? x.cap.inst = some cap ∧ cap.holds u x.k.role = false) ∧
    (∀ u p c, Unmarked h x [f.a.toNat, f.b.toNat] → x.cap.uniqueAt? x.t.member ca = some u → x.cap.holds u x.k.role = true →
      (s.plaza.posts.filter fun p => p.inst == x.cap.inst && p.addr == (x.t.reg f.b.toNat).toNat).getLast? = some p →
      childExtent? (imageOf ((if h.s then s.setCore x.c (x.k.clearMarks x.n) else s).childImage x.cap p)) u = some c → p.taken = false →
      (∀ k ∈ s.capsules, k.post ≠ some p.id) →
      ∃ t cap, exec (.handoverC h f) s = .next t ∧ TaskKept s t x (x.pc + 8) ∧ SameMemory s t ∧
        t.capsule? x.cap.inst = some cap ∧
        (∀ o ∈ cap.holders, o.member = u.member → o.ext = u.index → o.child = some p.id) ∧
        ∃ q ∈ t.plaza.posts, q.id = p.id ∧ c.index ∈ q.barred) ∧
    (∃ t cap, exec (.done h e) s = .next t ∧ t.slot x.c x.n = Slot.fresh ∧ SameMemory s t ∧ t.accesses = s.accesses ∧
        t.capsule? x.cap.inst = some cap ∧ cap.endReqs = x.cap.endReqs ++ [0])

/-! Events -/

/-- R82, R165, R264: a result whose value is in is written: its registers take the words of its part, sign-extended when the load is
signed, with the part's guard bit, and are pending no more; a line for register space fills the bytes that its mask names. No other
register of the task and no byte of memory changes. -/
def Obligations.ResultWrites : Prop :=
  (∀ (id d n z : Nat) (sx g : Bool) (b : List Byte) (r : Result) (s : State),
    s.results.find? (fun q => q.id == id) = some r → r.dst = .regs d n z sx → r.parts = [some (b, g)] → 0 < z →
    b.length = n * z → d + n ≤ 16 → (s.slot r.core r.slot).serial = r.slotSerial → r.dropped = false →
    ∃ t, exec (.pendingResultWrite id) s = .next t ∧ SameMemory s t ∧ (∀ q ∈ t.results, q.id ≠ id) ∧
      (let u := (t.slot r.core r.slot).task
       SameStatus (s.slot r.core r.slot).task u ∧
        OtherRegs (s.slot r.core r.slot).task u ((List.range n).map (d + ·)) ∧
        ∀ i, i < n →
          let v := leNat ((b.drop (i * z)).take z)
          u.reg (d + i) = BitVec.ofInt 64 (if sx then toSigned (8 * z) v else v) ∧ u.regGuard (d + i) = g ∧
            (t.slot r.core r.slot).pend.getLsbD (d + i) = false) ∧
      ∀ a ∈ t.accesses, ∀ j, a.result ≠ some (id, j)) ∧
  (∀ (id n : Nat) (m : BitVec 64) (g : Bool) (b : List Byte) (r : Result) (s : State),
    s.results.find? (fun q => q.id == id) = some r → r.dst = .space [(64 * n, m)] → r.parts = [some (b, g)] →
    b.length = 64 → r.grans = [n] →
    ∃ t, exec (.pendingResultWrite id) s = .next t ∧ SameMemory s t ∧ (∀ q ∈ t.results, q.id ≠ id) ∧
      (∀ i, i < 64 → (t.core r.core).spaceByte (64 * n + i) =
        if m.getLsbD i then b.getD i 0 else (s.core r.core).spaceByte (64 * n + i)) ∧
      (m = BitVec.allOnes 64 → ((t.core r.core).granule n).guard = g) ∧
      ∀ k, k ≠ n → (t.core r.core).granule k = (s.core r.core).granule k)

/-- R165, R172, R143, R175, R176, R178, R179, R85: a reply, none of the same home before it being under way, brings its bytes to its part
of the result, and an access without one is complete; freed LSU places go to what has waited longest, an element access or a ticket; a
lookaside fill ends with its entry held, unless its page is absent; a FENCE or LDA whose accesses are complete ends with its acquire
action, a FENCE after the earlier ones of its task, and an STL whose accesses are complete is released. No byte of memory changes. -/
def Obligations.LsuEvents : Prop :=
  (∀ (id rid part : Nat) (a : Access) (s : State), s.access? id = some a → a.state = .performed → a.op ≠ .fetch →
    a.op.returns = true → a.result = some (rid, part) → s.replyOvertakes a = false →
    ∃ t, exec (.accessReplyArrive id) s = .next t ∧ SameMemory s t ∧
      (∃ b ∈ t.accesses, b.id = id ∧ b.state = .replied) ∧
      ∀ q ∈ s.results, q.id = rid → ∃ w ∈ t.results, w.id = rid ∧ w.dst = q.dst ∧
        w.parts = q.parts.set part (some (a.reply, a.replyGuard || (a.ext.isSome && a.extGuard)))) ∧
  (∀ (id : Nat) (a : Access) (s : State), s.access? id = some a → a.state = .performed → a.op.returns = false →
    s.replyOvertakes a = false →
    ∃ t, exec (.accessReplyArrive id) s = .next t ∧ SameMemory s t ∧ ∀ b ∈ t.accesses, b.id ≠ id) ∧
  (∀ (core : Nat) (s : State),
    (∀ a, (s.unplacedOf core).head? = some a → s.lsuPlaces core < 256 →
      (∀ u, (s.core core).placeTickets.head? = some u → a.id < u.issued) →
      ∃ t, exec (.lsuPlaceGrant core) s = .next t ∧ SameMemory s t ∧ (∀ b ∈ t.accesses, b.id = a.id → b.state ≠ .unplaced)) ∧
    (∀ u, (s.core core).placeTickets.head? = some u → s.lsuPlaces core + u.need ≤ 256 →
      (∀ a, (s.unplacedOf core).head? = some a → u.issued ≤ a.id) →
      ∃ t, exec (.lsuPlaceGrant core) s = .next t ∧ OnlyCore s t core ∧
        (t.core core).lsuTickets = (s.core core).lsuTickets.map fun v => if v = u then { v with granted := true } else v)) ∧
  (∀ (core member ext page : Nat) (l : Lookaside) (cap : Capsule) (e : Extent) (s : State), s.capsuleOf? core = some cap →
    (s.core core).fill? member ext page = some l → l.page = (if e.sparse then some page else none) →
    s.resolveError? core member e (e.vbase + l.page.getD 0 * 2 ^ 21) = none →
    cap.exts.find? (fun e => e.seen member && e.index == ext) = some e →
    let v := s.pageEntry cap.bearer e page
    let ends := fun (t : State) => OnlyCore s t core ∧ (t.core core).fills = (s.core core).fills.filter (fun o => o != l)
    ((e.sparse = true → entryPresent v = true) →
      ∃ t, exec (.lookasideFill core member ext page) s = .next t ∧ ends t ∧
        (t.core core).lookaside.head? = some { l with base := if e.sparse then entryPage v else e.dbase } ∧
        (t.core core).lookaside.length ≤ 16) ∧
    (e.sparse = true → entryPresent v = false →
      ∃ t, exec (.lookasideFill core member ext page) s = .next t ∧ ends t ∧
        (t.core core).lookaside = (s.core core).lookaside)) ∧
  (∀ (core id : Nat) (fe : Fence) (s : State), s.fence? core id = some fe → s.fenceHere fe = true →
    let ends := fun (t : State) => SameMemory s t ∧ (∀ o ∈ t.fences, o.id ≠ fe.id) ∧
      (2 ≤ fe.scope → (t.core core).l1 = []) ∧ (4 ≤ fe.scope → (t.core core).acquired = s.serial + 1)
    (fe.isLda = true → (∀ w ∈ fe.waits, s.completeAt core fe.scope w = true) →
      ∃ t, exec (.ldaComplete core id) s = .next t ∧ ends t) ∧
    (fe.isLda = false → (∀ w ∈ fe.waits ++ fe.entries, s.completeAt core fe.scope w = true) →
      (∀ o ∈ s.fences, o.isLda = false → o.core = core → o.slot = fe.slot → o.slotSerial = fe.slotSerial → fe.id ≤ o.id) →
      ∃ t, exec (.fenceComplete core id) s = .next t ∧ ends t)) ∧
  (∀ (id scope : Nat) (waits : List Nat) (a : Access) (s : State), s.access? id = some a → a.stl = some (scope, waits) →
    (∀ w ∈ waits, s.completeAt a.core scope w = true) →
    ∃ t, exec (.stlRelease id) s = .next t ∧ SameMemory s t ∧ ∃ b ∈ t.accesses, b.id = id ∧ b.stl = none)

/-- R78, R97, R98, R79, R80, R458, R95, R181: an arriving packet takes an entry of a queue with room that nothing waits for, a ticket of
a full one, and a place in the overflow lane behind a full one at a core whose eight slots hold parked departures; a free slot takes the
chosen entry and starts its task; a packet or access whose grant has reached its holder, and one refused without a ticket 64 cycles ago,
is sent again; a departure whose results and accesses are in leaves as one packet on class 2. -/
def Obligations.NetworkEvents : Prop :=
  (∀ (p : Packet) (cap : Capsule) (s : State), Arrived s p → p.body.queues = true → s.capsule? p.inst = some cap →
    (∀ u ∈ (s.core p.src).tickets, u.pkt ≠ p.id) →
    let d := s.destOf p
    let k := s.core d
    let queued := fun (t : State) => ∃ q ∈ t.packets, q.id = p.id ∧ q.state = .queued
    (k.tickets = [] → k.lane = [] → k.queueUse < 64 →
      ∃ t, exec (.arrivalQueueEnter p.id) s = .next t ∧ SameMemory s t ∧ (t.core d).queue = k.queue ++ [p.id] ∧ queued t) ∧
    (64 ≤ k.queueUse → s.allParked d = false → k.tickets.length < 64 →
      ∃ t, exec (.arrivalQueueEnter p.id) s = .next t ∧ SameMemory s t ∧ (t.core d).queue = k.queue ∧
        ∃ u ∈ (t.core d).tickets, u.pkt = p.id) ∧
    (64 ≤ k.queueUse → s.allParked d = true → k.overflow.length < cap.laneSize →
      ∃ t, exec (.arrivalQueueEnter p.id) s = .next t ∧ SameMemory s t ∧ (t.core d).queue = k.queue ∧
        (t.core d).lane = k.lane ++ [.lane p.id] ∧ queued t)) ∧
  (∀ (core slot : Nat) (p : Packet) (s : State), s.chooseEntry core = some p → (s.slot core slot).state = .empty → slot < 8 →
    (s.core core).evicting = false → s.runs core = true →
    ∃ t, exec (.slotLoad core slot) s = .next t ∧ SameMemory s t ∧
      (∀ k m f, p.body = .task k m f → (t.slot core slot).task = k ∧ (t.slot core slot).mmat = m ∧ (t.slot core slot).fromFault = f ∧
        ((s.core core).tickets = [] → s.departs core k.pc.toNat = false → (t.slot core slot).state = .ready) ∧
        ((s.core core).tickets = [] → s.departs core k.pc.toNat = true → (t.slot core slot).state = .departing)) ∧
      ∀ tid m words, p.body = .message tid m words → words.length ≤ 8 →
        let u := (t.slot core slot).task
        u.pc = BitVec.ofNat 64 ((s.core core).handler p.cls).pc ∧ u.tid = BitVec.ofNat 64 tid ∧
          u.tsr = BitVec.ofNat 64 (m % 256) ∧
          ∀ (j : Nat) (w : Word × Bool), words[j]? = some w → u.reg j = w.1 ∧ u.regGuard j = w.2) ∧
  (∀ (p g : Packet) (cap : Capsule) (s : State), Numbered s → s.grantFor? p.id = some g → s.packet? p.id = some p →
    p.state = .granted → s.capsule? p.inst = some cap → s.packetParked p = false → s.senderParked p = false →
    (∃ u ∈ (s.core (s.destOf p)).tickets, u.pkt = p.id ∧ u.granted = true) → s.nextGranted p = true →
    s.allParked (s.destOf p) = false →
    ∃ t, exec (.grantResend p.id) s = .next t ∧ SameMemory s t ∧ p.id ∈ (t.core (s.destOf p)).queue ∧
      ∀ q ∈ t.packets, q.id ≠ g.id) ∧
  (∀ (id : Nat) (a : Access) (s : State), s.packet? id = none → s.access? id = some a →
    (∀ g, a.state = .granted → s.grantFor? id = some g → ∃ t, exec (.grantResend id) s = .next t ∧ SameMemory s t ∧
      (∀ q ∈ t.packets, q.id ≠ g.id) ∧ ∃ b ∈ t.accesses, b.id = id ∧ b.state = .sent) ∧
    (∀ since, a.state = .refused since → since + 64 ≤ s.cycOf a.core →
      ∃ t, exec (.ticketlessResend id) s = .next t ∧ SameMemory s t ∧ ∃ b ∈ t.accesses, b.id = id ∧ b.state = .sent)) ∧
  (∀ (p : Packet) (since : Nat) (s : State), s.packet? p.id = some p → p.state = .refused since →
    since + 64 ≤ s.cycOf p.src → s.senderParked p = false →
    ∃ t, exec (.ticketlessResend p.id) s = .next t ∧ SameMemory s t ∧ ∃ q ∈ t.packets, q.id = p.id ∧ q.state = .moving) ∧
  (∀ (core slot d : Nat) (cap : Capsule) (s : State), s.capsuleOf? core = some cap → cap.stage = .running →
    (s.slot core slot).state = .departing → (s.core core).evicting = false → (s.core core).outstanding slot = false →
    s.refusedChild? core slot = none → (s.slot core slot).departFault cap = none → departTo cap core (s.slot core slot) = some d →
    s.drained core (slot % 8) (s.slot core slot).serial (scopeOf core d) = true →
    let sl := s.slot core slot
    ∃ t p, exec (.departureSend core slot) s = .next t ∧ SameMemory s t ∧ t.packets = s.packets ++ [p] ∧ p.cls = 2 ∧
      p.src = core ∧ p.dest = d ∧ p.leaves = true ∧ p.body = .task sl.task sl.mmat sl.fromFault ∧
      (t.slot core slot).state = .sending p.id)

/-- R92, R93, R453, R455: a combining message is counted at its core, and one that brings a completion completes the phase there; a
phase that is due completes at every member of a barrier on lines, and at role 0 of a combining tree, which sends the completion on to its
children: the sense is inverted and the arrived bit cleared; a wait that reaches BARTO.LIMIT ends with status 3 and a record of
class 12. One combining slot for each child, so that a report gets a ticket where its child's slot is taken, is the model's reading (log
55). -/
def Obligations.BarrierEvents : Prop :=
  let completes := fun (s t : State) (c group : Nat) =>
    ∀ m, (s.core c).membership? group = some m →
      ∃ m', (t.core c).membership? group = some m' ∧ m'.sense = !m.sense ∧ m'.arrived = false
  (∀ (p : Packet) (group role : Nat) (cap : Capsule) (g : Group) (m : Membership) (s : State), Arrived s p →
    s.capsule? p.inst = some cap → p.id < s.serial → cap.groups[group]? = some g →
    (s.coreOrImage cap (s.destOf p)).membership? group = some m →
    (p.body = .barrier group role none → g.broken = false → g.slotTaken m.role role = false →
      ∃ t cap' g', exec (.barrierLineArrival p.id) s = .next t ∧ SameMemory s t ∧ t.accesses = s.accesses ∧
        (∀ q ∈ t.packets, q.id ≠ p.id) ∧ t.capsule? p.inst = some cap' ∧ cap'.groups[group]? = some g' ∧
        (m.role, role) ∈ g'.counted) ∧
    (p.body = .barrier group role none → g.broken = false → g.slotTaken m.role role = true → g.ticketsAt m.role < 64 →
      ∃ t cap' g', exec (.barrierLineArrival p.id) s = .next t ∧ SameMemory s t ∧ t.accesses = s.accesses ∧
        (∃ q ∈ t.packets, q.id = p.id ∧ q.state = .ticketed) ∧ t.capsule? p.inst = some cap' ∧ cap'.groups[group]? = some g' ∧
        g'.counted = g.counted ∧ g'.tickets = g.tickets ++ [(role, ⟨p.id, false⟩)]) ∧
    (∀ down, p.body = .barrier group role down → g.broken = true →
      ∃ t, exec (.barrierLineArrival p.id) s = .next t ∧ SameMemory s t ∧ t.capsules = s.capsules ∧
        t.packets = s.packets.filter fun q => q.id != p.id) ∧
    (∀ status, p.body = .barrier group role (some status) → g.broken = false → cap.parked = [] →
      g.cores.getD m.role 0 = s.destOf p →
      ∃ t, exec (.barrierLineArrival p.id) s = .next t ∧ SameMemory s t ∧ t.accesses = s.accesses ∧
        (∀ q ∈ t.packets, q.id ≠ p.id) ∧ completes s t (s.destOf p) group)) ∧
  (∀ (inst group last c0 : Nat) (cap : Capsule) (g : Group) (s : State), s.capsule? inst = some cap →
    cap.groups[group]? = some g → g.complete = some last → g.cores.head? = some c0 → cap.parked = [] →
    (g.onLines = true → last + g.a + g.b + 6 ≤ s.cycOf c0 → g.cores.Nodup →
      ∃ t, exec (.barrierPhaseComplete inst group) s = .next t ∧ SameMemory s t ∧ t.accesses = s.accesses ∧
        t.packets = s.packets ∧ ∀ c ∈ g.cores, completes s t c group) ∧
    (g.onLines = false →
      ∃ t, exec (.barrierPhaseComplete inst group) s = .next t ∧ SameMemory s t ∧ t.accesses = s.accesses ∧
        completes s t c0 group ∧ ∀ r, 1 ≤ r → r ≤ 8 → r < g.cores.length →
          ∃ p ∈ t.packets, s.serial ≤ p.id ∧ p.inst = inst ∧ p.src = c0 ∧ p.dest = g.cores.getD r 0 ∧ p.cls = 3 ∧
            p.body = .barrier group 0 (some (s.phaseStatus cap group g)))) ∧
  (∀ (core slot : Nat) (b : BarWait) (cap : Capsule) (s : State), (s.slot core slot).bar = some b →
    s.capsuleOf? core = some cap → b.result = none → b.limit ≠ 0 →
    b.limit ≤ (s.cycOf core + 2 ^ 64 - b.began) % 2 ^ 64 →
    ∃ t, exec (.barrierTimeout core slot) s = .next t ∧ SameMemory s t ∧
      (t.slot core slot).bar = some { b with result := some 3 } ∧ (t.slot core slot).task = (s.slot core slot).task ∧
      Records s t cap.inst 1 ⟨12, 2, b.group, 0, false⟩)

/-- R149, R147, R148, R167, R270, R280, R128, R155, R160: a home performs a load of a scratchpad, a store, a tagged operation and an
atomic as the access asks: the bytes of a load are those that stand there, and zeros where the line carries another instance's
residency tag; a store and an atomic change the bytes they name and no others, but that a scratchpad line under another tag becomes
zeros around them; an LDF waits for its word to be full. A bank enters and leaves its refresh window. -/
def Obligations.HomePerforms : Prop :=
  (∀ (a : Access) (s : State), AtHome s a → Inv s →
    let addr := s.placeOf a
    let b := s.bearer a.inst
    let here := devSpace addr = 2 ∧ devPkg addr = s.pkgId
    let stands := if s.resident b addr then readBytes s.mem addr a.size else List.replicate a.size 0
    let performed := fun (t : State) => ∃ c ∈ t.accesses, c.id = a.id ∧ c.state = .performed
    let reads := fun (t : State) (bytes : List Byte) => ∃ c ∈ t.accesses, c.id = a.id ∧ c.state = .performed ∧ c.reply = bytes
    addr % 64 + a.size ≤ 64 →
    (a.op = .load → here → ∃ t, exec (.homeAccessPerform a.id) s = .next t ∧ SameMemory s t ∧ reads t stands) ∧
    ((a.op = .store ∨ a.op = .put) → a.stored = true → a.data.length = a.size → s.sliceRefuses a = false →
      (s.foreign b.key addr = false ∨ a.size = 64) →
      ∃ t, exec (.homeAccessPerform a.id) s = .next t ∧ MemoryStoresBy s t b addr a.data ∧ performed t) ∧
    (a.op = .ldf → here → s.isFull b addr = true →
      ∃ t, exec (.homeAccessPerform a.id) s = .next t ∧ SameMemory s t ∧ reads t (readBytes s.mem addr a.size) ∧
        t.isFull b addr = true) ∧
    (∀ c, a.op = .ldf → s.homeNow a = .core c → s.isFull b addr = false → (s.core c).homeTickets = [] → s.waitPlaces c < 32 →
      s.draining a = false → (s.core a.core).evicting = false →
      ∃ t, exec (.homeAccessPerform a.id) s = .next t ∧ SameMemory s t ∧
        ∃ q ∈ t.accesses, q.id = a.id ∧ q.state = .waiting) ∧
    (a.op = .stf → here → a.stored = true → a.data.length = a.size → (∀ q ∈ s.accesses, q.state ≠ .waiting) →
      ∃ t, exec (.homeAccessPerform a.id) s = .next t ∧ MemoryStoresBy s t b addr a.data ∧ performed t ∧
        t.isFull b addr = true) ∧
    (a.op = .ldfe → here → s.isFull b addr = true → s.joinWaits a = false → (∀ q ∈ s.accesses, q.state ≠ .waiting) →
      ∃ t, exec (.homeAccessPerform a.id) s = .next t ∧ SameMemory s t ∧ reads t (readBytes s.mem addr a.size) ∧
        t.isFull b addr = false) ∧
    (∀ fn, a.op = .amo fn → here → a.stored = true → a.data.length = a.size →
      ∃ t, exec (.homeAccessPerform a.id) s = .next t ∧ reads t stands ∧
        MemoryStoresBy s t b addr (leBytes a.size (atomicResult fn (8 * a.size) (leNat stands) (leNat a.data))))) ∧
  (∀ (layer : Nat) (s : State), layer < 12 →
    ((s.layer layer).wsPos % 7600 < 3040 → (s.layer layer).wsBusy = none →
      ∃ t, exec (.wsRefreshStart layer) s = .next t ∧ { t with layers := s.layers } = s ∧
        (t.layer layer).wsBusy = some ((s.layer layer).wsPos / 7600 % 16)) ∧
    (∀ b, (s.layer layer).wsBusy = some b → (¬(s.layer layer).wsPos / 7600 % 16 = b ∨ 3040 ≤ (s.layer layer).wsPos % 7600) →
      ∃ t, exec (.wsRefreshEnd layer) s = .next t ∧ (t.layer layer).wsBusy = none ∧
        (t.layer layer).wsPos = (s.layer layer).wsPos))

/-- R173, R174, R349-R354, R434: the head of a copy queue that nothing holds begins, with its indexes read, and its source rows where
its boxes share bytes (kept so: the model's choice, logs 11 and 23). A chunk of a begun copy whose source and destination are present,
allowed and without error is written: its map bit reads 1, or the chunk awaits an acknowledgement that sets the bit; no bit of another
chunk of the copy changes before the last one is written; and, where memory can be read as it stands, every element of the chunk holds
its source, converted for COPY, as it is for CGATH and CSCAT, combined with its old value for CREDC (the order of a float minimum's
rounding is log 40), every scale its source's, a CSEAL's bytes are the ciphertext or the trailer, and every other bit of memory reads
as before. -/
def Obligations.CopyEvents : Prop :=
  ∀ (core queue : Nat) (cap : Capsule) (e : CopyEntry) (s : State), s.copyHead? core queue = some (cap, e) → queue < 3 →
    e.queue = queue → e.waitPage = none →
    (let reads := s.beginReads cap core e
     e.begun = false → (s.core core).joined queue e.id = false →
      s.entryFree cap core e.slot e.slotSerial e.id e.member .cr .cw e.crRuns e.dstRuns = true →
      s.runsExist cap e.member reads = true → s.obstacle? cap e.member false reads = none →
      s.runsRefused cap e.queue e.member reads = none →
      ∃ t e', exec (.engineEntryBegin core queue) s = .next t ∧ e' ∈ (t.core core).copyQueue queue ∧ e'.id = e.id ∧
        e'.begun = true ∧ e'.done = e.done ∧ e'.unacked = e.unacked ∧ e'.chunks = e.chunks ∧ SameMemory s t ∧
        (∀ m, (t.core core).map m = (s.core core).map m) ∧
        ∀ line, Stands s cap e.member line [] reads → s.cross = [] →
          (e.kind = .cgath ∨ e.kind = .cscat → ∀ n, n < e.box.getD e.pageDim 0 →
            e'.indexes.getD n 0 = codeAt (memView s line) (8 * (tBase e.ti + 4 * (e.ge + n))) 32) ∧
          e'.kept = e.kept ++ e'.keptRows.map fun r => (r.1, bytesFrom (memView s line) r.2.1 r.2.2)) ∧
    (∀ chunk, chunk < 4096 → chunk ∈ e.unacked → s.ackDropped? cap e chunk = none →
      ∃ t, exec (.copyChunkWrite core queue chunk) s = .next t ∧ SameMemory s t ∧
        ((t.core core).map e.map).getLsbD chunk = true ∧ ∀ m, m ≠ e.map → (t.core core).map m = (s.core core).map m) ∧
    (∀ chunk, chunk < 4096 → e.begun = true → e.mayWrite chunk = true → (s.core core).evicting = false →
      s.runsExist cap e.member (e.chunkReads chunk ++ e.cwRuns chunk) = true →
      s.obstacle? cap e.member false (e.chunkReads chunk) = none → s.obstacle? cap e.member true (e.cwRuns chunk) = none →
      (e.pieces chunk).any e.badPage = false →
      s.runsRefused cap e.queue e.member (e.chunkReads chunk ++ e.cwRuns chunk) = none →
      (e.kind ≠ .cseal →
        let w := ({ s with freeCount := s.freeCount + 1 }.sendReads cap e.member chunk (e.chunkReads chunk)).chunkWrites cap core e chunk
        w.2.lateGuard cap e w.1 = none) →
      ∃ t, exec (.copyChunkWrite core queue chunk) s = .next t ∧
        (((t.core core).map e.map).getLsbD chunk = true ∨
          ∃ e' ∈ (t.core core).copyQueue queue, e'.id = e.id ∧ chunk ∈ e'.unacked) ∧
        (e.undone ≠ [chunk] → ∀ b, b ≠ chunk → ((t.core core).map e.map).getLsbD b = ((s.core core).map e.map).getLsbD b) ∧
        (∀ m, m ≠ e.map → (t.core core).map m = (s.core core).map m) ∧
        ∀ line, Inv s → s.cross = [] → CopyIssued e → LinesApart line (e.cwRuns chunk) →
          Stands s cap e.member line (e.cwRuns chunk) (e.chunkReads chunk ++ e.cwRuns chunk) →
          OnlyBits s t line (chunkSpans e chunk) ∧ (e.kind ≠ .cseal → ChunkCopied s t line e chunk) ∧
          (e.kind = .cseal → ChunkSealed s t line cap e chunk ∧
            (chunk + 1 < e.chunks → ∀ e' ∈ (t.core core).copyQueue queue, e'.id = e.id →
              (chunk, bytesFrom (memView t line) (elemByte e.td e.dc + 512 * chunk) 512) ∈ e'.kept)) ∧
          (e.queue ≠ 2 → (∀ r ∈ e.chunkReads chunk, ∀ w ∈ e.cwRuns chunk, ∀ i j, i < r.2 → j < w.2 →
              line ((r.1 + i) / 64) ≠ line ((w.1 + j) / 64)) →
            ((t.core core).map e.map).getLsbD chunk = true))

/-- R240, R48-R51, R320-R323, R325, R328-R332, R334, R457, R480: the head of qm that nothing holds is performed and leaves the queue, at
once or, for a store, when copies of its lines are invalidated: MZERO zeroes its accumulator; MLD and MLD.sc load the elements and
scales of a tile as memory holds them; MST stores the elements of the tensor and no other bit; MMA and MMAS add the blocks of their
operands in ascending k; MACC adds an accumulator, MTRN transposes a tile, MCODE replaces a code table, TQRY gives its tensor's entry. An
MMAT begins, and each of its steps loads, multiplies in ascending k and stores a tile of C, and advances STEP, the last one ending the
entry; an MMAR sends its fetch, which its source answers once every word is full, its data stand in the tile of B and are multiplied, and
after the limit it is abandoned with a record of class 13. The exact sum of two zeros is -0 where both are (log 89, the model's choice). -/
def Obligations.MatrixEvents : Prop :=
  ∀ (core : Nat) (cap : Capsule) (e : QmEntry) (s : State), s.qmHead? core = some (cap, e) →
    let k := s.core core
    let f := k.spaceByte
    let ended := fun (t : State) => ∀ q ∈ (t.core core).qm, q.id ≠ e.id
    let awaits := fun (t : State) => ∀ q ∈ (t.core core).qm, q.id = e.id → q.unacked = true
    let coords := pairCoords (e.g.getD 0 0) (e.g.getD 1 0)
    let ad := k.aOff e.f.ad.toNat
    (e.unacked = true →
      (e.op = .mst → ∃ t, exec (.qmEntryPerform core) s = .next t ∧ ended t ∧ SameMemory s t) ∧
      (e.op = .mmat → ∃ t, exec (.mmatStepComplete core) s = .next t ∧ ended t ∧ SameMemory s t)) ∧
    (e.begun = false → e.unacked = false → s.qmFree cap core e = true → k.badIn (e.reads k) = false →
      (e.op = .mmat → ∃ t e', exec (.qmEntryPerform core) s = .next t ∧ SameMemory s t ∧ e' ∈ (t.core core).qm ∧
        e'.id = e.id ∧ e'.begun = true ∧ e'.step = e.step) ∧
      (e.op = .mmar → cap.isParked e.role = false → ∃ t a, exec (.qmEntryPerform core) s = .next t ∧ SameMemory s t ∧
        t.accesses = s.accesses ++ [a] ∧ a.op = .fetch ∧ a.entry = some e.id ∧
        a.addr = scratchAddr s.pkgId e.src (e.g.getD 1 0 % 2 ^ 17) ∧ a.size = (if e.wideB then 1024 else 512) ∧
        a.state = .sent) ∧
      (e.op ≠ .mmat → e.op ≠ .mmar → s.runsExist cap e.member (e.mrRuns ++ e.mwRuns) = true →
        s.obstacle? cap e.member false e.mrRuns = none → s.obstacle? cap e.member true e.mwRuns = none →
        ∃ t, exec (.qmEntryPerform core) s = .next t ∧ awaits t ∧ (e.op ≠ .mst ∨ s.cross = [] → ended t) ∧
          (e.op ≠ .mst → SameMemory s t) ∧
          (let l := t.core core
           let g := l.spaceByte
           (e.op = .mst ∨ e.op = .mcode → ∀ o, g o = f o) ∧ (e.op ≠ .mcode → l.tables = k.tables) ∧
           (e.op = .mzero → SameBut f g ad 1024 ∧ ∀ i, i < 1024 → g (ad + i) = 0) ∧
           (e.op = .tqry → SameBut f g (k.vOff e.f.vsa.toNat) 128 ∧
             bytesFrom g (k.vOff e.f.vsa.toNat) 128 = leBytes 128 e.t1.toNat) ∧
           (e.op = .mma ∨ e.op = .mmas → EntryTypes e → Multiplies k (e.mul k (e.op == .mmas)) f g) ∧
           (e.op = .macc → SameBut f g ad 1024 ∧ ∀ i j, i < 16 → j < 16 →
             let p := accWord f ad i j
             let q := accWord f (k.aOff (e.f.ma.toNat % 16)) i j
             accWord g ad i j = if e.f.ta = 3 then intCode 32 true (e.f.sat == 1) (codeInt 32 true p + codeInt 32 true q)
               else binary32.round e.f.rm.toNat (e.f.sat == 1)
                 (Machine.Num.add e.f.rm.toNat (binary32.value p) (binary32.value q))) ∧
           (e.op = .mtrn → SameBut f g (k.mOff e.f.mb.toNat) 512 ∧ ∀ i j, i < 16 → j < 16 →
             tileCode g (k.mOff e.f.mb.toNat) 16 i j = tileCode f (k.mOff e.f.ma.toNat) 16 j i) ∧
           (e.op = .mcode → ∀ i, i < 4 → l.tableOf i = if i = e.f.fn.toNat % 4 then
             BitVec.ofNat 256 (codeAt f (8 * k.vOff e.f.vsa.toNat) 256) else k.tableOf i) ∧
           ∀ line, Inv s → s.cross = [] → tDefined e.t1 = true → Stands s cap e.member line e.mwRuns (e.mrRuns ++ e.mwRuns) →
             (e.op = .mld → fdKind (tFd e.t1) ≠ 5 → coordsOk e.t1 coords (tileElems e.t1) →
               LoadsTile (memView s line) f g e.t1 coords (k.mOff e.f.ma.toNat)) ∧
             (e.op = .mldSc → fdKind (tFd e.t1) ≠ 5 → tScaled e.t1 = true → coordsOk e.t1 coords (tileElems e.t1) →
               LoadsScales (memView s line) f g e.t1 coords (k.vOff e.f.vsa.toNat)) ∧
             (e.op = .mst → coordsOk e.t1 coords 16 → LinesApart line e.mwRuns →
               s.tileFault cap core e.member e.t1 coords e.f.ad.toNat = none →
               StoresTile s t line f e.t1 coords ad (e.f.fn.getLsbD 0) (e.f.fn.getLsbD 1) e.f.rm.toNat (e.f.sat == 1))))) ∧
    (e.op = .mmat → e.begun = true → e.unacked = false → e.waitPage = none → k.evicting = false →
      s.runsExist cap e.member (e.stepReads ++ e.stepWrites) = true → s.obstacle? cap e.member false e.stepReads = none →
      s.obstacle? cap e.member true e.stepWrites = none →
      (s.mmatStep cap core e).tileFault cap core e.member e.t1 [e.tilePos.2, e.tilePos.1] e.f.ad.toNat = none →
      ∃ t, exec (.mmatStepComplete core) s = .next t ∧ (e.steps ≤ e.step + 1 → awaits t) ∧
        (e.step + 1 < e.steps → ∃ e' ∈ (t.core core).qm, e'.id = e.id ∧ e'.step = e.step + 1 ∧ e'.unacked = false) ∧
        ∀ line, Inv s → s.cross = [] → EntryBlock e → LinesApart line e.stepWrites →
          Stands s cap e.member line e.stepWrites (e.stepReads ++ e.stepWrites) →
          let g := (t.core core).spaceByte
          TileStep (memView s line) f g k e ∧
          StoresTile s t line g e.t1 [e.tilePos.2, e.tilePos.1] ad false e.matInt e.f.rm.toNat (e.f.sat == 1)) ∧
    (∀ a c, Numbered s → (s.fetchesTo c).head? = some a → s.destParked a = false → s.placeOf a % 64 = 0 → a.size % 64 = 0 →
      s.placeOf a % 2 ^ 17 + a.size ≤ 2 ^ 17 →
      s.memError? (s.bearer a.inst) (s.homeNow a) (s.placeOf a) a.size false = none →
      s.lowestEmpty? (s.bearer a.inst) (s.placeOf a) a.size = none →
      ∃ t b, exec (.mmarFetchServe c) s = .next t ∧ SameMemory s t ∧ b ∈ t.accesses ∧ b.id = a.id ∧ b.state = .performed ∧
        b.reply = readBytes s.mem (s.placeOf a) a.size) ∧
    (∀ a, e.op = .mmar → e.begun = true → s.fetchOf? core e.id = some a → Numbered s →
      (a.state = .performed → ∃ t, exec (.mmarDataArrive core) s = .next t ∧ SameMemory s t ∧ ended t ∧
        (∀ b ∈ t.accesses, b.id ≠ a.id) ∧
        (EntryTypes e → a.reply.length = (if e.wideB then 1024 else 512) → ∃ b : Bytes,
          SameBut f b (k.mOff e.f.mb.toNat) a.reply.length ∧ bytesFrom b (k.mOff e.f.mb.toNat) a.reply.length = a.reply ∧
          Multiplies k (e.mul k (e.f.fn.getLsbD 0)) b (t.core core).spaceByte)) ∧
      (e.limit ≠ 0 → e.sentAt + e.limit ≤ s.cycOf core → ∃ t, exec (.mmarPairLost core) s = .next t ∧ SameMemory s t ∧
        ended t ∧ (∀ b ∈ t.accesses, b.id ≠ a.id) ∧ (∀ o, (t.core core).spaceByte o = f o) ∧
        Records s t cap.inst 1 ⟨13, 1, e.g.getD 0 0 % 2 ^ 15 + e.g.getD 0 0 / 2 ^ 16 % 2 ^ 8 * 2 ^ 16 +
          clusterOf e.src % 256 * 2 ^ 32, 0, e.gGuard⟩))

/-- R413, R417, R99, R400-R404, R411, R414: the faults of the issue port hold the task with their record, but a word with a set switch
marker parks the task first while it has results outstanding; a missed block is filled; a fault
packet is written as the record of the next SEQ, and ends the capsule with STATUS 2 where no handler is there to take it or a handler task
has faulted; a resume packet releases the task held under its SEQ, at the faulting instruction,
behind it or at its target, ends it, or ends the capsule with STATUS 4. -/
def Obligations.FaultEvents : Prop :=
  (∀ (s : State) (cap : Capsule) (e : DecodeError), s.capsuleOf? s.actor = some cap →
    let n := (s.core s.actor).port % 8
    let held := fun (t : State) (i : FaultInfo) => (t.slot s.actor n).state = .held ∧ SameMemory s t ∧ t.accesses = s.accesses ∧
      OtherRegs (s.slot s.actor n).task (t.slot s.actor n).task [] ∧ SameStatus (s.slot s.actor n).task (t.slot s.actor n).task ∧
      (t.slot s.actor n).task.pc = (s.slot s.actor n).task.pc ∧
      ∃ h, (t.slot s.actor n).hold = some h ∧ h.record.info = i ∧ h.record.pc = (s.slot s.actor n).task.pc.toNat
    let marked := ((cap.codeBytes (s.slot s.actor n).task.pc.toNat 1).getD 0 0).getLsbD 2
    (s.fetchAt? s.actor = some (.bad e) → (marked = true → (s.core s.actor).outstanding n = false) →
      ∃ t, exec (.encodingFault e.detail e.aux) s = .next t ∧ held t ⟨3, e.detail, e.aux, 0, false⟩) ∧
    (s.fetchAt? s.actor = some (.bad e) → marked = true → (s.core s.actor).outstanding n = true →
      ∃ t, exec (.encodingFault e.detail e.aux) s = .next t ∧ OnlyCore s t s.actor ∧ (t.slot s.actor n).state = .parked ∧
        (t.slot s.actor n).task = (s.slot s.actor n).task) ∧
    (s.fetchAt? s.actor = some .pastEnd →
      ∃ t, exec .sequentialFlowPastCodelen s = .next t ∧ held t ⟨5, 3, cap.code.length, 0, false⟩)) ∧
  (∀ (core block : Nat) (cap : Capsule) (s : State), s.capsuleOf? core = some cap → 32 * block < cap.code.length →
    inSegment (s.core core) (32 * block) = true →
    ∃ t, exec (.instructionStoreFill core block) s = .next t ∧ OnlyCore s t core ∧
      { t.core core with istore := (s.core core).istore } = s.core core ∧ block ∈ (t.core core).istore) ∧
  (∀ (p : Packet) (r : FaultRec) (late : Bool) (cap : Capsule) (s : State), Arrived s p → s.capsule? p.inst = some cap →
    p.body = .fault r late →
    ∃ t cap', exec (.faultPacketHandle p.id) s = .next t ∧ SameMemory s t ∧ t.capsule? p.inst = some cap' ∧
      cap'.recCount = cap.recCount + 1 ∧ (r, cap.recCount) ∈ cap'.records ∧
      (late = false → cap.stage ≠ .completing →
        (cap.hdr.hasHandler = false ∧ r.disp = 0 ∧ r.slot ≠ 0xFF) ∨ r.handler = true → cap'.endReqs = cap.endReqs ++ [2])) ∧
  (∀ (p : Packet) (words : List (Word × Bool)) (cap : Capsule) (n : Nat) (h : Hold) (s : State), Arrived s p →
    s.capsule? p.inst = some cap → p.body = .resume words → cap.stage ≠ .completing →
    let d := s.destOf p
    let w0 := (words.getD 0 (0, false)).1.toNat
    let w1 := (words.getD 1 (0, false)).1.toNat
    let w2 := words.getD 2 (0, false)
    let action := w0 / 2 ^ 32 % 16
    (s.core d).heldUnder? (w0 % 2 ^ 32) = some n → (s.slot d n).hold = some h →
    let released := fun (t : State) (pc : Nat) => SameMemory s t ∧ (t.slot d n).hold = none ∧
      (t.slot d n).task.pc = BitVec.ofNat 64 pc ∧ (t.slot d n).state = (if s.departs d pc then .departing else .ready) ∧
      (w0 / 2 ^ 40 % 2 = 1 → (t.slot d n).task.reg (w0 / 2 ^ 36 % 16) = w2.1 ∧
        (t.slot d n).task.regGuard (w0 / 2 ^ 36 % 16) = w2.2) ∧
      OtherRegs (s.slot d n).task (t.slot d n).task (if w0 / 2 ^ 40 % 2 = 1 then [w0 / 2 ^ 36 % 16] else [])
    (action = 0 → ∃ t, exec (.resumePacketApply p.id) s = .next t ∧ released t h.record.pc) ∧
    (action = 1 → h.len ≠ 0 → ∃ t, exec (.resumePacketApply p.id) s = .next t ∧ released t (h.record.pc + h.len)) ∧
    (action = 2 → ValidTarget cap w1 → ∃ t, exec (.resumePacketApply p.id) s = .next t ∧ released t w1) ∧
    (action = 3 → ∃ t, exec (.resumePacketApply p.id) s = .next t ∧ SameMemory s t ∧ t.slot d n = Slot.fresh) ∧
    (action = 4 → ∃ t cap', exec (.resumePacketApply p.id) s = .next t ∧ SameMemory s t ∧ t.capsule? p.inst = some cap' ∧
      cap'.endReqs = cap.endReqs ++ [4]))

/-- R430-R433: the store of a page-vector entry that clears PRESENT, with no access of the page outstanding and no error, writes the entry
with PRESENT clear; one that sets it writes it with PRESENT set when the page's tag agrees; and when it does not, the entry stays
absent and the capsule ends with STATUS 3. That the vector may be any launched capsule's of the storing capsule's owner lane is the
model's reading (log 62). -/
def Obligations.PageEvents : Prop :=
  ∀ (a : Access) (e : Extent) (n old new : Nat) (cap : Capsule) (s : State), s.access? a.id = some a → Inv s →
    s.vectorStore? a = some (cap, e, n, old, new) → s.capsule? cap.inst = some cap → (s.capOf? a).isSome = true →
    s.storeArrived a = true → a.stored = true → a.data.length = 8 →
    s.memError? (s.bearer a.inst) (s.homeNow a) (s.placeOf a) 8 false = none → s.recordError? cap.bearer e n = none →
    let performed := fun (t : State) => ∃ b ∈ t.accesses, b.id = a.id ∧ b.state = .performed
    let entry := fun (t : State) => leNat (readBytes t.mem (s.placeOf a) 8)
    (s.isEviction a = true → entryPresent new = false → s.pageInUse a cap e n = false → s.pageError? (entryPage old) = none →
      ∃ t, exec (.pageEviction a.id) s = .next t ∧ performed t ∧ entry t = new / 2 * 2) ∧
    (s.isReturn a = true → s.pageError? (entryPage new) = none →
      (s.returns cap e n (entryPage new) = true →
        ∃ t, exec (.pageReturn a.id) s = .next t ∧ performed t ∧ entry t = new / 2 * 2 + 1) ∧
      (s.returns cap e n (entryPage new) = false →
        ∃ t cap', exec (.pageReturn a.id) s = .next t ∧ performed t ∧ entry t = new / 2 * 2 ∧
          t.capsule? cap.inst = some cap' ∧ cap'.endReqs = cap.endReqs ++ [3] ∧
          Records s t a.inst 2 ⟨10, 1, n + e.index * 2 ^ 32, a.ca, false⟩))

/-- R203, R206, R211, R440, R444: the walker serves the highest priority with work and aborts uncommitted placements below it; the Plaza
takes the capsule of the queue's next slot, which gets the next instance number, or refuses it, and in both cases counts it; the code
image comes from the identity cache or is read and hashed, and a launch that fails the check is refused; a dispatcher's reservation is
recorded. That a cached image is cut or filled with zeros to CODELEN is the model's choice (log 95). -/
def Obligations.LaunchEvents : Prop :=
  (∀ (p : Nat) (v : Serve) (s : State), s.topServe? = some (p, v) → s.plaza.serving = none → s.plazaTakes = true →
    s.blockedBy p = false →
    ∃ t, exec .walkerServe s = .next t ∧ OnlyHost s t ∧ t.plaza.serving = some v ∧
      t.capsules = s.capsules.map fun c => if c.uncommitted ∧ c.hdr.prio < p then c.abort else c) ∧
  (∀ (q a : Nat) (image : Option (List Byte)) (s s1 : State), s.plaza.serving = some (.queue q) → s.plazaTakes = true →
    (s.queue q).consumed < (s.queue q).latch → s.nextSlot q = (a, image, s1) →
    let v := s.queue q
    let got := (s.gather q v.qprio v.merge (if v.merge then v.latch - v.consumed else 1) []).1
    let others := s.capsules.map fun c => if c.uncommitted ∧ c.hdr.prio < v.qprio then c.abort else c
    (∀ b, image = some b → judge b v.qprio = .ok → (s.takeLane (headerOf b).owner).isSome = true →
      (v.merge = true → ∀ m ∈ got, judge m.2 v.qprio = .ok) →
      ∃ t cap, exec .capsuleTake s = .next t ∧ t.capsules = others ++ [cap] ∧ cap.hdr = headerOf b ∧
        cap.inst = s.plaza.instCount ∧ cap.queue = some q ∧ cap.stage = .taken ∧ t.plaza.serving = none ∧
        t.plaza.instCount = (s.plaza.instCount + 1) % 2 ^ 32 ∧ (s.queue q).consumed < (t.queue q).consumed) ∧
    (v.merge = false → (∀ b, image = some b → judge b v.qprio ≠ .ok) →
      ∃ t, exec .capsuleTake s = .next t ∧ t.capsules = others ∧ t.plaza.serving = none ∧
        (t.queue q).consumed = (s.queue q).consumed + 1) ∧
    (v.merge = true → (∃ m ∈ got, judge m.2 v.qprio ≠ .ok) →
      ∃ t, exec .capsuleTake s = .next t ∧ t.capsules = others ∧ t.plaza.serving = none ∧
        (s.queue q).consumed < (t.queue q).consumed)) ∧
  (∀ (prio : Nat) (p : Post) (s : State), s.plaza.serving = some (.child prio) → s.plazaTakes = true →
    s.nextChild? prio = some p → (s.takeLane (headerOf p.image).owner).isSome = true →
    ∃ t cap, exec .capsuleTake s = .next t ∧ cap.hdr = headerOf p.image ∧
      t.capsules = (s.capsules.map fun c => if c.uncommitted ∧ c.hdr.prio < prio then c.abort else c) ++ [cap] ∧
      cap.inst = s.plaza.instCount ∧ cap.post = some p.id ∧ cap.parent = some p.inst ∧ t.plaza.serving = none) ∧
  (∀ (inst : Nat) (cap : Capsule) (s : State), s.capsule? inst = some cap → cap.stage = .taken →
    let passes := fun (t : State) (code : List Byte) => ∃ cap', t.capsule? inst = some cap' ∧ cap'.stage = .placing [] ∧
      cap'.code = padTo cap.hdr.codelen code
    (∀ id code, cap.codeNamed = true → s.plaza.idCache.find? (fun e => e.1 == cap.hdr.codeid) = some (id, code) →
      ∃ t, exec (.codeImageVerify inst) s = .next t ∧ SameMemory s t ∧ passes t code) ∧
    (∀ code s1, cap.codeNamed = true → s.plaza.idCache.find? (fun e => e.1 == cap.hdr.codeid) = none →
      s.readCode cap = some (code, s1) →
      (sha3_512 code = cap.hdr.codeid → ∃ t, exec (.codeImageVerify inst) s = .next t ∧ passes t code ∧
        (cap.hdr.codeid, code) ∈ t.plaza.idCache) ∧
      (sha3_512 code ≠ cap.hdr.codeid → ∃ t, exec (.codeImageVerify inst) s = .next t ∧ t.capsule? inst = none)) ∧
    (cap.codeNamed = false → ∃ t, exec (.codeImageVerify inst) s = .next t ∧ t.capsule? inst = none) ∧
    (s.plaza.idCache.find? (fun e => e.1 == cap.hdr.codeid) = none → s.readCode cap = none →
      ∃ t, exec (.codeImageVerify inst) s = .next t ∧ t.capsule? inst = none)) ∧
  (∀ (inst chiplet : Nat) (cores : List Nat) (ready : List (Nat × List Nat)) (cap : Capsule) (s : State),
    s.capsule? inst = some cap → cap.stage = .placing ready →
    (s.placeable cap = false → ∃ t, exec (.gangReserve inst chiplet cores) s = .next t ∧ t.capsule? inst = none) ∧
    (s.placeable cap = true → s.placeableOn cap ready (s.reservable cap) = true → reservedAt ready chiplet = none →
      s.outranked cap = false →
      (if chiplet < 6 then s.shareOk cap ready chiplet cores else s.groupOk cap ready chiplet cores) = true →
      ∃ t cap', exec (.gangReserve inst chiplet cores) s = .next t ∧ SameMemory s t ∧ t.capsule? inst = some cap' ∧
        cap'.stage = .placing (ready ++ [(chiplet, cores)])) ∧
    (let u := s.setCapsule cap.abort
     s.placeable cap = true → s.placeableOn cap ready (s.reservable cap) = false → u.outranked cap = false → chiplet < 6 →
      u.shareOk cap [] chiplet cores = true →
      ∃ t cap', exec (.gangReserve inst chiplet cores) s = .next t ∧ SameMemory s t ∧ t.capsule? inst = some cap' ∧
        cap'.stage = .placing [(chiplet, cores)]))

/-- R111, R146, R160, R183, R212, R227: a commit, at once or after the wait for its operating point, puts every core of the gang under the
capsule with its role and no task in a slot, and sends to each core one seed for each member, with its role, argument address and member
in g0, g1 and g2; what another instance has left in a scratchpad of the gang reads as zeros for the capsule. A capsule that stocks no
weight store changes no byte of memory. -/
def Obligations.CommitEvents : Prop :=
  ∀ (inst : Nat) (ready : List (Nat × List Nat)) (groups : List Group) (cap : Capsule) (s : State),
    s.capsule? inst = some cap → s.bindings cap ready = some groups → s.wsBlocked cap = false → s.clocked = true →
    s.outranked cap = false → groupsStand groups = true →
    let cs := (groups.headD (groupAt [] 0)).cores
    let commits := fun (t : State) => (∃ cap', t.capsule? inst = some cap' ∧ cap'.stage = .running ∧ cap'.groups = groups) ∧
      (cap.hdr.stock = false → SameMemory s t) ∧
      (∀ a n, devSpace a = 2 → devPkg a = s.pkgId → s.resident cap.bearer a = false →
        t.readDev cap.bearer a n = List.replicate n 0) ∧
      ∀ (r c : Nat), cs[r]? = some c → (t.core c).inst = some inst ∧ (t.core c).role = r ∧
        (∀ n, (t.slot c n).state = .empty) ∧
        ∀ m, m < cap.members.length → ∃ p ∈ t.packets, p.dest = c ∧ p.cls = 2 ∧ p.state = .moving ∧
          ∃ k, p.body = .task k none false ∧
          k.pc = BitVec.ofNat 64 cap.hdr.entry ∧ k.reg 0 = BitVec.ofNat 64 r ∧
          k.reg 1 = BitVec.ofNat 64 (0xC00000000000 + 2048 * m) ∧ k.reg 2 = BitVec.ofNat 64 m ∧ k.tid = mix 0 r
    cs.Nodup →
    (cap.stage = .placing ready → s.slowChiplets cap cs = [] →
      ∃ t, exec (.gangCommit inst) s = .next t ∧ commits t) ∧
    (cap.stage = .placing ready → s.slowChiplets cap cs ≠ [] →
      ∃ t cap', exec (.gangCommit inst) s = .next t ∧ SameMemory s t ∧ t.capsule? inst = some cap' ∧
        cap'.stage = .pointWait ready) ∧
    (cap.stage = .pointWait ready → ∃ t, exec (.operatingPointReached inst) s = .next t ∧ commits t)

/-- R184, R215, R462, R357: a template that passes its checks, once the posting core has drained, is sealed and queued, and one that
fails them is refused with a record of class 18; a writer capability reaches its new role once the old core's writes are complete. -/
def Obligations.ChainEvents : Prop :=
  (∀ (id : Nat) (p : Post) (cap : Capsule) (s : State), s.plaza.posts.find? (fun p => p.id == id) = some p →
    s.capsule? p.inst = some cap → p.queued = false → cap.coreParked p.core = false → (s.core p.core).evicting = false →
    s.fenced p.core p.slot p.slotSerial p.id .w [] = false → (∀ w ∈ p.waits, s.completeAt p.core 6 w = true) →
    s.obstacle? cap p.member false [(p.addr, s.templateLength cap p.member p.addr)] = none →
    let r := s.templateRead cap p.core p.member p.addr
    (s.templateFault cap p r = none → ∃ t q, exec (.childQueue id) s = .next t ∧ q ∈ t.plaza.posts ∧ q.id = id ∧
      q.queued = true ∧ q.prio = (headerOf r.bytes).prio ∧ q.image = sealed cap.hdr.owner r.bytes) ∧
    (∀ detail aux, s.templateFault cap p r = some (detail, aux) →
      ∃ t, exec (.childQueue id) s = .next t ∧ (∀ q ∈ t.plaza.posts, q.id ≠ id) ∧
        Records s t cap.inst 1 ⟨18, detail, aux, p.addr, false⟩)) ∧
  (∀ (id : Nat) (m : CapMove) (cap : Capsule) (s : State), s.capMoves.find? (fun m => m.id == id) = some m →
    s.capsule? m.inst = some cap → cap.coreParked m.fromCore = false → cap.coreParked m.toCore = false →
    (s.core m.toCore).evicting = false →
    (∀ w ∈ m.waits, s.completeAt m.fromCore (scopeOf m.fromCore m.toCore) w = true) →
    ∃ t cap', exec (.capabilityArrive id) s = .next t ∧ SameMemory s t ∧ (∀ o ∈ t.capMoves, o.id ≠ id) ∧
      t.capsule? m.inst = some cap' ∧
      (∀ h ∈ cap'.holders, h.member = m.member → h.ext = m.ext → h.role = some (s.core m.toCore).role) ∧
      (2 ≤ scopeOf m.fromCore m.toCore → (t.core m.toCore).l1 = []))

/-- R218, R219, R368, R405, R406: the first ending of a capsule stops every core of it, with no task left in a slot, under the status of
that ending, where a fault met in the drain turns 0 into 1; once drained, the capsule writes its record, with STATUS, the member, the
fault counts and the discarded packets in place, and its cores are free; a due message of an unmasked vector leaves. -/
def Obligations.CompletionEvents : Prop :=
  (∀ (inst status : Nat) (rest : List Nat) (cap : Capsule) (s : State), s.capsule? inst = some cap →
    cap.endReqs = status :: rest → cap.stage ≠ .completing →
    (∀ c ∈ cap.cores, (s.core c).inst = some inst → (s.core c).evicting = false) →
    ∃ t cap', exec (.capsuleComplete inst) s = .next t ∧ SameMemory s t ∧ t.capsule? inst = some cap' ∧
      cap'.stage = .completing ∧ (cap'.status = status ∨ (status = 0 ∧ cap'.status = 1)) ∧
      ∀ c ∈ cap.cores, (s.core c).inst = some inst → ∀ n, (t.slot c n).state = .empty) ∧
  (∀ (inst : Nat) (cap : Capsule) (s : State), s.capsule? inst = some cap → cap.stage = .completing →
    s.drainedCapsule cap = true → Inv s →
    ∃ t, exec (.completionRecordWrite inst) s = .next t ∧ t.capsule? inst = none ∧
      (∀ c ∈ s.liveCores cap, t.core c = Core.idle) ∧
      ∀ m, cap.members = [m] → s.devReach m.compl = true → m.compl % 64 = 0 →
        ∃ bytes, bytes.length = 64 ∧ MemoryStores s t m.compl bytes ∧
          bytes.take 16 = leBytes 2 cap.status ++ leBytes 1 0 ++
            leBytes 1 ((if cap.wasParked then 1 else 0) + if cap.merged then 2 else 0) ++ leBytes 2 m.nfault ++
            leBytes 2 (if m.nfault = 0 then 0 else m.first) ++ leBytes 4 cap.discarded ++ leBytes 4 cap.inst) ∧
  (∀ (q : Nat) (s : State), q ∈ s.plaza.msixDue → q ∉ s.host.msixMask →
    ∃ t, exec (.msixSend q) s = .next t ∧ OnlyHost s t ∧ t.host.out = s.host.out ++ [.msix q] ∧
      t.plaza.msixDue = s.plaza.msixDue.erase q)

/-- R221-R225, R447-R451: an eviction stops the cores it takes and counts the event; the image of a quiet core keeps its role, slots,
register space and scratchpad; a packet for a parked role is spilled; a good image is loaded into a free core, with the role bound to
it, and a bad one is refused; a firmware restart aborts uncommitted placements, and a capability fault refuses, ends, disables or
restarts by what it hit. -/
def Obligations.ParkingEvents : Prop :=
  (∀ (inst : Nat) (roles : List Nat) (cap : Capsule) (s : State), s.capsule? inst = some cap → roles ≠ [] → roles.Nodup →
    (∀ r ∈ roles, s.liveRole cap r = true ∧ ∀ q ∈ s.mmarPartners cap r, q ∈ roles ∨ s.liveRole cap q = false) →
    ((s.bay? inst).isSome = true ∨ s.plaza.bays.length < 4096) →
    (∃ h ∈ s.heads, h.1 = (s.heads.map (·.1)).foldl max 0 ∧ s.needed cap roles h.1 h.2 = true) →
    ∃ t cap', exec (.coreEvict inst roles) s = .next t ∧ SameMemory s t ∧ t.capsule? inst = some cap' ∧
      cap'.saveCounter = cap.saveCounter + 1 ∧ cap'.wasParked = true ∧
      ∀ r ∈ roles, ∀ c, cap.coreOf? 0 r = some c → (t.core c).evicting = true) ∧
  (∀ (core : Nat) (cap : Capsule) (s : State), s.capsuleOf? core = some cap → (s.core core).evicting = true →
    s.quiet cap.inst core = true →
    ∃ t cap' q, exec (.imageWrite core) s = .next t ∧ t.capsule? cap.inst = some cap' ∧ cap'.parked = cap.parked ++ [q] ∧
      q.role = (s.core core).role ∧ q.counter = (s.core core).evictAs.1 ∧ q.saved.slots = (s.core core).slots ∧
      q.saved.regs = (s.core core).regs ∧ q.saved.channels = (s.core core).channels ∧ q.saved.queue = (s.core core).queue ∧
      q.scratch = s.scratchBytes cap core ∧ (t.core core).inst = none) ∧
  (∀ (p : Packet) (cap : Capsule) (q : Parked) (s : State), s.packet? p.id = some p → s.capsule? p.inst = some cap →
    cap.parked.find? (fun q => q.role == p.role) = some q → p.state = .moving → s.packetOvertakes p = false →
    (q.spills.length < 256 → ∃ t cap', exec (.parkedPacketDivert p.id) s = .next t ∧ t.capsule? p.inst = some cap' ∧
      (∃ w ∈ cap'.parked, w.role = p.role ∧ w.spills = q.spills ++ [p.id]) ∧
      ∃ w ∈ t.packets, w.id = p.id ∧ w.state = .queued) ∧
    (256 ≤ q.spills.length → ∃ t, exec (.parkedPacketDivert p.id) s = .next t ∧ SameMemory s t ∧
      ∃ w ∈ t.packets, w.id = p.id ∧ w.state = .parkedWait)) ∧
  (∀ (inst role core a : Nat) (cap : Capsule) (q : Parked) (s : State), s.capsule? inst = some cap →
    cap.parked.find? (fun q => q.role == role) = some q → s.clocked = true → s.isFree core = true →
    s.restorable cap role core = true → s.partnersFit cap q core = true → s.mayRestore cap = true →
    s.lostRole cap role = false → (cap.stage = .running ∨ cap.stage = .completing) → cap.coreOf? 0 role = some a → Inv s →
    (s.imageGood cap q = true → ∃ t cap', exec (.imageRestore inst role core) s = .next t ∧ t.capsule? inst = some cap' ∧
      cap'.isParked role = false ∧ cap'.coreOf? 0 role = some core ∧ (t.core core).inst = q.saved.inst ∧
      (t.core core).role = q.saved.role ∧ (t.core core).regs = q.saved.regs ∧
      ∀ i, i < q.scratch.length → readByte t.mem (scratchAddr s.pkgId core 0 + i) = q.scratch.getD i 0) ∧
    (s.imageGood cap q = false → ∃ t, exec (.imageRestore inst role core) s = .next t ∧ SameMemory s t ∧
      t.refusalsOf inst role = s.refusalsOf inst role + 1)) ∧
  (∀ s : State, s.host.ready = true →
    (∃ t, exec .firmwareRestart s = .next t ∧ OnlyHost { s with freeCount := t.freeCount } t ∧
      t.capsules = s.capsules.map Capsule.abort ∧ t.plaza.restarts = s.plaza.restarts + 1) ∧
    (s.topServe?.isSome = true ∨ s.plaza.serving.isSome = true → ∃ t, exec .watchdogExpire s = .next t ∧ SameMemory s t ∧
      t.capsules = s.capsules.map Capsule.abort ∧ t.plaza.restarts = s.plaza.restarts + 1) ∧
    (∀ q, s.plaza.serving = some (.queue q) → ∃ t, exec (.capabilityFault 0 0) s = .next t ∧ SameMemory s t ∧
      t.plaza.serving = none ∧ (t.queue q).consumed = (s.queue q).consumed + 1) ∧
    (∀ inst cap, s.capsule? inst = some cap →
      (cap.uncommitted = true → ∃ t, exec (.capabilityFault 1 inst) s = .next t ∧ t.capsule? inst = none) ∧
      (cap.uncommitted = false → ∃ t cap', exec (.capabilityFault 1 inst) s = .next t ∧ SameMemory s t ∧
        t.capsule? inst = some cap' ∧ cap'.endReqs = cap.endReqs ++ [5])) ∧
    (∀ q, q < 256 → (s.queue q).en = true → ∃ t, exec (.capabilityFault 2 q) s = .next t ∧ SameMemory s t ∧
      (t.queue q).en = false) ∧
    ∃ t, exec (.capabilityFault 3 0) s = .next t ∧ SameMemory s t ∧ t.plaza.restarts = s.plaza.restarts + 1)

/-- R202, R200, R204, R363, R446: a higher post number reaches the latch of an enabled queue, and wakes the package, and any other post
word changes nothing; setting EN with a SLOTLOG of 1 to 16 starts the queue from empty, behind the others of its priority (the model's
choice, log 116), and with another SLOTLOG is ignored; clearing it takes the queue from its run list. -/
def Obligations.QueueRegisters : Prop :=
  ∀ (q : Nat) (s : State), HostAnswers s → q < 256 →
    let v := s.queue q
    (∀ rid size word : Nat, (∀ w ∈ s.host.inbound, w.rid = rid → w.read = true) →
      let p := word / 2 ^ 64 % 2 ^ 64
      (size = 16 → word % 2 ^ 8 = q → v.en = true → v.latch < p →
        ∃ t, exec (.submit rid q size word) s = .next t ∧ OnlyHost s t ∧ t.queue q = { v with latch := p } ∧
          (∀ r, r ≠ q → t.queue r = s.queue r) ∧ (s.host.power ≠ .gated → t.host.power = .run) ∧
          (s.host.power = .gated → t.host.waking = true)) ∧
      (size ≠ 16 ∨ word % 2 ^ 8 ≠ q ∨ v.en = false ∨ p ≤ v.latch → exec (.submit rid q size word) s = .next s)) ∧
    (∀ value : Nat, v.en = false → value / 2 ^ 31 % 2 = 1 →
      let prio := value / 2 ^ 8 % 2 ^ 6
      (1 ≤ value % 2 ^ 5 → value % 2 ^ 5 ≤ 16 →
        ∃ t, exec (.qcfgEnable q value) s = .next t ∧ OnlyHost s t ∧
          t.queue q = ⟨true, decide (value / 2 ^ 16 % 2 = 1), prio, value % 2 ^ 5, v.array, 0, 0, true⟩ ∧
          (∀ r, r ≠ q → t.queue r = s.queue r) ∧
          SMap.get [] t.plaza.runLists prio = SMap.get [] s.plaza.runLists prio ++ [q]) ∧
      (value % 2 ^ 5 = 0 ∨ 16 < value % 2 ^ 5 → exec (.qcfgEnable q value) s = .next s)) ∧
    (v.en = true → ∃ t, exec (.qcfgDisable q) s = .next t ∧ OnlyHost s t ∧ t.queue q = { v with en := false, own := false } ∧
      (∀ r, r ≠ q → t.queue r = s.queue r) ∧ q ∉ SMap.get [] t.plaza.runLists v.qprio ∧
      t.plaza.serving ≠ some (.queue q))

/-- R365, R366, R380, R463, R464, R371, R373, R374, R228, R376-R379, R441, R375: the registers behind BAR0 and what Lysgeza does on
them: windows, locks, the Onazal link, power states, the mailbox, the kill register and bring-up. No byte of memory changes, but for the
weight store, which a package that enters GATED clears. -/
def Obligations.HostRegisters : Prop :=
  (∀ (w : Nat) (s : State), HostAnswers s → w < 64 →
    let v := s.window w
    (v.en = false → s.domainError 1 = false →
      (WindowFits s w → (v.owner = 0 ∨ (s.takeLane v.owner).isSome = true) →
        ∃ t, exec (.windowEnable w) s = .next t ∧ OnlyHost s t ∧ t.window w = { v with en := true, refused := false }) ∧
      ((¬WindowFits s w ∨ v.owner ≠ 0 ∧ (s.takeLane v.owner).isNone = true) →
        ∃ t, exec (.windowEnable w) s = .next t ∧ OnlyHost s t ∧ t.window w = { v with refused := true })) ∧
    (v.en = true → ∃ t, exec (.windowDisable w) s = .next t ∧ SameMemory s t ∧ t.window w = { v with en := false })) ∧
  (∀ (value : Nat) (s : State), HostAnswers s →
    ∃ t, exec (.lockSet value) s = .next t ∧ OnlyHost s t ∧ t.host.lock = s.host.lock ||| BitVec.ofNat 17 value ∧
      ∀ d, d < 17 → s.host.lock.getLsbD d = false → value / 2 ^ d % 2 = 1 →
        SMap.get [] t.host.digests d = sha3_512 (s.domainBytes d)) ∧
  (∀ (d : Nat) (s : State), d < 17 → s.host.lock.getLsbD d = true → s.host.lockErr.getLsbD d = false →
    SMap.get [] s.host.digests d ≠ sha3_512 (s.domainBytes d) →
    ∃ t, exec (.lockWalkerCheck d) s = .next t ∧ SameMemory s t ∧ t.host.lockErr.getLsbD d = true ∧ t.host.error = true ∧
      (d = 1 → ∀ w, (t.window w).en = false) ∧ (d = 2 → ∀ p, p < 18 → (t.onzPort p).up = false)) ∧
  (∀ (value : Nat) (s : State), HostAnswers s → value % 2 = 1 → s.host.lock.getLsbD 2 = false →
    1 ≤ s.host.onzId / 2 ^ 32 % 2 ^ 13 → s.host.onzId / 2 ^ 32 % 2 ^ 13 ≤ 6144 → s.pkgId < s.host.onzId / 2 ^ 32 % 2 ^ 13 →
    let enabled := fun (t : State) => OnlyHost s t ∧ t.host.onzCtl = 1 + value / 2 ^ 8 % 2 ^ 18 * 2 ^ 8
    (s.onzEn = false → ∃ t, exec (.onazalEnable value) s = .next t ∧ enabled t) ∧
    (s.onzEn = true → ∃ t, exec (.onazalPortEnable value) s = .next t ∧ enabled t)) ∧
  (∀ (port lanes : Nat) (s : State), port < 18 → 1 ≤ lanes → lanes ≤ 8 → s.onzEn = true → s.onzPortEn port = true →
    (s.onzPort port).up = false → s.domainError 2 = false →
    ∃ t, exec (.onazalPortTrained port lanes) s = .next t ∧ OnlyHost s t ∧
      t.onzPort port = { s.onzPort port with up := true, lanes := lanes }) ∧
  (∀ (n : Nat) (i : Instr) (s : State), HostAnswers s →
    (i = .pwrctlRun ∧ n = 0 ∨ i = .pwrctlIdle ∧ n = 1 ∨ i = .pwrctlGated ∧ n = 2) →
    ∃ t, exec i s = .next t ∧ OnlyHost s t ∧ t.host.pwrctl = n ∧ t.host.power = s.host.power ∧
      t.host.pwrPending = decide (n ≠ if s.host.waking then 0 else s.host.power.code)) ∧
  (∀ s : State, s.host.pwrPending = true → s.host.waking = false → Inv s →
    (s.host.pwrctl = 0 → ∃ t, exec .powerStateEnter s = .next t ∧ OnlyPowered s t ∧ t.host.power = .run) ∧
    (s.host.pwrctl = 1 → (∀ e ∈ s.cores, e.2.inst = none) →
      ∃ t, exec .powerStateEnter s = .next t ∧ OnlyPowered s t ∧ t.host.power = .idle) ∧
    (s.host.pwrctl = 2 → (∀ c ∈ s.capsules, c.uncommitted = true) →
      ∃ t, exec .powerStateEnter s = .next t ∧ t.host.power = .gated ∧ t.stock = [] ∧
        ∀ a, readByte t.mem a = if devSpace a = 1 ∧ devPkg a = s.pkgId then 0 else readByte s.mem a)) ∧
  (∀ s : State, s.host.waking = true →
    ∃ t, exec .wakeSequenceComplete s = .next t ∧ OnlyPowered s t ∧ t.host.power = .run ∧ t.host.waking = false) ∧
  (∀ s : State,
    (s.host.mbCode = 1 → ∃ t, exec .mailboxEvidence s = .next t ∧ OnlyHost s t ∧ t.host.mbCode = 0 ∧ t.host.mbResult = 0 ∧
      ∀ i, i < s.evidence.length → t.mbByte (0x8010 + i) = s.evidence.getD i 0) ∧
    (s.host.mbCode = 2 →
      let pk := s.mbBytes 0xC000 2592
      let ek := s.mbBytes 0xCA20 1568
      let signed := Config.mldsaVerify pk (sha3_512 (s.mbBytes 0xD040 64 ++ padTo 2592 identityKey ++ ek)) (s.mbBytes 0xD080 4627)
      ∃ t, exec .mailboxOwnerKey s = .next t ∧ OnlyHost { s with freeCount := t.freeCount } t ∧ t.host.mbCode = 0 ∧
        (signed = false → t.host.mbResult = 1) ∧
        (signed = true → ownerId pk = 0 → t.host.mbResult = 2) ∧
        (signed = true → ownerId pk ≠ 0 → Config.mlkemKeyValid ek = false → t.host.mbResult = 3) ∧
        (signed = true → ownerId pk ≠ 0 → Config.mlkemKeyValid ek = true → t.host.mbResult = 0))) ∧
  (∀ (inst : Nat) (s : State), HostAnswers s → inst < 2 ^ 32 → s.host.killGo = false →
    (∀ cap, s.capsule? inst = some cap → cap.ending = false →
      ∃ t cap', exec (.killctlGo inst) s = .next t ∧ SameMemory s t ∧ t.host.killGo = true ∧ t.host.killInst = inst ∧
        t.capsule? inst = some cap' ∧ cap'.endReqs = cap.endReqs ++ [6]) ∧
    ((∀ cap, s.capsule? inst = some cap → cap.ending = true) →
      ∃ t, exec (.killctlGo inst) s = .next t ∧ OnlyHost s t ∧ t.host.killResult = 2 ∧ t.host.killGo = false ∧
        t.capsules = s.capsules)) ∧
  (∀ (value : Nat) (s : State), HostAnswers s → value < 2 ^ 64 →
    exec (.registerWrite 0 value) s = .next s ∧
    (∃ t, exec (.registerWrite 0x10 value) s = .next t ∧ OnlyHost s t ∧ t.host.opctl = value % 2 ^ 14) ∧
    (∀ q, q < 256 → (s.queue q).en = false → value % 64 = 0 → openSpace value = true →
      ∃ t, exec (.registerWrite (0x10000 + 64 * q + 0x20) value) s = .next t ∧ OnlyHost s t ∧
        t.queue q = { s.queue q with array := value })) ∧
  (∀ s : State, s.host.ready = false → s.host.error = false →
    (∀ b, s.acceptedBlob = some b → ∃ t, exec .bringUp s = .next t ∧ OnlyHost s t ∧ t.host.ready = true ∧
      t.host.blob = some b ∧ t.host.measurement = sha3_512 b.bytes) ∧
    (s.acceptedBlob = none → ∃ t, exec .bringUp s = .next t ∧ OnlyHost s t ∧ t.host.error = true ∧ t.host.ready = false))

/-- R364, R365, R367, R396, R439, R157, R369, R361, R410, R409, R437, R438: an inbound write in an enabled window is split into line pieces
that wait, and each is sent once the requester's earlier writes allow it; an inbound read is sent or answered; a request outside every
window is reported, and so is every read in D3hot; a request of another package takes its owner's lane; links replay and retrain; the scrubber and the self-checks
handle what they find. The unit and level numbers of the log (log 26), the kind and location of its entries (logs 33 and 74), the AER
bit and D3hot (log 101) and the numbers of the links (log 102) are the model's choices. -/
def Obligations.InboundAndLinks : Prop :=
  (∀ (rid addr : Nat) (data : List Byte) (s : State), HostAnswers s → data.length ≠ 0 → data.length ≤ 512 →
    addr / 4096 = (addr + data.length - 1) / 4096 → s.writesHeld < 512 →
    (∀ w, s.windowFor? addr data.length = some w →
      ∃ t q, exec (.inboundWrite rid 2 addr data) s = .next t ∧ SameMemory s t ∧ t.host.inbound = s.host.inbound ++ [q] ∧
        q.seq = s.host.inboundSeq + 1 ∧ t.host.inboundSeq = s.host.inboundSeq + 1 ∧ q.rid = rid ∧ q.owner = w.owner ∧
        q.read = false ∧ q.pieces.flatMap (·.data) = data ∧
        ∀ p ∈ q.pieces, p.state = .waiting ∧ p.addr / 64 = (p.addr + p.size - 1) / 64 ∧ p.data.length = p.size) ∧
    (s.windowFor? addr data.length = none →
      ∃ t, exec (.inboundWrite rid 2 addr data) s = .next t ∧ OnlyHost s t ∧ t.host.inbound = s.host.inbound ∧
        t.host.aer.getLsbD 20 = true ∧ Logged t 18 addr 1)) ∧
  (∀ (seq piece : Nat) (w : Inbound) (p : LinePiece) (s : State),
    s.host.inbound.find? (fun w => w.seq == seq && !w.read) = some w → w.pieces.find? (fun p => p.index == piece) = some p →
    p.state = .waiting → s.pieceReady w p = true →
    ∃ t w' p', exec (.inboundPieceSend seq piece) s = .next t ∧ SameMemory s t ∧ w' ∈ t.host.inbound ∧ w'.seq = seq ∧
      p' ∈ w'.pieces ∧ p'.index = piece ∧ p'.state = .sent) ∧
  (∀ (rid addr len : Nat) (s : State), HostAnswers s → len ≠ 0 → addr / 4096 = (addr + len - 1) / 4096 →
    (∀ w ∈ s.host.inbound, w.rid = rid → w.read = true) →
    (∀ w, s.windowFor? addr len = some w →
      ∃ t q, exec (.inboundRead rid 2 addr len) s = .next t ∧ SameMemory s t ∧ t.host.inbound = s.host.inbound ++ [q] ∧
        q.rid = rid ∧ q.owner = w.owner ∧ q.read = true ∧ ∀ p ∈ q.pieces, p.state = .sent) ∧
    (s.windowFor? addr len = none →
      ∃ t, exec (.inboundRead rid 2 addr len) s = .next t ∧ OnlyHost s t ∧ .unsupported rid addr ∈ t.host.out ∧
        Logged t 18 addr 1) ∧
    (addr % 8 = 0 → addr + len ≤ 2 ^ 20 →
      ∃ t bytes, exec (.inboundRead rid 0 addr len) s = .next t ∧ OnlyHost s t ∧ bytes.length = len ∧
        t.host.out = s.host.out ++ [.readData rid addr bytes] ∧ (len = 8 → bytes = leBytes 8 (s.readReg addr)))) ∧
  (∀ (rid space addr len : Nat) (s : State), s.host.ready = true → s.d3hot = true →
    ∃ t, exec (.inboundRead rid space addr len) s = .next t ∧ OnlyHost s t ∧ t.host.out = s.host.out ++ [.unsupported rid addr]) ∧
  (∀ (header addr size : Nat) (data : List Byte) (o : RemoteOp) (s : State), s.host.ready = true → s.onzUp = true →
    (s.takeLane (reqOwner header)).isSome = true → devPkg addr = s.pkgId → devSpace addr ≠ 4 → size ≠ 0 →
    addr / 64 = (addr + size - 1) / 64 → remoteOp? header = some o → o.shapeOk addr size data = true →
    ∃ t q, exec (.remoteRequestArrive header addr size data) s = .next t ∧ SameMemory s t ∧
      t.host.remote = s.host.remote ++ [q] ∧ q.owner = reqOwner header ∧ q.addr = addr ∧ q.size = size ∧ q.op = o ∧ q.store = data ∧
      q.inst = reqInst header ∧ (t.laneOfOwner? (reqOwner header)).isSome = true) ∧
  (∀ (link flit : Nat) (s : State),
    (ownProtection link = false → s.replaysOf link flit < 8 →
      ∃ t, exec (.linkCrcReplay link flit) s = .next t ∧ OnlyHost s t ∧ t.replaysOf link flit = s.replaysOf link flit + 1 ∧
        Logged t (linkUnit link) link 2) ∧
    (ownProtection link = true → ∃ t, exec (.linkCrcReplay link flit) s = .next t ∧ OnlyHost s t ∧
      t.host.replays = s.host.replays ∧ Logged t 18 link 2)) ∧
  (∀ (link lanes : Nat) (insts : List Nat) (s : State), (∃ r ∈ s.host.replays, r.1 = link ∧ 8 ≤ r.2.2) →
    (∀ i ∈ insts, s.underWay i = true) →
    ∃ t, exec (.linkRetrain link lanes insts) s = .next t ∧ SameMemory s t ∧ (∀ r ∈ t.host.replays, r.1 ≠ link) ∧
      (link < 18 → lanes ≤ 8 → (t.onzPort link).lanes = lanes ∧
        (t.onzPort link).retrains = ((s.onzPort link).retrains + 1) % 2 ^ 16) ∧
      (lanes = 0 → ∀ i ∈ insts, ∀ cap, s.capsule? i = some cap → cap.uncommitted = false →
        ∃ cap', t.capsule? i = some cap' ∧ 5 ∈ cap'.endReqs)) ∧
  (∀ (level addr : Nat) (s : State), 1 ≤ level → level ≤ 8 →
    (∃ t, exec (.scrubPass level addr 1) s = .next t ∧ OnlyHost s t ∧ Logged t level addr 0) ∧
    (level = 1 ∨ level = 7 ∨ level = 8 → ∃ t, exec (.scrubPass level addr 2) s = .next t ∧ SameMemory s t ∧
      SMap.get 0 t.bad (addr / 64) = level ∧ Logged t level addr 1) ∧
    (level = 2 → ∃ t, exec (.scrubPass level addr 2) s = .next t ∧ SameMemory s t ∧ Logged t level addr 1 ∧
      addr % 512 ∈ (t.core (addr / 512)).badGrans) ∧
    (level = 3 → ∃ t, exec (.scrubPass level addr 2) s = .next t ∧ SameMemory s t ∧ Logged t level addr 0 ∧
      ∀ c, ∀ l ∈ (t.core c).l1, l.line ≠ addr / 64)) ∧
  (∀ (index : Nat) (s : State),
    (index < 36 → ∃ t, exec (.selfCheckFail 4 index) s = .next t ∧ SameMemory s t ∧
      ∀ l ∈ t.cross, ¬(l.chiplet = index / 6 ∧ l.port = index % 6)) ∧
    (index < 2304 → ∃ t, exec (.selfCheckFail 9 index) s = .next t ∧ SameMemory s t ∧ (9, index) ∈ t.failedHomes) ∧
    (index < 12 → ∃ t, exec (.selfCheckFail 10 index) s = .next t ∧ SameMemory s t ∧ (10, index) ∈ t.failedHomes))

/-! Whole-machine rules -/

/-- R82, R233, R415: whatever the instruction, a marked one whose task has results outstanding parks it and does nothing; one whose
guard does not hold only goes on behind itself. -/
def Obligations.SwitchMarkerAndGuard : Prop :=
  ∀ (i : Instr) (p : Parts) (s : State) (x : Cur), i.parts = some p → s.cur? (lenBytes p.len) = some x →
    (p.h.s = true → x.k.outstanding x.n = true →
      ∃ t, exec i s = .next t ∧ (t.slot x.c x.n).state = .parked ∧ (t.slot x.c x.n).task = x.t ∧ OnlyCore s t x.c) ∧
    ((p.h.s = true → x.k.outstanding x.n = false) → guardHolds p.h x.t = false →
      ∃ t, exec i s = .next t ∧ KeepsTask s t x (x.pc + lenBytes p.len))

/-- R82, R147, R167, R105: no instruction that a core issues changes a byte of memory, a full/empty bit, a guard bit of a line, the key of
a line or a clock: those change at homes. No core of another capsule, and no task in another slot of its core, changes with it. Outside a
system capsule it draws no free value: what it writes is fixed by the state it finds. -/
def Obligations.IssueTouchesNoMemory : Prop :=
  ∀ (i : Instr) (s t : State) (x : Cur) (len : Nat), i.isEvent = false → s.cur? len = some x → exec i s = .next t →
    t.mem = s.mem ∧ t.full = s.full ∧ t.sguard = s.sguard ∧ t.hbmKeys = s.hbmKeys ∧ t.layers = s.layers ∧
      t.agenda = s.agenda ∧ (s.isSystem x.cap = false → t.freeCount = s.freeCount) ∧
      (∀ d, d ≠ x.c → (s.core d).inst ≠ some x.cap.inst → t.core d = s.core d) ∧
      ∀ m, m % 8 ≠ x.n % 8 → (t.slot x.c m).task = (s.slot x.c m).task

/-- R229-R245, R413: the decoder reads every well-formed instruction back from its bytes, with every operand at every value the
encoding takes. -/
def Obligations.DecodeEncode : Prop :=
  ∀ i : Instr, i.isEvent = false → i.WellFormed → decodeBytes (encodeBytes i) = .ok (i, i.lenB)

/-- Every step keeps memory in its canonical form: addresses rise, and no entry equals what an unlisted byte reads as (log 4). -/
def Obligations.StepKeepsMemory : Prop :=
  ∀ s t : State, Inv s → step s = .next t → Inv t

/-- Every step keeps accesses, and packets, under numbers of their own, below the next number (log 1). -/
def Obligations.StepKeepsNumbers : Prop :=
  ∀ s t : State, Numbered s → step s = .next t → Numbered t ∧ s.serial ≤ t.serial

/-- R363, R373, R375, R380, R463, R441: at reset the package is not ready, no queue is enabled, no domain is locked or in error, no kill
is in progress, power is RUN, and the operating points are as R373 gives. No capsule exists and no core has one; memory lists nothing
and reads 0 (log 4, the model's choice), and both invariants hold. -/
def Obligations.ResetState : Prop :=
  let h := State.reset.host
  Inv State.reset ∧ Numbered State.reset ∧ h.ready = false ∧ h.error = false ∧ h.power = .run ∧ h.lock = 0 ∧ h.lockErr = 0 ∧
    h.killGo = false ∧ h.opdef = #v[600, 600, 600, 1900] ∧ h.opctl / 2 ^ 8 % 2 ^ 4 = 0xF ∧ h.opctl / 2 ^ 12 = 0 ∧
    (∀ c, c < 4 → h.opctl / 2 ^ (2 * c) % 2 ^ 2 = 3) ∧ (∀ q, (State.reset.queue q).en = false) ∧ State.reset.capsules = [] ∧
    (∀ c, (State.reset.core c).inst = none) ∧ ∀ a, readByte State.reset.mem a = 0

/-- R81, R229: when the issue port of a core comes to a slot whose instruction is present, and the bytes at its pc, up to the end of its
32-byte block, decode to `i`, the step is `exec i` at the state in which that slot holds the port. A turn of the agenda first advances
its clocks, and is that issue or its event (log 1). -/
def Obligations.StepRunsDecoded : Prop :=
  ∀ (s : State) (i : Instr),
    (s.agenda = [] → step s = issueStep s) ∧
    (∀ (clocks : List (Nat × Nat)) (c : Nat) (rest : List Turn), s.agenda = ⟨clocks, .issue c⟩ :: rest →
      step s = issueStep { s.advance clocks with agenda := rest, actor := c }) ∧
    (∀ (clocks : List (Nat × Nat)) (rest : List Turn), s.agenda = ⟨clocks, .event i⟩ :: rest → i.isEvent = true →
      step s = exec i { s.advance clocks with agenda := rest }) ∧
    ∀ (n len : Nat) (cap : Capsule), s.choosePort s.actor = some n → s.capsuleOf? s.actor = some cap →
      let pc := (s.slot s.actor n).task.pc.toNat
      n < 8 → pc < cap.code.length → (s.core s.actor).istore.contains (pc / 32) = true →
      decodeBytes (cap.codeBytes pc (32 - pc % 32)) = .ok (i, len) →
      issueStep s = exec i (s.takePort s.actor n)

/-- R238, R231: the words that the spec works out from its encoding tables decode to the instructions they stand for, and the word
after them is no instruction. -/
def Obligations.DecodeSanity : Prop :=
  decodeTableWord 96 0x00000001000000020001B869 = some (.liw ⟨false, 7, false⟩ ⟨3, 0, 0x0000000100000002⟩) ∧
  decodeTableWord 64 0x0000000020633880 = some (.add ⟨false, 7, false⟩ ⟨6, 0, 3, 0, 4, 0, 0, 0, 0, 0⟩) ∧
  decodeTableWord 64 0x0000000020633884 = some (.add ⟨false, 7, true⟩ ⟨6, 0, 3, 0, 4, 0, 0, 0, 0, 0⟩) ∧
  decodeTableWord 64 0x00000000C0A33A08 = some (.st ⟨false, 7, false⟩ ⟨6, 0, 5, 0, 0, 3, 0, 0, 0⟩) ∧
  decodeTableWord 64 0x0000000000003DD0 = some (.done ⟨false, 7, false⟩ ⟨0⟩) ∧
  decodeTableWord 96 0x3809 = some (.nop96 ⟨false, 7, false⟩ ⟨0⟩) ∧
  decodeTableWord 96 0x0000008818113AA9 = some (.fence ⟨false, 7, false⟩ ⟨2, 2, 3, 2 * 2 ^ 3 + 1⟩) ∧
  decodeTableWord 64 0 = none
end

