-- ==== Sys2Proof/Laws/Maps.lean ====
section
/-! SUPPORT. Laws of finite maps and of memory: what a read after a write gives, that a write leaves every other key alone,
and that every memory operation keeps the canonical form. -/

namespace Sys2Proof.Machine

variable {α : Type}

theorem SMap.get_put_same (d : α) (m : SMap α) (n : Nat) (x : α) : SMap.get d (SMap.put m n x) n = x := by
  induction m with
  | nil => simp [SMap.put, SMap.get]
  | cons e m ih =>
    obtain ⟨k, v⟩ := e
    by_cases h : n = k
    · simp [SMap.put, SMap.get, h]
    · by_cases h2 : n < k
      · simp [SMap.put, SMap.get, h, h2]
      · simp [SMap.put, SMap.get, h, h2, ih]

theorem SMap.get_put_other (d : α) (m : SMap α) {n a : Nat} (x : α) (ha : a ≠ n) :
    SMap.get d (SMap.put m n x) a = SMap.get d m a := by
  induction m with
  | nil =>
    simp only [SMap.put, SMap.get]
    split
    · contradiction
    · simp
  | cons e m ih =>
    obtain ⟨k, v⟩ := e
    by_cases h : n = k
    · subst h; simp [SMap.put, SMap.get, ha]
    · by_cases h2 : n < k
      · by_cases h3 : a < n
        · have : a ≠ k ∧ a < k := by omega
          simp [SMap.put, SMap.get, h, h2, ha, h3, this]
        · simp [SMap.put, SMap.get, h, h2, ha, h3]
      · simp [SMap.put, SMap.get, h, h2, ih]

/-- The head of a map does not stop `n` from standing before it. -/
def SMap.below (n : Nat) : SMap α → Prop
  | [] => True
  | (k, _) :: _ => n < k

variable [DecidableEq α]

theorem SMap.wf_cons {d : α} {k : Nat} {v : α} {m : SMap α} :
    SMap.wf d ((k, v) :: m) = true ↔ v ≠ d ∧ SMap.below k m ∧ SMap.wf d m = true := by
  cases m with
  | nil => simp [SMap.wf, SMap.below]
  | cons e m => obtain ⟨k', v'⟩ := e; simp [SMap.wf, SMap.below, and_assoc]

omit [DecidableEq α] in
theorem SMap.get_below {d : α} {m : SMap α} {n : Nat} (h : SMap.below n m) : SMap.get d m n = d := by
  cases m with
  | nil => rfl
  | cons e m => obtain ⟨k, v⟩ := e; simp only [SMap.below] at h; simp [SMap.get, h, Nat.ne_of_lt h]

omit [DecidableEq α] in
theorem SMap.below_trans {m : SMap α} {n k : Nat} (h : SMap.below k m) (hn : n < k) : SMap.below n m := by
  cases m with
  | nil => trivial
  | cons e m => obtain ⟨k', v⟩ := e; simp only [SMap.below] at *; omega

omit [DecidableEq α] in
theorem SMap.below_put {m : SMap α} {n k : Nat} {x : α} (h : SMap.below k m) (hn : k < n) : SMap.below k (SMap.put m n x) := by
  cases m with
  | nil => exact hn
  | cons e m =>
    obtain ⟨k', v⟩ := e
    simp only [SMap.below] at h
    simp only [SMap.put]
    split
    · exact h
    · split
      · exact hn
      · exact h

theorem SMap.wf_put {d : α} {m : SMap α} (n : Nat) {x : α} (hm : SMap.wf d m = true) (hx : x ≠ d) :
    SMap.wf d (SMap.put m n x) = true := by
  induction m with
  | nil => simp [SMap.put, SMap.wf, hx]
  | cons e m ih =>
    obtain ⟨k, v⟩ := e
    obtain ⟨hv, hb, hw⟩ := SMap.wf_cons.1 hm
    simp only [SMap.put]
    split
    · exact SMap.wf_cons.2 ⟨hx, hb, hw⟩
    · split
      · exact SMap.wf_cons.2 ⟨hx, by assumption, hm⟩
      · exact SMap.wf_cons.2 ⟨hv, SMap.below_put hb (by omega), ih hw⟩

theorem SMap.below_erase {d : α} {m : SMap α} {n k : Nat} (hm : SMap.wf d m = true) (h : SMap.below k m) :
    SMap.below k (SMap.erase m n) := by
  cases m with
  | nil => trivial
  | cons e m =>
    obtain ⟨k', v⟩ := e
    obtain ⟨-, hb, -⟩ := SMap.wf_cons.1 hm
    simp only [SMap.below] at h
    simp only [SMap.erase]
    split
    · exact SMap.below_trans hb h
    · exact h

theorem SMap.wf_erase {d : α} {m : SMap α} (n : Nat) (hm : SMap.wf d m = true) : SMap.wf d (SMap.erase m n) = true := by
  induction m with
  | nil => rfl
  | cons e m ih =>
    obtain ⟨k, v⟩ := e
    obtain ⟨hv, hb, hw⟩ := SMap.wf_cons.1 hm
    simp only [SMap.erase]
    split
    · exact hw
    · exact SMap.wf_cons.2 ⟨hv, SMap.below_erase hw hb, ih hw⟩

theorem SMap.wf_set {d : α} {m : SMap α} (n : Nat) (x : α) (hm : SMap.wf d m = true) :
    SMap.wf d (SMap.set d m n x) = true := by
  unfold SMap.set
  split
  · exact SMap.wf_erase n hm
  · exact SMap.wf_put n hm (by assumption)

theorem SMap.get_erase_same {d : α} {m : SMap α} (n : Nat) (hm : SMap.wf d m = true) : SMap.get d (SMap.erase m n) n = d := by
  induction m with
  | nil => rfl
  | cons e m ih =>
    obtain ⟨k, v⟩ := e
    obtain ⟨-, hb, hw⟩ := SMap.wf_cons.1 hm
    simp only [SMap.erase]
    split
    · rename_i h; subst h; exact SMap.get_below hb
    · rename_i h; simp [SMap.get, h, ih hw]

theorem SMap.get_erase_other {d : α} {m : SMap α} {n a : Nat} (hm : SMap.wf d m = true) (ha : a ≠ n) :
    SMap.get d (SMap.erase m n) a = SMap.get d m a := by
  induction m with
  | nil => rfl
  | cons e m ih =>
    obtain ⟨k, v⟩ := e
    obtain ⟨-, hb, hw⟩ := SMap.wf_cons.1 hm
    simp only [SMap.erase]
    split
    · rename_i h
      subst h
      by_cases h3 : a < n
      · simp [SMap.get, ha, h3, SMap.get_below (SMap.below_trans hb h3)]
      · simp [SMap.get, ha, h3]
    · simp [SMap.get, ih hw]

theorem SMap.get_set_same {d : α} {m : SMap α} (n : Nat) (x : α) (hm : SMap.wf d m = true) :
    SMap.get d (SMap.set d m n x) n = x := by
  unfold SMap.set
  split
  · rename_i h; rw [SMap.get_erase_same n hm, h]
  · exact SMap.get_put_same ..

theorem SMap.get_set_other {d : α} {m : SMap α} {n a : Nat} (x : α) (hm : SMap.wf d m = true) (ha : a ≠ n) :
    SMap.get d (SMap.set d m n x) a = SMap.get d m a := by
  unfold SMap.set
  split
  · exact SMap.get_erase_other hm ha
  · exact SMap.get_put_other d m x ha

/-! Memory -/

theorem readByte_writeByte_same {m : List Host.Cell} (a : Nat) (b : Byte) (hm : Memory.wf m) :
    readByte (writeByte m a b) a = b := SMap.get_set_same a b hm

theorem readByte_writeByte_other {m : List Host.Cell} {a c : Nat} (b : Byte) (hm : Memory.wf m) (h : c ≠ a) :
    readByte (writeByte m a b) c = readByte m c := SMap.get_set_other b hm h

theorem writeByte_keeps_wf {m : List Host.Cell} (a : Nat) (b : Byte) (hm : Memory.wf m) : Memory.wf (writeByte m a b) :=
  SMap.wf_set a b hm

theorem writeBytes_keeps_wf {m : List Host.Cell} (a : Nat) (bs : List Byte) (hm : Memory.wf m) :
    Memory.wf (writeBytes m a bs) := by
  induction bs generalizing m a with
  | nil => exact hm
  | cons b bs ih => exact ih (a + 1) (writeByte_keeps_wf a b hm)

/-- A store leaves every byte outside its range as it was. -/
theorem readByte_writeBytes_outside {m : List Host.Cell} {a c : Nat} (bs : List Byte) (hm : Memory.wf m)
    (h : c < a ∨ a + bs.length ≤ c) : readByte (writeBytes m a bs) c = readByte m c := by
  induction bs generalizing m a with
  | nil => rfl
  | cons b bs ih =>
    simp only [List.length_cons] at h
    rw [writeBytes, ih (writeByte_keeps_wf a b hm) (by omega), readByte_writeByte_other b hm (by omega)]

/-- A store puts its bytes at rising addresses. -/
theorem readByte_writeBytes_inside {m : List Host.Cell} {a i : Nat} (bs : List Byte) (hm : Memory.wf m) (h : i < bs.length) :
    readByte (writeBytes m a bs) (a + i) = bs[i] := by
  induction bs generalizing m a i with
  | nil => simp at h
  | cons b bs ih =>
    have hw := writeByte_keeps_wf a b hm
    cases i with
    | zero =>
      rw [Nat.add_zero, writeBytes, readByte_writeBytes_outside bs hw (by omega), readByte_writeByte_same a b hm]; rfl
    | succ i =>
      have := ih (a := a + 1) (i := i) hw (by simpa using h)
      rw [show a + (i + 1) = a + 1 + i by omega]
      simpa [writeBytes] using this

omit [DecidableEq α] in
theorem SMap.below_of_all {m : SMap α} {n : Nat} (h : ∀ e ∈ m, n < e.1) : SMap.below n m := by
  cases m with
  | nil => trivial
  | cons e m => exact h e (by simp)

theorem SMap.all_below {d : α} {m : SMap α} {k : Nat} (hb : SMap.below k m) (hm : SMap.wf d m = true) :
    ∀ e ∈ m, k < e.1 := by
  induction m generalizing k with
  | nil => simp
  | cons e m ih =>
    obtain ⟨k', v⟩ := e
    obtain ⟨-, hb', hw⟩ := SMap.wf_cons.1 hm
    intro e he
    rcases List.mem_cons.1 he with rfl | he
    · exact hb
    · exact Nat.lt_trans hb (ih hb' hw e he)

theorem SMap.wf_filter {d : α} {m : SMap α} (p : Nat × α → Bool) (hm : SMap.wf d m = true) :
    SMap.wf d (m.filter p) = true := by
  induction m with
  | nil => rfl
  | cons e m ih =>
    obtain ⟨k, v⟩ := e
    obtain ⟨hv, hb, hw⟩ := SMap.wf_cons.1 hm
    by_cases hp : p (k, v)
    · rw [List.filter_cons_of_pos hp]
      refine SMap.wf_cons.2 ⟨hv, SMap.below_of_all fun e he => ?_, ih hw⟩
      exact SMap.all_below hb hw e (List.mem_filter.1 he).1
    · rw [List.filter_cons_of_neg hp]; exact ih hw

theorem clearRange_keeps_wf {m : List Host.Cell} (lo hi : Nat) (hm : Memory.wf m) : Memory.wf (clearRange m lo hi) :=
  SMap.wf_filter _ hm

theorem reset_memory_wf : Memory.wf State.reset.mem := rfl

end Sys2Proof.Machine
end

