-- ==== Sys2Proof/Laws/State.lean ====
section
/-! SUPPORT. One lemma per field per update of the state, of a core and of a task, so that no later proof unfolds a record
update. -/

namespace Sys2Proof.Machine

@[simp] theorem setCore_agenda (s : State) (c : Nat) (k : Core) : (s.setCore c k).agenda = s.agenda := rfl
@[simp] theorem setCore_actor (s : State) (c : Nat) (k : Core) : (s.setCore c k).actor = s.actor := rfl
@[simp] theorem setCore_freeCount (s : State) (c : Nat) (k : Core) : (s.setCore c k).freeCount = s.freeCount := rfl
@[simp] theorem setCore_serial (s : State) (c : Nat) (k : Core) : (s.setCore c k).serial = s.serial := rfl
@[simp] theorem setCore_mem (s : State) (c : Nat) (k : Core) : (s.setCore c k).mem = s.mem := rfl
@[simp] theorem setCore_hbmKeys (s : State) (c : Nat) (k : Core) : (s.setCore c k).hbmKeys = s.hbmKeys := rfl
@[simp] theorem setCore_full (s : State) (c : Nat) (k : Core) : (s.setCore c k).full = s.full := rfl
@[simp] theorem setCore_sguard (s : State) (c : Nat) (k : Core) : (s.setCore c k).sguard = s.sguard := rfl
@[simp] theorem setCore_stag (s : State) (c : Nat) (k : Core) : (s.setCore c k).stag = s.stag := rfl
@[simp] theorem setCore_slice (s : State) (c : Nat) (k : Core) : (s.setCore c k).slice = s.slice := rfl
@[simp] theorem setCore_cross (s : State) (c : Nat) (k : Core) : (s.setCore c k).cross = s.cross := rfl
@[simp] theorem setCore_stock (s : State) (c : Nat) (k : Core) : (s.setCore c k).stock = s.stock := rfl
@[simp] theorem setCore_bad (s : State) (c : Nat) (k : Core) : (s.setCore c k).bad = s.bad := rfl
@[simp] theorem setCore_failedHomes (s : State) (c : Nat) (k : Core) : (s.setCore c k).failedHomes = s.failedHomes := rfl
@[simp] theorem setCore_accesses (s : State) (c : Nat) (k : Core) : (s.setCore c k).accesses = s.accesses := rfl
@[simp] theorem setCore_results (s : State) (c : Nat) (k : Core) : (s.setCore c k).results = s.results := rfl
@[simp] theorem setCore_fences (s : State) (c : Nat) (k : Core) : (s.setCore c k).fences = s.fences := rfl
@[simp] theorem setCore_packets (s : State) (c : Nat) (k : Core) : (s.setCore c k).packets = s.packets := rfl
@[simp] theorem setCore_capMoves (s : State) (c : Nat) (k : Core) : (s.setCore c k).capMoves = s.capMoves := rfl
@[simp] theorem setCore_layers (s : State) (c : Nat) (k : Core) : (s.setCore c k).layers = s.layers := rfl
@[simp] theorem setCore_capsules (s : State) (c : Nat) (k : Core) : (s.setCore c k).capsules = s.capsules := rfl
@[simp] theorem setCore_plaza (s : State) (c : Nat) (k : Core) : (s.setCore c k).plaza = s.plaza := rfl
@[simp] theorem setCore_host (s : State) (c : Nat) (k : Core) : (s.setCore c k).host = s.host := rfl
@[simp] theorem setSlot_agenda (s : State) (c n : Nat) (sl : Slot) : (s.setSlot c n sl).agenda = s.agenda := rfl
@[simp] theorem setSlot_actor (s : State) (c n : Nat) (sl : Slot) : (s.setSlot c n sl).actor = s.actor := rfl
@[simp] theorem setSlot_freeCount (s : State) (c n : Nat) (sl : Slot) : (s.setSlot c n sl).freeCount = s.freeCount := rfl
@[simp] theorem setSlot_serial (s : State) (c n : Nat) (sl : Slot) : (s.setSlot c n sl).serial = s.serial := rfl
@[simp] theorem setSlot_mem (s : State) (c n : Nat) (sl : Slot) : (s.setSlot c n sl).mem = s.mem := rfl
@[simp] theorem setSlot_hbmKeys (s : State) (c n : Nat) (sl : Slot) : (s.setSlot c n sl).hbmKeys = s.hbmKeys := rfl
@[simp] theorem setSlot_full (s : State) (c n : Nat) (sl : Slot) : (s.setSlot c n sl).full = s.full := rfl
@[simp] theorem setSlot_sguard (s : State) (c n : Nat) (sl : Slot) : (s.setSlot c n sl).sguard = s.sguard := rfl
@[simp] theorem setSlot_stag (s : State) (c n : Nat) (sl : Slot) : (s.setSlot c n sl).stag = s.stag := rfl
@[simp] theorem setSlot_slice (s : State) (c n : Nat) (sl : Slot) : (s.setSlot c n sl).slice = s.slice := rfl
@[simp] theorem setSlot_cross (s : State) (c n : Nat) (sl : Slot) : (s.setSlot c n sl).cross = s.cross := rfl
@[simp] theorem setSlot_stock (s : State) (c n : Nat) (sl : Slot) : (s.setSlot c n sl).stock = s.stock := rfl
@[simp] theorem setSlot_bad (s : State) (c n : Nat) (sl : Slot) : (s.setSlot c n sl).bad = s.bad := rfl
@[simp] theorem setSlot_failedHomes (s : State) (c n : Nat) (sl : Slot) : (s.setSlot c n sl).failedHomes = s.failedHomes := rfl
@[simp] theorem setSlot_accesses (s : State) (c n : Nat) (sl : Slot) : (s.setSlot c n sl).accesses = s.accesses := rfl
@[simp] theorem setSlot_results (s : State) (c n : Nat) (sl : Slot) : (s.setSlot c n sl).results = s.results := rfl
@[simp] theorem setSlot_fences (s : State) (c n : Nat) (sl : Slot) : (s.setSlot c n sl).fences = s.fences := rfl
@[simp] theorem setSlot_packets (s : State) (c n : Nat) (sl : Slot) : (s.setSlot c n sl).packets = s.packets := rfl
@[simp] theorem setSlot_capMoves (s : State) (c n : Nat) (sl : Slot) : (s.setSlot c n sl).capMoves = s.capMoves := rfl
@[simp] theorem setSlot_layers (s : State) (c n : Nat) (sl : Slot) : (s.setSlot c n sl).layers = s.layers := rfl
@[simp] theorem setSlot_capsules (s : State) (c n : Nat) (sl : Slot) : (s.setSlot c n sl).capsules = s.capsules := rfl
@[simp] theorem setSlot_plaza (s : State) (c n : Nat) (sl : Slot) : (s.setSlot c n sl).plaza = s.plaza := rfl
@[simp] theorem setSlot_host (s : State) (c n : Nat) (sl : Slot) : (s.setSlot c n sl).host = s.host := rfl
@[simp] theorem setTask_agenda (s : State) (c n : Nat) (t : Task) : (s.setTask c n t).agenda = s.agenda := rfl
@[simp] theorem setTask_actor (s : State) (c n : Nat) (t : Task) : (s.setTask c n t).actor = s.actor := rfl
@[simp] theorem setTask_freeCount (s : State) (c n : Nat) (t : Task) : (s.setTask c n t).freeCount = s.freeCount := rfl
@[simp] theorem setTask_serial (s : State) (c n : Nat) (t : Task) : (s.setTask c n t).serial = s.serial := rfl
@[simp] theorem setTask_mem (s : State) (c n : Nat) (t : Task) : (s.setTask c n t).mem = s.mem := rfl
@[simp] theorem setTask_hbmKeys (s : State) (c n : Nat) (t : Task) : (s.setTask c n t).hbmKeys = s.hbmKeys := rfl
@[simp] theorem setTask_full (s : State) (c n : Nat) (t : Task) : (s.setTask c n t).full = s.full := rfl
@[simp] theorem setTask_sguard (s : State) (c n : Nat) (t : Task) : (s.setTask c n t).sguard = s.sguard := rfl
@[simp] theorem setTask_stag (s : State) (c n : Nat) (t : Task) : (s.setTask c n t).stag = s.stag := rfl
@[simp] theorem setTask_slice (s : State) (c n : Nat) (t : Task) : (s.setTask c n t).slice = s.slice := rfl
@[simp] theorem setTask_cross (s : State) (c n : Nat) (t : Task) : (s.setTask c n t).cross = s.cross := rfl
@[simp] theorem setTask_stock (s : State) (c n : Nat) (t : Task) : (s.setTask c n t).stock = s.stock := rfl
@[simp] theorem setTask_bad (s : State) (c n : Nat) (t : Task) : (s.setTask c n t).bad = s.bad := rfl
@[simp] theorem setTask_failedHomes (s : State) (c n : Nat) (t : Task) : (s.setTask c n t).failedHomes = s.failedHomes := rfl
@[simp] theorem setTask_accesses (s : State) (c n : Nat) (t : Task) : (s.setTask c n t).accesses = s.accesses := rfl
@[simp] theorem setTask_results (s : State) (c n : Nat) (t : Task) : (s.setTask c n t).results = s.results := rfl
@[simp] theorem setTask_fences (s : State) (c n : Nat) (t : Task) : (s.setTask c n t).fences = s.fences := rfl
@[simp] theorem setTask_packets (s : State) (c n : Nat) (t : Task) : (s.setTask c n t).packets = s.packets := rfl
@[simp] theorem setTask_capMoves (s : State) (c n : Nat) (t : Task) : (s.setTask c n t).capMoves = s.capMoves := rfl
@[simp] theorem setTask_layers (s : State) (c n : Nat) (t : Task) : (s.setTask c n t).layers = s.layers := rfl
@[simp] theorem setTask_capsules (s : State) (c n : Nat) (t : Task) : (s.setTask c n t).capsules = s.capsules := rfl
@[simp] theorem setTask_plaza (s : State) (c n : Nat) (t : Task) : (s.setTask c n t).plaza = s.plaza := rfl
@[simp] theorem setTask_host (s : State) (c n : Nat) (t : Task) : (s.setTask c n t).host = s.host := rfl
@[simp] theorem setSlotState_agenda (s : State) (c n : Nat) (st : SlotState) : (s.setSlotState c n st).agenda = s.agenda := rfl
@[simp] theorem setSlotState_actor (s : State) (c n : Nat) (st : SlotState) : (s.setSlotState c n st).actor = s.actor := rfl
@[simp] theorem setSlotState_freeCount (s : State) (c n : Nat) (st : SlotState) : (s.setSlotState c n st).freeCount = s.freeCount := rfl
@[simp] theorem setSlotState_serial (s : State) (c n : Nat) (st : SlotState) : (s.setSlotState c n st).serial = s.serial := rfl
@[simp] theorem setSlotState_mem (s : State) (c n : Nat) (st : SlotState) : (s.setSlotState c n st).mem = s.mem := rfl
@[simp] theorem setSlotState_hbmKeys (s : State) (c n : Nat) (st : SlotState) : (s.setSlotState c n st).hbmKeys = s.hbmKeys := rfl
@[simp] theorem setSlotState_full (s : State) (c n : Nat) (st : SlotState) : (s.setSlotState c n st).full = s.full := rfl
@[simp] theorem setSlotState_sguard (s : State) (c n : Nat) (st : SlotState) : (s.setSlotState c n st).sguard = s.sguard := rfl
@[simp] theorem setSlotState_stag (s : State) (c n : Nat) (st : SlotState) : (s.setSlotState c n st).stag = s.stag := rfl
@[simp] theorem setSlotState_slice (s : State) (c n : Nat) (st : SlotState) : (s.setSlotState c n st).slice = s.slice := rfl
@[simp] theorem setSlotState_cross (s : State) (c n : Nat) (st : SlotState) : (s.setSlotState c n st).cross = s.cross := rfl
@[simp] theorem setSlotState_stock (s : State) (c n : Nat) (st : SlotState) : (s.setSlotState c n st).stock = s.stock := rfl
@[simp] theorem setSlotState_bad (s : State) (c n : Nat) (st : SlotState) : (s.setSlotState c n st).bad = s.bad := rfl
@[simp] theorem setSlotState_failedHomes (s : State) (c n : Nat) (st : SlotState) : (s.setSlotState c n st).failedHomes = s.failedHomes := rfl
@[simp] theorem setSlotState_accesses (s : State) (c n : Nat) (st : SlotState) : (s.setSlotState c n st).accesses = s.accesses := rfl
@[simp] theorem setSlotState_results (s : State) (c n : Nat) (st : SlotState) : (s.setSlotState c n st).results = s.results := rfl
@[simp] theorem setSlotState_fences (s : State) (c n : Nat) (st : SlotState) : (s.setSlotState c n st).fences = s.fences := rfl
@[simp] theorem setSlotState_packets (s : State) (c n : Nat) (st : SlotState) : (s.setSlotState c n st).packets = s.packets := rfl
@[simp] theorem setSlotState_capMoves (s : State) (c n : Nat) (st : SlotState) : (s.setSlotState c n st).capMoves = s.capMoves := rfl
@[simp] theorem setSlotState_layers (s : State) (c n : Nat) (st : SlotState) : (s.setSlotState c n st).layers = s.layers := rfl
@[simp] theorem setSlotState_capsules (s : State) (c n : Nat) (st : SlotState) : (s.setSlotState c n st).capsules = s.capsules := rfl
@[simp] theorem setSlotState_plaza (s : State) (c n : Nat) (st : SlotState) : (s.setSlotState c n st).plaza = s.plaza := rfl
@[simp] theorem setSlotState_host (s : State) (c n : Nat) (st : SlotState) : (s.setSlotState c n st).host = s.host := rfl
@[simp] theorem endTurn_agenda (s : State) (c n : Nat) (st : SlotState) : (s.endTurn c n st).agenda = s.agenda := rfl
@[simp] theorem endTurn_actor (s : State) (c n : Nat) (st : SlotState) : (s.endTurn c n st).actor = s.actor := rfl
@[simp] theorem endTurn_freeCount (s : State) (c n : Nat) (st : SlotState) : (s.endTurn c n st).freeCount = s.freeCount := rfl
@[simp] theorem endTurn_serial (s : State) (c n : Nat) (st : SlotState) : (s.endTurn c n st).serial = s.serial := rfl
@[simp] theorem endTurn_mem (s : State) (c n : Nat) (st : SlotState) : (s.endTurn c n st).mem = s.mem := rfl
@[simp] theorem endTurn_hbmKeys (s : State) (c n : Nat) (st : SlotState) : (s.endTurn c n st).hbmKeys = s.hbmKeys := rfl
@[simp] theorem endTurn_full (s : State) (c n : Nat) (st : SlotState) : (s.endTurn c n st).full = s.full := rfl
@[simp] theorem endTurn_sguard (s : State) (c n : Nat) (st : SlotState) : (s.endTurn c n st).sguard = s.sguard := rfl
@[simp] theorem endTurn_stag (s : State) (c n : Nat) (st : SlotState) : (s.endTurn c n st).stag = s.stag := rfl
@[simp] theorem endTurn_slice (s : State) (c n : Nat) (st : SlotState) : (s.endTurn c n st).slice = s.slice := rfl
@[simp] theorem endTurn_cross (s : State) (c n : Nat) (st : SlotState) : (s.endTurn c n st).cross = s.cross := rfl
@[simp] theorem endTurn_stock (s : State) (c n : Nat) (st : SlotState) : (s.endTurn c n st).stock = s.stock := rfl
@[simp] theorem endTurn_bad (s : State) (c n : Nat) (st : SlotState) : (s.endTurn c n st).bad = s.bad := rfl
@[simp] theorem endTurn_failedHomes (s : State) (c n : Nat) (st : SlotState) : (s.endTurn c n st).failedHomes = s.failedHomes := rfl
@[simp] theorem endTurn_accesses (s : State) (c n : Nat) (st : SlotState) : (s.endTurn c n st).accesses = s.accesses := rfl
@[simp] theorem endTurn_results (s : State) (c n : Nat) (st : SlotState) : (s.endTurn c n st).results = s.results := rfl
@[simp] theorem endTurn_fences (s : State) (c n : Nat) (st : SlotState) : (s.endTurn c n st).fences = s.fences := rfl
@[simp] theorem endTurn_packets (s : State) (c n : Nat) (st : SlotState) : (s.endTurn c n st).packets = s.packets := rfl
@[simp] theorem endTurn_capMoves (s : State) (c n : Nat) (st : SlotState) : (s.endTurn c n st).capMoves = s.capMoves := rfl
@[simp] theorem endTurn_layers (s : State) (c n : Nat) (st : SlotState) : (s.endTurn c n st).layers = s.layers := rfl
@[simp] theorem endTurn_capsules (s : State) (c n : Nat) (st : SlotState) : (s.endTurn c n st).capsules = s.capsules := rfl
@[simp] theorem endTurn_plaza (s : State) (c n : Nat) (st : SlotState) : (s.endTurn c n st).plaza = s.plaza := rfl
@[simp] theorem endTurn_host (s : State) (c n : Nat) (st : SlotState) : (s.endTurn c n st).host = s.host := rfl
@[simp] theorem setCapsule_agenda (s : State) (c : Capsule) : (s.setCapsule c).agenda = s.agenda := rfl
@[simp] theorem setCapsule_actor (s : State) (c : Capsule) : (s.setCapsule c).actor = s.actor := rfl
@[simp] theorem setCapsule_freeCount (s : State) (c : Capsule) : (s.setCapsule c).freeCount = s.freeCount := rfl
@[simp] theorem setCapsule_serial (s : State) (c : Capsule) : (s.setCapsule c).serial = s.serial := rfl
@[simp] theorem setCapsule_cores (s : State) (c : Capsule) : (s.setCapsule c).cores = s.cores := rfl
@[simp] theorem setCapsule_mem (s : State) (c : Capsule) : (s.setCapsule c).mem = s.mem := rfl
@[simp] theorem setCapsule_hbmKeys (s : State) (c : Capsule) : (s.setCapsule c).hbmKeys = s.hbmKeys := rfl
@[simp] theorem setCapsule_full (s : State) (c : Capsule) : (s.setCapsule c).full = s.full := rfl
@[simp] theorem setCapsule_sguard (s : State) (c : Capsule) : (s.setCapsule c).sguard = s.sguard := rfl
@[simp] theorem setCapsule_stag (s : State) (c : Capsule) : (s.setCapsule c).stag = s.stag := rfl
@[simp] theorem setCapsule_slice (s : State) (c : Capsule) : (s.setCapsule c).slice = s.slice := rfl
@[simp] theorem setCapsule_cross (s : State) (c : Capsule) : (s.setCapsule c).cross = s.cross := rfl
@[simp] theorem setCapsule_stock (s : State) (c : Capsule) : (s.setCapsule c).stock = s.stock := rfl
@[simp] theorem setCapsule_bad (s : State) (c : Capsule) : (s.setCapsule c).bad = s.bad := rfl
@[simp] theorem setCapsule_failedHomes (s : State) (c : Capsule) : (s.setCapsule c).failedHomes = s.failedHomes := rfl
@[simp] theorem setCapsule_accesses (s : State) (c : Capsule) : (s.setCapsule c).accesses = s.accesses := rfl
@[simp] theorem setCapsule_results (s : State) (c : Capsule) : (s.setCapsule c).results = s.results := rfl
@[simp] theorem setCapsule_fences (s : State) (c : Capsule) : (s.setCapsule c).fences = s.fences := rfl
@[simp] theorem setCapsule_packets (s : State) (c : Capsule) : (s.setCapsule c).packets = s.packets := rfl
@[simp] theorem setCapsule_capMoves (s : State) (c : Capsule) : (s.setCapsule c).capMoves = s.capMoves := rfl
@[simp] theorem setCapsule_layers (s : State) (c : Capsule) : (s.setCapsule c).layers = s.layers := rfl
@[simp] theorem setCapsule_plaza (s : State) (c : Capsule) : (s.setCapsule c).plaza = s.plaza := rfl
@[simp] theorem setCapsule_host (s : State) (c : Capsule) : (s.setCapsule c).host = s.host := rfl
@[simp] theorem tick_agenda (s : State) : (s.tick).agenda = s.agenda := rfl
@[simp] theorem tick_actor (s : State) : (s.tick).actor = s.actor := rfl
@[simp] theorem tick_freeCount (s : State) : (s.tick).freeCount = s.freeCount := rfl
@[simp] theorem tick_cores (s : State) : (s.tick).cores = s.cores := rfl
@[simp] theorem tick_mem (s : State) : (s.tick).mem = s.mem := rfl
@[simp] theorem tick_hbmKeys (s : State) : (s.tick).hbmKeys = s.hbmKeys := rfl
@[simp] theorem tick_full (s : State) : (s.tick).full = s.full := rfl
@[simp] theorem tick_sguard (s : State) : (s.tick).sguard = s.sguard := rfl
@[simp] theorem tick_stag (s : State) : (s.tick).stag = s.stag := rfl
@[simp] theorem tick_slice (s : State) : (s.tick).slice = s.slice := rfl
@[simp] theorem tick_cross (s : State) : (s.tick).cross = s.cross := rfl
@[simp] theorem tick_stock (s : State) : (s.tick).stock = s.stock := rfl
@[simp] theorem tick_bad (s : State) : (s.tick).bad = s.bad := rfl
@[simp] theorem tick_failedHomes (s : State) : (s.tick).failedHomes = s.failedHomes := rfl
@[simp] theorem tick_accesses (s : State) : (s.tick).accesses = s.accesses := rfl
@[simp] theorem tick_results (s : State) : (s.tick).results = s.results := rfl
@[simp] theorem tick_fences (s : State) : (s.tick).fences = s.fences := rfl
@[simp] theorem tick_packets (s : State) : (s.tick).packets = s.packets := rfl
@[simp] theorem tick_capMoves (s : State) : (s.tick).capMoves = s.capMoves := rfl
@[simp] theorem tick_layers (s : State) : (s.tick).layers = s.layers := rfl
@[simp] theorem tick_capsules (s : State) : (s.tick).capsules = s.capsules := rfl
@[simp] theorem tick_plaza (s : State) : (s.tick).plaza = s.plaza := rfl
@[simp] theorem tick_host (s : State) : (s.tick).host = s.host := rfl
@[simp] theorem setPacket_agenda (s : State) (p : Packet) : (s.setPacket p).agenda = s.agenda := rfl
@[simp] theorem setPacket_actor (s : State) (p : Packet) : (s.setPacket p).actor = s.actor := rfl
@[simp] theorem setPacket_freeCount (s : State) (p : Packet) : (s.setPacket p).freeCount = s.freeCount := rfl
@[simp] theorem setPacket_serial (s : State) (p : Packet) : (s.setPacket p).serial = s.serial := rfl
@[simp] theorem setPacket_cores (s : State) (p : Packet) : (s.setPacket p).cores = s.cores := rfl
@[simp] theorem setPacket_mem (s : State) (p : Packet) : (s.setPacket p).mem = s.mem := rfl
@[simp] theorem setPacket_hbmKeys (s : State) (p : Packet) : (s.setPacket p).hbmKeys = s.hbmKeys := rfl
@[simp] theorem setPacket_full (s : State) (p : Packet) : (s.setPacket p).full = s.full := rfl
@[simp] theorem setPacket_sguard (s : State) (p : Packet) : (s.setPacket p).sguard = s.sguard := rfl
@[simp] theorem setPacket_stag (s : State) (p : Packet) : (s.setPacket p).stag = s.stag := rfl
@[simp] theorem setPacket_slice (s : State) (p : Packet) : (s.setPacket p).slice = s.slice := rfl
@[simp] theorem setPacket_cross (s : State) (p : Packet) : (s.setPacket p).cross = s.cross := rfl
@[simp] theorem setPacket_stock (s : State) (p : Packet) : (s.setPacket p).stock = s.stock := rfl
@[simp] theorem setPacket_bad (s : State) (p : Packet) : (s.setPacket p).bad = s.bad := rfl
@[simp] theorem setPacket_failedHomes (s : State) (p : Packet) : (s.setPacket p).failedHomes = s.failedHomes := rfl
@[simp] theorem setPacket_accesses (s : State) (p : Packet) : (s.setPacket p).accesses = s.accesses := rfl
@[simp] theorem setPacket_results (s : State) (p : Packet) : (s.setPacket p).results = s.results := rfl
@[simp] theorem setPacket_fences (s : State) (p : Packet) : (s.setPacket p).fences = s.fences := rfl
@[simp] theorem setPacket_capMoves (s : State) (p : Packet) : (s.setPacket p).capMoves = s.capMoves := rfl
@[simp] theorem setPacket_layers (s : State) (p : Packet) : (s.setPacket p).layers = s.layers := rfl
@[simp] theorem setPacket_capsules (s : State) (p : Packet) : (s.setPacket p).capsules = s.capsules := rfl
@[simp] theorem setPacket_plaza (s : State) (p : Packet) : (s.setPacket p).plaza = s.plaza := rfl
@[simp] theorem setPacket_host (s : State) (p : Packet) : (s.setPacket p).host = s.host := rfl
@[simp] theorem dropPacket_agenda (s : State) (n : Nat) : (s.dropPacket n).agenda = s.agenda := rfl
@[simp] theorem dropPacket_actor (s : State) (n : Nat) : (s.dropPacket n).actor = s.actor := rfl
@[simp] theorem dropPacket_freeCount (s : State) (n : Nat) : (s.dropPacket n).freeCount = s.freeCount := rfl
@[simp] theorem dropPacket_serial (s : State) (n : Nat) : (s.dropPacket n).serial = s.serial := rfl
@[simp] theorem dropPacket_cores (s : State) (n : Nat) : (s.dropPacket n).cores = s.cores := rfl
@[simp] theorem dropPacket_mem (s : State) (n : Nat) : (s.dropPacket n).mem = s.mem := rfl
@[simp] theorem dropPacket_hbmKeys (s : State) (n : Nat) : (s.dropPacket n).hbmKeys = s.hbmKeys := rfl
@[simp] theorem dropPacket_full (s : State) (n : Nat) : (s.dropPacket n).full = s.full := rfl
@[simp] theorem dropPacket_sguard (s : State) (n : Nat) : (s.dropPacket n).sguard = s.sguard := rfl
@[simp] theorem dropPacket_stag (s : State) (n : Nat) : (s.dropPacket n).stag = s.stag := rfl
@[simp] theorem dropPacket_slice (s : State) (n : Nat) : (s.dropPacket n).slice = s.slice := rfl
@[simp] theorem dropPacket_cross (s : State) (n : Nat) : (s.dropPacket n).cross = s.cross := rfl
@[simp] theorem dropPacket_stock (s : State) (n : Nat) : (s.dropPacket n).stock = s.stock := rfl
@[simp] theorem dropPacket_bad (s : State) (n : Nat) : (s.dropPacket n).bad = s.bad := rfl
@[simp] theorem dropPacket_failedHomes (s : State) (n : Nat) : (s.dropPacket n).failedHomes = s.failedHomes := rfl
@[simp] theorem dropPacket_accesses (s : State) (n : Nat) : (s.dropPacket n).accesses = s.accesses := rfl
@[simp] theorem dropPacket_results (s : State) (n : Nat) : (s.dropPacket n).results = s.results := rfl
@[simp] theorem dropPacket_fences (s : State) (n : Nat) : (s.dropPacket n).fences = s.fences := rfl
@[simp] theorem dropPacket_capMoves (s : State) (n : Nat) : (s.dropPacket n).capMoves = s.capMoves := rfl
@[simp] theorem dropPacket_layers (s : State) (n : Nat) : (s.dropPacket n).layers = s.layers := rfl
@[simp] theorem dropPacket_capsules (s : State) (n : Nat) : (s.dropPacket n).capsules = s.capsules := rfl
@[simp] theorem dropPacket_plaza (s : State) (n : Nat) : (s.dropPacket n).plaza = s.plaza := rfl
@[simp] theorem dropPacket_host (s : State) (n : Nat) : (s.dropPacket n).host = s.host := rfl
@[simp] theorem sendPacket_agenda (s : State) (p : Packet) : (s.sendPacket p).agenda = s.agenda := rfl
@[simp] theorem sendPacket_actor (s : State) (p : Packet) : (s.sendPacket p).actor = s.actor := rfl
@[simp] theorem sendPacket_freeCount (s : State) (p : Packet) : (s.sendPacket p).freeCount = s.freeCount := rfl
@[simp] theorem sendPacket_cores (s : State) (p : Packet) : (s.sendPacket p).cores = s.cores := rfl
@[simp] theorem sendPacket_mem (s : State) (p : Packet) : (s.sendPacket p).mem = s.mem := rfl
@[simp] theorem sendPacket_hbmKeys (s : State) (p : Packet) : (s.sendPacket p).hbmKeys = s.hbmKeys := rfl
@[simp] theorem sendPacket_full (s : State) (p : Packet) : (s.sendPacket p).full = s.full := rfl
@[simp] theorem sendPacket_sguard (s : State) (p : Packet) : (s.sendPacket p).sguard = s.sguard := rfl
@[simp] theorem sendPacket_stag (s : State) (p : Packet) : (s.sendPacket p).stag = s.stag := rfl
@[simp] theorem sendPacket_slice (s : State) (p : Packet) : (s.sendPacket p).slice = s.slice := rfl
@[simp] theorem sendPacket_cross (s : State) (p : Packet) : (s.sendPacket p).cross = s.cross := rfl
@[simp] theorem sendPacket_stock (s : State) (p : Packet) : (s.sendPacket p).stock = s.stock := rfl
@[simp] theorem sendPacket_bad (s : State) (p : Packet) : (s.sendPacket p).bad = s.bad := rfl
@[simp] theorem sendPacket_failedHomes (s : State) (p : Packet) : (s.sendPacket p).failedHomes = s.failedHomes := rfl
@[simp] theorem sendPacket_accesses (s : State) (p : Packet) : (s.sendPacket p).accesses = s.accesses := rfl
@[simp] theorem sendPacket_results (s : State) (p : Packet) : (s.sendPacket p).results = s.results := rfl
@[simp] theorem sendPacket_fences (s : State) (p : Packet) : (s.sendPacket p).fences = s.fences := rfl
@[simp] theorem sendPacket_capMoves (s : State) (p : Packet) : (s.sendPacket p).capMoves = s.capMoves := rfl
@[simp] theorem sendPacket_layers (s : State) (p : Packet) : (s.sendPacket p).layers = s.layers := rfl
@[simp] theorem sendPacket_capsules (s : State) (p : Packet) : (s.sendPacket p).capsules = s.capsules := rfl
@[simp] theorem sendPacket_plaza (s : State) (p : Packet) : (s.sendPacket p).plaza = s.plaza := rfl
@[simp] theorem sendPacket_host (s : State) (p : Packet) : (s.sendPacket p).host = s.host := rfl
@[simp] theorem core_setSlot_inst (k : Core) (n : Nat) (sl : Slot) : (k.setSlot n sl).inst = k.inst := rfl
@[simp] theorem core_setSlot_role (k : Core) (n : Nat) (sl : Slot) : (k.setSlot n sl).role = k.role := rfl
@[simp] theorem core_setSlot_members (k : Core) (n : Nat) (sl : Slot) : (k.setSlot n sl).members = k.members := rfl
@[simp] theorem core_setSlot_seg (k : Core) (n : Nat) (sl : Slot) : (k.setSlot n sl).seg = k.seg := rfl
@[simp] theorem core_setSlot_port (k : Core) (n : Nat) (sl : Slot) : (k.setSlot n sl).port = k.port := rfl
@[simp] theorem core_setSlot_portCount (k : Core) (n : Nat) (sl : Slot) : (k.setSlot n sl).portCount = k.portCount := rfl
@[simp] theorem core_setSlot_queue (k : Core) (n : Nat) (sl : Slot) : (k.setSlot n sl).queue = k.queue := rfl
@[simp] theorem core_setSlot_tickets (k : Core) (n : Nat) (sl : Slot) : (k.setSlot n sl).tickets = k.tickets := rfl
@[simp] theorem core_setSlot_lane (k : Core) (n : Nat) (sl : Slot) : (k.setSlot n sl).lane = k.lane := rfl
@[simp] theorem core_setSlot_laneHead (k : Core) (n : Nat) (sl : Slot) : (k.setSlot n sl).laneHead = k.laneHead := rfl
@[simp] theorem core_setSlot_faultQ (k : Core) (n : Nat) (sl : Slot) : (k.setSlot n sl).faultQ = k.faultQ := rfl
@[simp] theorem core_setSlot_regs (k : Core) (n : Nat) (sl : Slot) : (k.setSlot n sl).regs = k.regs := rfl
@[simp] theorem core_setSlot_badGrans (k : Core) (n : Nat) (sl : Slot) : (k.setSlot n sl).badGrans = k.badGrans := rfl
@[simp] theorem core_setSlot_rpend (k : Core) (n : Nat) (sl : Slot) : (k.setSlot n sl).rpend = k.rpend := rfl
@[simp] theorem core_setSlot_rmark (k : Core) (n : Nat) (sl : Slot) : (k.setSlot n sl).rmark = k.rmark := rfl
@[simp] theorem core_setSlot_vwv (k : Core) (n : Nat) (sl : Slot) : (k.setSlot n sl).vwv = k.vwv := rfl
@[simp] theorem core_setSlot_vwm (k : Core) (n : Nat) (sl : Slot) : (k.setSlot n sl).vwm = k.vwm := rfl
@[simp] theorem core_setSlot_vwa (k : Core) (n : Nat) (sl : Slot) : (k.setSlot n sl).vwa = k.vwa := rfl
@[simp] theorem core_setSlot_fmt (k : Core) (n : Nat) (sl : Slot) : (k.setSlot n sl).fmt = k.fmt := rfl
@[simp] theorem core_setSlot_fmtGuard (k : Core) (n : Nat) (sl : Slot) : (k.setSlot n sl).fmtGuard = k.fmtGuard := rfl
@[simp] theorem core_setSlot_tables (k : Core) (n : Nat) (sl : Slot) : (k.setSlot n sl).tables = k.tables := rfl
@[simp] theorem core_setSlot_tableGuard (k : Core) (n : Nat) (sl : Slot) : (k.setSlot n sl).tableGuard = k.tableGuard := rfl
@[simp] theorem core_setSlot_hdl (k : Core) (n : Nat) (sl : Slot) : (k.setSlot n sl).hdl = k.hdl := rfl
@[simp] theorem core_setSlot_mode (k : Core) (n : Nat) (sl : Slot) : (k.setSlot n sl).mode = k.mode := rfl
@[simp] theorem core_setSlot_barto (k : Core) (n : Nat) (sl : Slot) : (k.setSlot n sl).barto = k.barto := rfl
@[simp] theorem core_setSlot_bartoGuard (k : Core) (n : Nat) (sl : Slot) : (k.setSlot n sl).bartoGuard = k.bartoGuard := rfl
@[simp] theorem core_setSlot_channels (k : Core) (n : Nat) (sl : Slot) : (k.setSlot n sl).channels = k.channels := rfl
@[simp] theorem core_setSlot_trackers (k : Core) (n : Nat) (sl : Slot) : (k.setSlot n sl).trackers = k.trackers := rfl
@[simp] theorem core_setSlot_tensors (k : Core) (n : Nat) (sl : Slot) : (k.setSlot n sl).tensors = k.tensors := rfl
@[simp] theorem core_setSlot_maps (k : Core) (n : Nat) (sl : Slot) : (k.setSlot n sl).maps = k.maps := rfl
@[simp] theorem core_setSlot_q0 (k : Core) (n : Nat) (sl : Slot) : (k.setSlot n sl).q0 = k.q0 := rfl
@[simp] theorem core_setSlot_q1 (k : Core) (n : Nat) (sl : Slot) : (k.setSlot n sl).q1 = k.q1 := rfl
@[simp] theorem core_setSlot_qn (k : Core) (n : Nat) (sl : Slot) : (k.setSlot n sl).qn = k.qn := rfl
@[simp] theorem core_setSlot_qm (k : Core) (n : Nat) (sl : Slot) : (k.setSlot n sl).qm = k.qm := rfl
@[simp] theorem core_setSlot_joins (k : Core) (n : Nat) (sl : Slot) : (k.setSlot n sl).joins = k.joins := rfl
@[simp] theorem core_setSlot_l1 (k : Core) (n : Nat) (sl : Slot) : (k.setSlot n sl).l1 = k.l1 := rfl
@[simp] theorem core_setSlot_lookaside (k : Core) (n : Nat) (sl : Slot) : (k.setSlot n sl).lookaside = k.lookaside := rfl
@[simp] theorem core_setSlot_fills (k : Core) (n : Nat) (sl : Slot) : (k.setSlot n sl).fills = k.fills := rfl
@[simp] theorem core_setSlot_lsuTickets (k : Core) (n : Nat) (sl : Slot) : (k.setSlot n sl).lsuTickets = k.lsuTickets := rfl
@[simp] theorem core_setSlot_istore (k : Core) (n : Nat) (sl : Slot) : (k.setSlot n sl).istore = k.istore := rfl
@[simp] theorem core_setSlot_homeTickets (k : Core) (n : Nat) (sl : Slot) : (k.setSlot n sl).homeTickets = k.homeTickets := rfl
@[simp] theorem core_setSlot_acquired (k : Core) (n : Nat) (sl : Slot) : (k.setSlot n sl).acquired = k.acquired := rfl
@[simp] theorem core_setSlot_evicting (k : Core) (n : Nat) (sl : Slot) : (k.setSlot n sl).evicting = k.evicting := rfl
@[simp] theorem core_setSlot_evictAs (k : Core) (n : Nat) (sl : Slot) : (k.setSlot n sl).evictAs = k.evictAs := rfl
@[simp] theorem core_setSlot_cfgsel (k : Core) (n : Nat) (sl : Slot) : (k.setSlot n sl).cfgsel = k.cfgsel := rfl
@[simp] theorem core_setSlot_frsel (k : Core) (n : Nat) (sl : Slot) : (k.setSlot n sl).frsel = k.frsel := rfl
@[simp] theorem core_setSlot_baysel (k : Core) (n : Nat) (sl : Slot) : (k.setSlot n sl).baysel = k.baysel := rfl
@[simp] theorem core_setSlot_selGuard (k : Core) (n : Nat) (sl : Slot) : (k.setSlot n sl).selGuard = k.selGuard := rfl
@[simp] theorem clearMarks_inst (k : Core) (n : Nat) : (k.clearMarks n).inst = k.inst := rfl
@[simp] theorem clearMarks_role (k : Core) (n : Nat) : (k.clearMarks n).role = k.role := rfl
@[simp] theorem clearMarks_members (k : Core) (n : Nat) : (k.clearMarks n).members = k.members := rfl
@[simp] theorem clearMarks_seg (k : Core) (n : Nat) : (k.clearMarks n).seg = k.seg := rfl
@[simp] theorem clearMarks_port (k : Core) (n : Nat) : (k.clearMarks n).port = k.port := rfl
@[simp] theorem clearMarks_portCount (k : Core) (n : Nat) : (k.clearMarks n).portCount = k.portCount := rfl
@[simp] theorem clearMarks_queue (k : Core) (n : Nat) : (k.clearMarks n).queue = k.queue := rfl
@[simp] theorem clearMarks_tickets (k : Core) (n : Nat) : (k.clearMarks n).tickets = k.tickets := rfl
@[simp] theorem clearMarks_lane (k : Core) (n : Nat) : (k.clearMarks n).lane = k.lane := rfl
@[simp] theorem clearMarks_laneHead (k : Core) (n : Nat) : (k.clearMarks n).laneHead = k.laneHead := rfl
@[simp] theorem clearMarks_faultQ (k : Core) (n : Nat) : (k.clearMarks n).faultQ = k.faultQ := rfl
@[simp] theorem clearMarks_regs (k : Core) (n : Nat) : (k.clearMarks n).regs = k.regs := rfl
@[simp] theorem clearMarks_badGrans (k : Core) (n : Nat) : (k.clearMarks n).badGrans = k.badGrans := rfl
@[simp] theorem clearMarks_rpend (k : Core) (n : Nat) : (k.clearMarks n).rpend = k.rpend := rfl
@[simp] theorem clearMarks_vwv (k : Core) (n : Nat) : (k.clearMarks n).vwv = k.vwv := rfl
@[simp] theorem clearMarks_vwm (k : Core) (n : Nat) : (k.clearMarks n).vwm = k.vwm := rfl
@[simp] theorem clearMarks_vwa (k : Core) (n : Nat) : (k.clearMarks n).vwa = k.vwa := rfl
@[simp] theorem clearMarks_fmt (k : Core) (n : Nat) : (k.clearMarks n).fmt = k.fmt := rfl
@[simp] theorem clearMarks_fmtGuard (k : Core) (n : Nat) : (k.clearMarks n).fmtGuard = k.fmtGuard := rfl
@[simp] theorem clearMarks_tables (k : Core) (n : Nat) : (k.clearMarks n).tables = k.tables := rfl
@[simp] theorem clearMarks_tableGuard (k : Core) (n : Nat) : (k.clearMarks n).tableGuard = k.tableGuard := rfl
@[simp] theorem clearMarks_hdl (k : Core) (n : Nat) : (k.clearMarks n).hdl = k.hdl := rfl
@[simp] theorem clearMarks_mode (k : Core) (n : Nat) : (k.clearMarks n).mode = k.mode := rfl
@[simp] theorem clearMarks_barto (k : Core) (n : Nat) : (k.clearMarks n).barto = k.barto := rfl
@[simp] theorem clearMarks_bartoGuard (k : Core) (n : Nat) : (k.clearMarks n).bartoGuard = k.bartoGuard := rfl
@[simp] theorem clearMarks_channels (k : Core) (n : Nat) : (k.clearMarks n).channels = k.channels := rfl
@[simp] theorem clearMarks_trackers (k : Core) (n : Nat) : (k.clearMarks n).trackers = k.trackers := rfl
@[simp] theorem clearMarks_tensors (k : Core) (n : Nat) : (k.clearMarks n).tensors = k.tensors := rfl
@[simp] theorem clearMarks_maps (k : Core) (n : Nat) : (k.clearMarks n).maps = k.maps := rfl
@[simp] theorem clearMarks_q0 (k : Core) (n : Nat) : (k.clearMarks n).q0 = k.q0 := rfl
@[simp] theorem clearMarks_q1 (k : Core) (n : Nat) : (k.clearMarks n).q1 = k.q1 := rfl
@[simp] theorem clearMarks_qn (k : Core) (n : Nat) : (k.clearMarks n).qn = k.qn := rfl
@[simp] theorem clearMarks_qm (k : Core) (n : Nat) : (k.clearMarks n).qm = k.qm := rfl
@[simp] theorem clearMarks_joins (k : Core) (n : Nat) : (k.clearMarks n).joins = k.joins := rfl
@[simp] theorem clearMarks_l1 (k : Core) (n : Nat) : (k.clearMarks n).l1 = k.l1 := rfl
@[simp] theorem clearMarks_lookaside (k : Core) (n : Nat) : (k.clearMarks n).lookaside = k.lookaside := rfl
@[simp] theorem clearMarks_fills (k : Core) (n : Nat) : (k.clearMarks n).fills = k.fills := rfl
@[simp] theorem clearMarks_lsuTickets (k : Core) (n : Nat) : (k.clearMarks n).lsuTickets = k.lsuTickets := rfl
@[simp] theorem clearMarks_istore (k : Core) (n : Nat) : (k.clearMarks n).istore = k.istore := rfl
@[simp] theorem clearMarks_homeTickets (k : Core) (n : Nat) : (k.clearMarks n).homeTickets = k.homeTickets := rfl
@[simp] theorem clearMarks_acquired (k : Core) (n : Nat) : (k.clearMarks n).acquired = k.acquired := rfl
@[simp] theorem clearMarks_evicting (k : Core) (n : Nat) : (k.clearMarks n).evicting = k.evicting := rfl
@[simp] theorem clearMarks_evictAs (k : Core) (n : Nat) : (k.clearMarks n).evictAs = k.evictAs := rfl
@[simp] theorem clearMarks_cfgsel (k : Core) (n : Nat) : (k.clearMarks n).cfgsel = k.cfgsel := rfl
@[simp] theorem clearMarks_frsel (k : Core) (n : Nat) : (k.clearMarks n).frsel = k.frsel := rfl
@[simp] theorem clearMarks_baysel (k : Core) (n : Nat) : (k.clearMarks n).baysel = k.baysel := rfl
@[simp] theorem clearMarks_selGuard (k : Core) (n : Nat) : (k.clearMarks n).selGuard = k.selGuard := rfl
@[simp] theorem setReg_p (t : Task) (r : Nat) (v : Word) (g : Bool) : (t.setReg r v g).p = t.p := rfl
@[simp] theorem setReg_lm (t : Task) (r : Nat) (v : Word) (g : Bool) : (t.setReg r v g).lm = t.lm := rfl
@[simp] theorem setReg_pc (t : Task) (r : Nat) (v : Word) (g : Bool) : (t.setReg r v g).pc = t.pc := rfl
@[simp] theorem setReg_tsr (t : Task) (r : Nat) (v : Word) (g : Bool) : (t.setReg r v g).tsr = t.tsr := rfl
@[simp] theorem setReg_tid (t : Task) (r : Nat) (v : Word) (g : Bool) : (t.setReg r v g).tid = t.tid := rfl
@[simp] theorem setMask_g (t : Task) (n : Nat) (v : BitVec 16) (g : Bool) : (t.setMask n v g).g = t.g := rfl
@[simp] theorem setMask_gg (t : Task) (n : Nat) (v : BitVec 16) (g : Bool) : (t.setMask n v g).gg = t.gg := rfl
@[simp] theorem setMask_p (t : Task) (n : Nat) (v : BitVec 16) (g : Bool) : (t.setMask n v g).p = t.p := rfl
@[simp] theorem setMask_pc (t : Task) (n : Nat) (v : BitVec 16) (g : Bool) : (t.setMask n v g).pc = t.pc := rfl
@[simp] theorem setMask_tid (t : Task) (n : Nat) (v : BitVec 16) (g : Bool) : (t.setMask n v g).tid = t.tid := rfl

end Sys2Proof.Machine
end

