-- ==== Sys2Proof/Laws/Issue.lean ====
section
/-! SUPPORT. Laws of cores, slots and task registers, of the issue of an instruction, and of how its task goes on. -/

namespace Sys2Proof.Machine

/-! Cores and slots -/

@[simp] theorem core_setCore_same (s : State) (c : Nat) (k : Core) : (s.setCore c k).core c = k := SMap.get_put_same ..

@[simp] theorem core_setCore_other (s : State) {c d : Nat} (k : Core) (h : d ≠ c) : (s.setCore c k).core d = s.core d :=
  SMap.get_put_other _ _ _ h

@[simp] theorem slot_setSlot_same (k : Core) (n : Nat) (sl : Slot) : (k.setSlot n sl).slot n = sl := by
  simp [Core.slot, Core.setSlot]

theorem slot_setSlot_other (k : Core) {n m : Nat} (sl : Slot) (h : m % 8 ≠ n % 8) : (k.setSlot n sl).slot m = k.slot m := by
  simp [Core.slot, Core.setSlot, Ne.symm h]

@[simp] theorem slot_mod (k : Core) (n : Nat) : k.slot (n % 8) = k.slot n := by simp [Core.slot]

@[simp] theorem core_setTask_same (s : State) (c n : Nat) (t : Task) :
    (s.setTask c n t).core c = (s.core c).setSlot n { (s.core c).slot n with task := t } := by
  simp [State.setTask, State.setSlot, State.slot]

theorem core_setTask_other (s : State) {c d : Nat} (n : Nat) (t : Task) (h : d ≠ c) :
    (s.setTask c n t).core d = s.core d := by
  simp [State.setTask, State.setSlot, h]

/-! Task registers -/

@[simp] theorem reg_setReg_same (t : Task) (r : Nat) (v : Word) (g : Bool) : (t.setReg r v g).reg r = v := by
  simp [Task.reg, Task.setReg]

theorem setBit16_same (v : BitVec 16) (n : Nat) (b : Bool) (h : n < 16) : (setBit16 v n b).getLsbD n = b := by
  cases b <;> simp [setBit16, h]

theorem setBit16_other (v : BitVec 16) {n m : Nat} (b : Bool) (h : m ≠ n) : (setBit16 v n b).getLsbD m = v.getLsbD m := by
  by_cases hm : m < 16
  · cases b <;> simp [setBit16, hm] <;> intros <;> simp_all
  · rw [BitVec.getLsbD_of_ge _ _ (by omega), BitVec.getLsbD_of_ge _ _ (by omega)]

theorem setBit64_same (v : Word) (n : Nat) (b : Bool) (h : n < 64) : (setBit64 v n b).getLsbD n = b := by
  cases b <;> simp [setBit64, h]

theorem setBit64_other (v : Word) {n m : Nat} (b : Bool) (h : m ≠ n) : (setBit64 v n b).getLsbD m = v.getLsbD m := by
  by_cases hm : m < 64
  · cases b <;> simp [setBit64, hm] <;> intros <;> simp_all
  · rw [BitVec.getLsbD_of_ge _ _ (by omega), BitVec.getLsbD_of_ge _ _ (by omega)]

@[simp] theorem regGuard_setReg_same (t : Task) (r : Nat) (v : Word) (g : Bool) : (t.setReg r v g).regGuard r = g :=
  setBit16_same _ _ _ (Nat.mod_lt _ (by decide))

theorem reg_setReg_other (t : Task) {r q : Nat} (v : Word) (g : Bool) (h : q % 16 ≠ r % 16) :
    (t.setReg r v g).reg q = t.reg q := by
  simp [Task.reg, Task.setReg, Ne.symm h]

theorem regGuard_setReg_other (t : Task) {r q : Nat} (v : Word) (g : Bool) (h : q % 16 ≠ r % 16) :
    (t.setReg r v g).regGuard q = t.regGuard q := setBit16_other _ _ h

/-- Writing a register changes no other register (R246). -/
theorem setReg_otherRegs (t : Task) {d : Nat} (v : Word) (g : Bool) (hd : d < 16) : OtherRegs t (t.setReg d v g) [d] := by
  intro r hr hn
  have : r % 16 ≠ d % 16 := by simp at hn; omega
  exact ⟨reg_setReg_other t v g this, regGuard_setReg_other t v g this⟩

theorem setReg_sameStatus (t : Task) (d : Nat) (v : Word) (g : Bool) : SameStatus t (t.setReg d v g) := ⟨rfl, rfl, rfl, rfl⟩

/-! The issue of an instruction -/

/-- What the acting core and slot of an executing task are. -/
theorem cur?_eq {s : State} {len : Nat} {x : Cur} (h : s.cur? len = some x) :
    x.c = s.actor ∧ x.n = (s.core s.actor).port % 8 ∧ x.k = s.core s.actor ∧ x.t = (s.slot x.c x.n).task ∧
      s.capsuleOf? s.actor = some x.cap ∧ x.pc = x.t.pc.toNat ∧ x.len = len ∧ (s.slot x.c x.n).state = .ready ∧
      x.cap.stage = .running ∧ x.k.evicting = false := by
  simp only [State.cur?] at h
  split at h
  · rename_i cap hc
    split at h
    · rename_i hr
      simp only [Option.some.injEq] at h
      subst h
      simp_all [State.slot]
    · simp at h
  · simp at h

/-- The state and the task at the checks of an instruction: a set switch marker has cleared the slot's marks (R415). -/
def atChecks (h : Head) (s : State) (x : Cur) : State := if h.s then s.setCore x.c (x.k.clearMarks x.n) else s
def curAtChecks (h : Head) (s : State) (x : Cur) : Cur := { x with k := (atChecks h s x).core x.c }

/-- An instruction that issues makes its checks and has its effect. -/
theorem issue_of_issues {s : State} {h : Head} {len : Nat} {x : Cur} (hi : Issues s h len x)
    (body : Cur → State → Verdict) :
    issue h len body s =
      .next (finish (atChecks h s x) (curAtChecks h s x) (body (curAtChecks h s x) (atChecks h s x))) := by
  obtain ⟨hc, ho, hg⟩ := hi
  unfold issue
  rw [hc]
  simp only
  rw [if_neg (by intro hh; simp_all), if_pos hg]
  rfl

@[simp] theorem clearMarks_mark (k : Core) (n : Nat) : ((k.clearMarks n).slot n).mark = 0 := by
  show ((k.setSlot n _).slot n).mark = 0
  simp

theorem clearMarks_slot_same (k : Core) (n : Nat) : (k.clearMarks n).slot n = { k.slot n with mark := 0 } := by
  show (k.setSlot n _).slot n = _
  simp

theorem clearMarks_slot_other (k : Core) {n m : Nat} (h : m % 8 ≠ n % 8) : (k.clearMarks n).slot m = k.slot m :=
  slot_setSlot_other k _ h

theorem clearMarks_rmark (k : Core) (n : Nat) (e : Nat × GranMark) (h : e.2.slot ≠ n % 8) :
    e ∈ (k.clearMarks n).rmark ↔ e ∈ k.rmark := by
  simp [Core.clearMarks, h]

/-- At the checks nothing has changed but marks of the slot. -/
theorem atChecks_core {h : Head} {s : State} {len : Nat} {x : Cur} (hc : s.cur? len = some x) :
    OnlySlot (s.core x.c) ((atChecks h s x).core x.c) x.n ∧
      ((atChecks h s x).core x.c).slot x.n = { (s.core x.c).slot x.n with mark := (((atChecks h s x).core x.c).slot x.n).mark } ∧
      (h.s = true → (((atChecks h s x).core x.c).slot x.n).mark = 0) ∧ (h.s = false → atChecks h s x = s) := by
  obtain ⟨h1, h2, h3, -⟩ := cur?_eq hc
  rw [← h1] at h3
  by_cases hs : h.s
  · simp only [atChecks, hs, if_true, core_setCore_same, h3, clearMarks_slot_same]
    refine ⟨⟨rfl, fun m hm => clearMarks_slot_other _ hm, fun e he => clearMarks_rmark _ _ e he⟩, ?_⟩
    simp
  · simp [atChecks, hs, OnlySlot]

theorem atChecks_onlyCore (h : Head) (s : State) (x : Cur) : OnlyCore s (atChecks h s x) x.c := by
  unfold atChecks
  split
  · exact ⟨rfl, fun d hd => core_setCore_other s _ hd, fun _ => rfl⟩
  · exact ⟨rfl, fun _ _ => rfl, fun _ => rfl⟩

/-- Registers without a mark pass the mark checks (R415). -/
theorem readMarked_none {h : Head} {s : State} {len : Nat} {x : Cur} (hc : s.cur? len = some x) {rs : List Nat}
    (hu : Unmarked h x rs) : readMarked (curAtChecks h s x) rs = none := by
  obtain ⟨h1, h2, h3, -⟩ := cur?_eq hc
  obtain ⟨-, -, hm, hn⟩ := atChecks_core (h := h) hc
  have : (rs.find? fun r => (((atChecks h s x).core x.c).slot x.n).mark.getLsbD r) = none := by
    rw [List.find?_eq_none]
    intro r hr
    rcases hu with hs | hu
    · simp [hm hs]
    · cases hs : h.s
      · rw [hn hs, ← h1] at *; rw [h1, ← h3]; simp [hu r hr]
      · simp [hm hs]
  simp only [readMarked, curAtChecks, this]

theorem writeMarked_none {h : Head} {s : State} {len : Nat} {x : Cur} (hc : s.cur? len = some x) {rs : List Nat}
    (hu : Unmarked h x rs) : writeMarked (curAtChecks h s x) rs = none := by
  have := readMarked_none hc hu
  simp only [readMarked, writeMarked] at *
  split at this
  · cases this
  · simp only

/-! How the task goes on -/

/-- The core that `transfer` leaves: only the slot has changed, which holds its task at the new pc. -/
theorem transfer_eq (s : State) (c n pc : Nat) :
    ∃ L, s.transfer c n pc = s.setCore c L ∧ OnlySlot (s.core c) L n ∧
      ∃ st dep mk, L.slot n = { (s.core c).slot n with
          state := st, depart := dep, mark := mk, task := { ((s.core c).slot n).task with pc := BitVec.ofNat 64 pc } } ∧
        (inSegment (s.core c) pc = true → st = ((s.core c).slot n).state) := by
  by_cases hd : ((s.core c).slot n).state = .ready ∧ s.departs c pc
  · let sl : Slot := { ((s.core c).clearMarks n).slot n with
      task := { ((s.core c).slot n).task with pc := BitVec.ofNat 64 pc }, state := .departing, depart := some ⟨0, false, ((s.core c).slot n).task.pc.toNat⟩ }
    refine ⟨{ ((s.core c).clearMarks n).setSlot n sl with portCount := 0 }, by simp only [State.transfer, if_pos hd]; rfl,
      ⟨rfl, fun m hm => ?_, fun e he => clearMarks_rmark _ _ e he⟩, .departing, some ⟨0, false, ((s.core c).slot n).task.pc.toNat⟩, 0, ?_, ?_⟩
    · exact (slot_setSlot_other _ _ hm).trans (clearMarks_slot_other _ hm)
    · exact (slot_setSlot_same ..).trans (by simp only [sl, clearMarks_slot_same])
    · intro h; simp [State.departs, h] at hd
  · let sl : Slot := { (s.core c).slot n with task := { ((s.core c).slot n).task with pc := BitVec.ofNat 64 pc } }
    refine ⟨{ (s.core c).setSlot n sl with portCount := (s.core c).portCount + 1 },
      by simp only [State.transfer, if_neg hd]; rfl, ⟨rfl, fun m hm => slot_setSlot_other _ _ hm, fun _ _ => Iff.rfl⟩,
      ((s.core c).slot n).state, ((s.core c).slot n).depart, ((s.core c).slot n).mark, ?_, fun _ => rfl⟩
    exact slot_setSlot_same ..

theorem onlySlot_trans {a b c : Core} {n : Nat} (h : OnlySlot a b n) (g : OnlySlot b c n) : OnlySlot a c n := by
  obtain ⟨h1, h2, h3⟩ := h
  obtain ⟨g1, g2, g3⟩ := g
  refine ⟨?_, fun m hm => (g2 m hm).trans (h2 m hm), fun e he => (g3 e he).trans (h3 e he)⟩
  rw [← h1, ← g1]

/-- After an effect that changed nothing but the task of the slot, the task goes on at the next pc. -/
theorem transfer_goesOn {s s' : State} {len : Nat} {x : Cur} (hc : s.cur? len = some x) (pc : Nat)
    (ho : OnlyCore s s' x.c) (hs : OnlySlot (s.core x.c) (s'.core x.c) x.n)
    (hl : (s'.core x.c).slot x.n = { (s.core x.c).slot x.n with
      task := ((s'.core x.c).slot x.n).task, mark := ((s'.core x.c).slot x.n).mark }) :
    GoesOn s (s'.transfer x.c x.n pc) x pc ∧
      ((s'.transfer x.c x.n pc).slot x.c x.n).task = { ((s'.core x.c).slot x.n).task with pc := BitVec.ofNat 64 pc } := by
  obtain ⟨h1, -, h3, -, -, -, -, hr, -⟩ := cur?_eq hc
  rw [← h1] at h3
  obtain ⟨L, hL, hos, st, dep, mk, hsl, hin⟩ := transfer_eq s' x.c x.n pc
  have hseg : (s'.core x.c).seg = (s.core x.c).seg := by rw [← hs.1]
  obtain ⟨e1, e2, e3⟩ := ho
  rw [hL]
  refine ⟨⟨⟨e1, fun d hd => by rw [core_setCore_other _ _ hd, e2 d hd], e3⟩, ?_, ?_⟩, ?_⟩
  · rw [core_setCore_same]; exact onlySlot_trans hs hos
  · simp only [State.slot, core_setCore_same, hsl]
    rw [hl]
    refine ⟨trivial, rfl, rfl, rfl, rfl, rfl, fun h => ?_⟩
    rw [hin (by simpa [inSegment, hseg, h3] using h), hl]
    exact hr
  · simp only [State.slot, core_setCore_same, hsl]

/-- A scalar instruction that writes one register: the task goes on with that register changed and nothing else. -/
theorem writesReg_of_setReg {s : State} {h : Head} {len : Nat} {x : Cur} (hc : s.cur? len = some x) {d : Nat} (hd : d < 16)
    (v : Word) (g : Bool) (pc : Nat) :
    WritesReg s (((curAtChecks h s x).setReg (atChecks h s x) d v g).transfer x.c x.n pc) x pc d v g := by
  obtain ⟨a1, a2, a3, a4⟩ := atChecks_core (h := h) hc
  obtain ⟨b1, b2, b3⟩ := atChecks_onlyCore h s x
  have ht : x.t = ((s.core x.c).slot x.n).task := (cur?_eq hc).2.2.2.1
  have hs' : ((curAtChecks h s x).setReg (atChecks h s x) d v g).core x.c =
      ((atChecks h s x).core x.c).setSlot x.n
        { ((atChecks h s x).core x.c).slot x.n with task := x.t.setReg d v g } := core_setTask_same ..
  have ho : OnlyCore s ((curAtChecks h s x).setReg (atChecks h s x) d v g) x.c := by
    refine ⟨b1, fun e he => ?_, b3⟩
    exact (core_setTask_other _ _ _ he).trans (b2 e he)
  obtain ⟨g1, g2⟩ := transfer_goesOn hc pc ho
    (by rw [hs']; exact onlySlot_trans a1 ⟨rfl, fun m hm => slot_setSlot_other _ _ hm, fun _ _ => Iff.rfl⟩)
    (by rw [hs', slot_setSlot_same, a2])
  rw [hs', slot_setSlot_same] at g2
  refine ⟨g1, ?_, ?_, ?_, ?_⟩
  all_goals rw [g2]
  · exact ⟨rfl, rfl, rfl, rfl⟩
  · exact setReg_otherRegs x.t v g hd
  · exact reg_setReg_same x.t d v g
  · exact regGuard_setReg_same x.t d v g

end Sys2Proof.Machine
end

