-- ==== Sys2Proof/Tests/Setup.lean ====
section
/-! SUPPORT. Small states for the tests: one capsule on one core, or two, with a task ready in slot 0. -/

open Sys2Proof
open Sys2Proof.Machine

namespace Sys2Proof.Tests

/-- Unguarded and unmarked, and the same with the switch marker. -/
abbrev hd : Head := ⟨false, 7, false⟩
abbrev hm : Head := ⟨false, 7, true⟩

/-- An HBM extent at capsule address 0 and a unique one at 0x1000. -/
def ext0 : Extent :=
  { index := 0, allm := true, member := 0, vbase := 0, wrole := 0, len := 0x1000, dbase := 0x100000, sparse := false, ws := false,
    msa := false, guard := true, u := false, x := false, w := true, r := true }
def ext1 : Extent := { ext0 with index := 1, vbase := 0x1000, dbase := 0x200000, u := true }

/-- A running capsule on the cores `cs`, with 64 bytes of code. -/
def capOn (cs : List Nat) : Capsule :=
  { bootCapsule (List.replicate 64 0) with
    exts := [ext0, ext1], groups := [⟨0, 1, 1, 1, 0, 0, cs, false, none, [], []⟩], holders := [⟨0, 1, some 0, none⟩] }
def cap1 : Capsule := capOn [0]

/-- A task whose registers hold the values given, from g0 on. -/
def taskOf (g : List Nat) : Task :=
  { Task.fresh with g := Vector.ofFn fun i => BitVec.ofNat 64 (g.getD i.val 0) }

/-- A core of the capsule whose slot 0 holds the task, ready, at the issue port. -/
def coreOf (t : Task) : Core := { bootCore.setSlot 0 { Slot.fresh with state := .ready, serial := 1, task := t } with port := 0, portCount := 1 }

/-- The machine with that capsule and core. -/
def stOf (cap : Capsule) (k : Core) : State := { State.reset with capsules := [cap], cores := [(0, k)] }

/-- The executing task of `stOf`. -/
def curOf (cap : Capsule) (k : Core) (len : Nat) : Cur := ⟨0, 0, k, (k.slot 0).task, cap, 0, len⟩

/-- Registers: g1 scratchpad, g2 the HBM extent, g3 to g7 small numbers, g8 and g9 the unique extent and the scratchpad. -/
def regs0 : List Nat := [0, scratchWindow, 0x40, 8, 5, 1, 0, 3, 0x1000, scratchWindow + 64]
def k0 : Core := coreOf (taskOf regs0)
def s0 : State := stOf cap1 k0
def x0 (len : Nat) : Cur := curOf cap1 k0 len

/-- The same where another slot of the core waits for LSU places. -/
def kFull : Core :=
  let k := k0.setSlot 1 { k0.slot 1 with state := .blocked .lsuPlace, serial := 2 }
  { k with lsuTickets := [⟨1, 2, 1, 0, false⟩] }
def sFull : State := stOf cap1 kFull

theorem issues0 (len : Nat) : Issues s0 hd len (x0 len) := ⟨rfl, nofun, rfl⟩

/-- A capsule image without its seal (R192-R194): owner 1, priority 0, the whole register space and scratchpad, one core, 64 bytes of
code at 0x4000, the completion record at 0x3000, one writer-unique extent inside `ext1` and one group. -/
def image0 : List Byte :=
  leBytes 4 0xA1A7C768 ++ leBytes 2 1 ++ leBytes 2 352 ++ List.replicate 64 0 ++ leBytes 8 1 ++ leBytes 4 0 ++
    leBytes 4 32768 ++ leBytes 4 131072 ++ leBytes 4 0 ++ leBytes 12 1 ++ leBytes 2 0 ++ leBytes 1 0xFF ++ leBytes 1 1 ++
    leBytes 4 0 ++ leBytes 4 64 ++ leBytes 8 0x4000 ++ leBytes 8 0x3000 ++ leBytes 4 0x00800000 ++ leBytes 4 0x00200000 ++
    leBytes 4 0x00104000 ++ leBytes 4 0x08801200 ++ leBytes 4 0x11107200 ++ leBytes 4 0x1160F200 ++ leBytes 4 0xD0000200 ++
    List.replicate 68 0 ++ leBytes 2 1 ++ List.replicate 22 0 ++ leBytes 8 0x100000000001000 ++ leBytes 8 0x1000 ++
    leBytes 8 0x200000 ++ leBytes 8 0x1B ++ leBytes 1 0 ++ leBytes 1 1 ++ leBytes 2 1 ++ leBytes 2 1 ++ leBytes 1 0xFF ++
    List.replicate 25 0

theorem image0_ok : imageOk (image0 ++ List.replicate 32 0) = true ∧ (headerOf image0).framed = true := by decide +kernel

/-- Packet 0 of the capsule from core 0 to core 0. -/
def packetOf (cls : Nat) (body : PktBody) (st : PktState) : Packet :=
  { id := 0, inst := 1, src := 0, dest := 0, cls := cls, body := body, state := st, slot := 0, slotSerial := 1, parks := false
    leaves := false, role := 0, order := 0, pc := none }

/-- Access 0 of the task, of 8 bytes at the start of the scratchpad. -/
def accessOf (op : AccOp) (kind : Kind) (data : List Byte) (st : AccState) : Access :=
  { id := 0, core := 0, slot := 0, slotSerial := 1, inst := 1, member := 0, pc := 0, insn := [], kind := kind, op := op
    ca := scratchWindow, addr := scratchAddr 0 0 0, size := 8, span := [], data := data, mask := BitVec.allOnes 64, guard := false
    ext := none, extGuard := false, msa := false, lane := 0, cls := 0, stl := none, result := none, entry := none, state := st
    order := 0, perf := 0, word := 0, fill := false, line := [], reply := [], replyGuard := false }

/-- An instruction completes in a state. -/
def Runs (i : Instr) (s : State) : Prop := ∃ t, exec i s = .next t

theorem runs_of {i : Instr} {s : State} {p : State → Prop} (h : ∃ t, exec i s = .next t ∧ p t) : Runs i s :=
  let ⟨t, ht, _⟩ := h
  ⟨t, ht⟩

theorem runs_of_both {i : Instr} {s : State} {p q : State → Prop} (h : ∃ t, (exec i s = .next t ∧ p t) ∧ q t) : Runs i s :=
  let ⟨t, ⟨ht, _⟩, _⟩ := h
  ⟨t, ht⟩

theorem runs_place {i : Instr} {s : State} {x : Cur} {n : Nat} {p q : State → Prop}
    (h : (HasPlace s x n → ∃ t, exec i s = .next t ∧ p t) ∧ (LacksPlace s x n → ∃ t, exec i s = .next t ∧ q t))
    (hp : HasPlace s x n) : Runs i s := runs_of (h.1 hp)

theorem runs_lack {i : Instr} {s : State} {x : Cur} {n : Nat} {p q : State → Prop}
    (h : (HasPlace s x n → ∃ t, exec i s = .next t ∧ p t) ∧ (LacksPlace s x n → ∃ t, exec i s = .next t ∧ q t))
    (hp : LacksPlace s x n) : Runs i s := runs_of (h.2 hp)

theorem runs_of2 {α : Type} {i : Instr} {s : State} {p : State → α → Prop} (h : ∃ t a, exec i s = .next t ∧ p t a) : Runs i s :=
  let ⟨t, _, ht, _⟩ := h
  ⟨t, ht⟩

theorem runs_of3 {α β : Type} {i : Instr} {s : State} {p : State → α → β → Prop}
    (h : ∃ t a b, exec i s = .next t ∧ p t a b) : Runs i s :=
  let ⟨t, _, _, ht, _⟩ := h
  ⟨t, ht⟩

end Sys2Proof.Tests
end

