-- ==== Sys2Proof/Tests/Tasks.lean ====
section
/-! SUPPORT. Witnesses of the statements about matrix, tensor, copy, task and capsule instructions. -/

section

set_option Elab.async false

open Sys2Proof
open Sys2Proof.Machine
open Sys2Proof.Tests

/-- A tensor of one dimension of 512 elements (R312): BASE, FD, NDIM, DIM0. -/
def tensor (fd base : Nat) : BitVec 1024 :=
  BitVec.ofNat 1024 (base + fd * 0x100000000000000000000000000000000 + 0x10000000000000000000000000000000000000000 +
    512 * 0x1000000000000000000000000000000000000000000000000)

/-- A tensor of 16 × 16 binary16 elements at 0x400, rows of 32 bytes. -/
def square : BitVec 1024 := BitVec.ofNat 1024 0x200000000000000000000000000000000000000000000000000000001000000010000000026000000000000000000000000000000000000400

/-- Bytes at 0 and at 0x200 (t0 and t1), binary16 elements at 0x400 (t2) and the square (t3); g4 is all ones, g6 and g7 a box of
512 elements, g12 to g15 a block of 16 × 16 × 16 (R327), and the other registers are 0. -/
def kT : Core :=
  { coreOf (taskOf [0, 0, 0, 0, 0xFFFFFFFFFFFFFFFF, 0, 0x100000200, 0x1001001001001, 0, 0, 0, 0, 0, 0, 0, 0x1000100010]) with
    tensors := [(0, tensor 0xD0000000 0), (1, tensor 0xD0000000 0x200), (2, tensor 0x60000000 0x400), (3, square)] }
def sT : State := stOf cap1 kT
def xT (len : Nat) : Cur := curOf cap1 kT len
theorem issuesT (len : Nat) : Issues sT hd len (xT len) := ⟨rfl, nofun, rfl⟩
theorem numberedT : Numbered sT := by unfold Numbered; decide

theorem queueReadyT (len : Nat) (gs : List Nat) : QueueReady hd (xT len) gs := by
  have r : ((xT len).k.rpend, (xT len).k.rmark) = ([], []) := rfl
  intro g _
  simp_all

/-- TRACKT tk3, t2. -/
theorem test_trackt (H : Obligations.TrackersAndQueueFence) : Runs (.trackt hd ⟨3, 0, 0, 0, 0, 0, 0, 0, 0, 2⟩) sT :=
  runs_of ((H.1 hd _ sT (xT 8) (issuesT 8)).2.1 (by decide +kernel))

/-- MZERO a15 and MLD m31, t0, g0.p. -/
theorem test_matrixIssue (H : Obligations.MatrixIssue) :
    Runs (.mzero hd ⟨15, 0, 0, 0, 0, 0, 0, 0, 0, 0, 0, 0, 0, 0, 0⟩) sT ∧
      Runs (.mld hd ⟨0, 31, 0, 0, 0, 0, 0, 0, 1, 0, 0, 0, 0, 0, 0⟩) sT :=
  ⟨runs_of2 (H _ _ sT (xT 12) rfl (issuesT 12) (.inr (by decide)) (queueReadyT 12 _) (by show accOk _ _; decide)),
   runs_of2 (H _ _ sT (xT 12) rfl (issuesT 12) (.inr (by decide)) (queueReadyT 12 _)
     ⟨rfl, rfl, by decide, by decide +kernel, by decide +kernel, by unfold coordsOk; decide +kernel, by decide +kernel⟩)⟩

/-- MMAT of t3 by t3 into t3, g12.q. -/
theorem test_macroMultiplyIssue (H : Obligations.MacroMultiplyIssue) :
    Runs (.mmat hd ⟨0, 0, 2, 0, 0, 0, 0, 12, 2, 3, 3, 3, 0, 0, 0⟩) sT := by
  apply runs_of2
  apply H hd _ sT (xT 12) (issuesT 12)
  all_goals first | decide +kernel | exact queueReadyT 12 _ | exact .inr (by decide)

/-- TDEF t255, v126: 128 bytes of zeros, NDIM 0. -/
theorem test_tensorDefine (H : Obligations.TensorDefine) :
    Runs (.tdef hd ⟨0, 0, 0, 0, 0, 126, 0, 0, 0, 255, 0, 0, 0, 0, 0⟩) sT := by
  have r : (xT 12).k.rpend = [] := rfl
  have b : (xT 12).k.badGrans = [] := rfl
  have z : ∀ i, (xT 12).k.spaceByte i = 0 := fun _ => by
    simp [Core.spaceByte, Core.granule, show (xT 12).k.regs = [] from rfl, SMap.get]
  refine runs_of (H hd ⟨0, 0, 0, 0, 0, 126, 0, 0, 0, 255, 0, 0, 0, 0, 0⟩ sT (xT 12) 0 (issuesT 12) rfl (by decide) ?_
    (by rw [b]; simp) ?_ (.inr (by decide +kernel)))
  · intro p hp; rw [r] at hp; cases hp
  · intro i _; rw [z]; simp

/-- COPY.q0 15, t1, g0.p, t0, g0.p, g6.p of 512 bytes. -/
theorem test_copyIssue (H : Obligations.CopyIssue) :
    Runs (.copy hd ⟨15, 0, 1, 0, 0, 1, 0, 1, 6, 1, 0, 0, 0, 0, 0⟩) sT := by
  have r : (xT 16).k.copies = [] := rfl
  refine runs_of2 (H _ .copy hd _ sT (xT 16) (.inl ⟨rfl, rfl⟩) (issuesT 16) (by decide) ?_ rfl rfl rfl rfl rfl rfl (by decide)
    (.inr (by decide)) nofun (by decide +kernel) (by decide +kernel) (by decide +kernel))
  intro o ho; rw [r] at ho; cases ho

/-- Map 0 with every bit set and map 1 with every bit clear. -/
def kMap : Core := { kT with maps := [(0, BitVec.allOnes 4096), (1, 0)] }
def sMap : State := stOf cap1 kMap
theorem issuesMap : Issues sMap hd 8 (curOf cap1 kMap 8) := ⟨rfl, nofun, rfl⟩

/-- CWAIT at base 0 with a full mask, and CWAIT.all, on a full and on an empty map; CTEST of bit 4095. -/
theorem test_chunkMapWaits (H : Obligations.ChunkMapWaits) :
    Runs (.cwait hd ⟨0, 0, 4, 0, 0, 0, 0, 0, 0, 0⟩) sMap ∧ Runs (.cwait hd ⟨0, 0, 4, 0, 0, 0, 1, 0, 0, 0⟩) sMap ∧
      Runs (.cwaitAll hd ⟨0, 0, 0, 0, 0, 0, 0, 0, 0, 1⟩) sMap ∧ Runs (.cwaitAll hd ⟨0, 0, 0, 0, 0, 0, 1, 0, 0, 1⟩) sMap ∧
      Runs (.ctest hd ⟨5, 0, 0, 0, 4, 0, 1, 0, 0, 0⟩) sMap :=
  have full : (curOf cap1 kMap 8).k.map 0 = BitVec.allOnes 4096 := rfl
  have empty : (curOf cap1 kMap 8).k.map 1 = 0 := rfl
  ⟨runs_of (((H hd ⟨0, 0, 4, 0, 0, 0, 0, 0, 0, 0⟩ sMap _ issuesMap).1 (.inr (by decide)) rfl (by decide)).1
     (fun b hb _ => by
       show ((curOf cap1 kMap 8).k.map 0).getLsbD (0 + b) = true
       rw [full, BitVec.getLsbD_allOnes]; simp; omega)),
   runs_of (((H hd ⟨0, 0, 4, 0, 0, 0, 1, 0, 0, 0⟩ sMap _ issuesMap).1 (.inr (by decide)) rfl (by decide)).2 0 (by decide)
     (by decide) (by show ((curOf cap1 kMap 8).k.map 1).getLsbD _ = false; rw [empty]; simp)),
   runs_of ((H hd ⟨0, 0, 0, 0, 0, 0, 0, 0, 0, 1⟩ sMap _ issuesMap).2.1
     (fun b hb => by show ((curOf cap1 kMap 8).k.map 0).getLsbD _ = true; rw [full, BitVec.getLsbD_allOnes]; simpa using hb)),
   runs_of ((H hd ⟨0, 0, 0, 0, 0, 0, 1, 0, 0, 1⟩ sMap _ issuesMap).2.2.1 4095 (by decide)
     (by show ((curOf cap1 kMap 8).k.map 1).getLsbD _ = false; rw [empty]; simp)),
   runs_of ((H hd ⟨5, 0, 0, 0, 4, 0, 1, 0, 0, 0⟩ sMap _ issuesMap).2.2.2 (.inr (by decide)))⟩

/-- SPAWN.j g0, g2, 0 and SPAWNP to group 0. -/
theorem test_taskCreation (H : Obligations.TaskCreation) :
    Runs (.spawn hd ⟨0, 0, 2, 0, 0, 0, 0, 0, 0, 1, 56⟩) s0 ∧ Runs (.spawnp hd ⟨0, 3, 2, 0, 0, 0, 0, 0, 0, 0, 0⟩) s0 :=
  ⟨runs_of3 ((H hd _ s0 (x0 12) 0 (issues0 12) rfl (.inr (by decide)) (by unfold ValidTarget; decide +kernel)).1 (by decide +kernel)),
   runs_of3 ((H hd _ s0 (x0 12) 0 (issues0 12) rfl (.inr (by decide)) (by unfold ValidTarget; decide +kernel)).2 (by decide)
     (by decide +kernel))⟩

/-- A core whose role is not the supervisor's. -/
def kOther : Core := { k0 with role := 1 }
def sOther : State := stOf cap1 kOther
theorem issuesOther : Issues sOther hd 8 (curOf cap1 kOther 8) := ⟨rfl, nofun, rfl⟩

/-- SEND g8.o, G0[0], 15; resume packets from the supervisor core and from another; SPSEND of a zero register. -/
theorem test_messagesSent (H : Obligations.MessagesSent) :
    Runs (.send hd ⟨8, 3, 0, 0, 0, 0, 0, 0, 15, 0⟩) s0 ∧ Runs (.sendResume hd ⟨8, 1, 0, 0, 0, 0, 0, 0, 3, 0⟩) s0 ∧
      Runs (.sendResume hd ⟨8, 1, 0, 0, 0, 0, 0, 0, 3, 0⟩) sOther ∧
      Runs (.spsend hd ⟨0, 0, 1, 0, 0, 0, 0, 0, 0, 0, 0, 0, 0, 0, 4, 0, 0⟩) s0 := by
  have r : ((x0 12).k.rpend, (x0 12).k.rmark, (x0 12).k.qm) = ([], [], []) := rfl
  refine ⟨runs_of2 ((H.1 hd _ s0 (x0 8) 0 (issues0 8) rfl (.inr (by decide)) rfl).1 (by decide)),
    runs_of2 ((H.1 hd _ s0 (x0 8) 0 (issues0 8) rfl (.inr (by decide)) rfl).2.1 rfl),
    runs_of ((H.1 hd _ sOther _ 0 issuesOther rfl (.inr (by decide)) rfl).2.2 (by decide)),
    runs_of2 (H.2 hd _ s0 (x0 12) 0 (issues0 12) (by decide) rfl (by decide) (.inr (by decide)) ⟨by decide, ?_, ?_, ?_⟩ rfl)⟩
  · intro g _; simp_all
  · simp_all
  · simp [show (x0 12).k.badGrans = [] from rfl]

/-- The capsule in promenade mode (flag bit 0). -/
def capProm : Capsule := { cap1 with hdr := { cap1.hdr with flags := 1 } }
def sProm : State := stOf capProm k0
theorem issuesProm : Issues sProm hd 8 (curOf capProm k0 8) := ⟨rfl, nofun, rfl⟩
def kJoin : Core := coreOf (taskOf [0, scratchWindow, 0x40, 0, 0, 0, 0, 0, 0, 0, 0, 0, 0, 0, 0, scratchWindow + 8])
def sJoin : State := stOf cap1 kJoin
theorem issuesJoin : Issues sJoin hd 8 (curOf cap1 kJoin 8) := ⟨rfl, nofun, rfl⟩
theorem numberedJoin : Numbered sJoin := by unfold Numbered; decide

/-- A register of the task is pending. -/
def kOwing : Core := kJoin.setSlot 0 { kJoin.slot 0 with pend := 1 }
def sOwing : State := stOf cap1 kOwing
theorem issuesOwing : Issues sOwing hd 8 (curOf cap1 kOwing 8) := ⟨rfl, nofun, rfl⟩

/-- JOIN g8.q, [g1]; JOIN.ret g0; GO [g2], in promenade mode, and with a result outstanding. -/
theorem test_joinsAndMigration (H : Obligations.JoinsAndMigration) :
    Runs (.join hd ⟨8, 2, 1, 0, 0, 0, 0, 0, 0, 0⟩) sJoin ∧ Runs (.joinRet hd ⟨0, 0, 0, 0, 0, 0, 0, 0, 0, 1⟩) sJoin ∧
      Runs (.go hd ⟨0, 0, 2, 0, 0, 0, 0, 0, 0, 0⟩) sJoin ∧ Runs (.go hd ⟨0, 0, 2, 0, 0, 0, 0, 0, 0, 0⟩) sProm ∧
      Runs (.go hd ⟨0, 0, 2, 0, 0, 0, 0, 0, 0, 0⟩) sOwing :=
  ⟨runs_of2 (((H hd ⟨8, 2, 1, 0, 0, 0, 0, 0, 0, 0⟩ sJoin _ issuesJoin numberedJoin).1 ⟨scratchAddr 0 0 0, none⟩ rfl
     (.inr (by decide)) rfl (by decide) (by decide) rfl).1 (.inr (by decide))),
   runs_of2 (((H hd ⟨0, 0, 0, 0, 0, 0, 0, 0, 0, 1⟩ sJoin _ issuesJoin numberedJoin).2.1 ⟨scratchAddr 0 0 8, none⟩
     (.inr (by decide)) rfl (by decide) (by decide) rfl).1 (.inr (by decide))),
   runs_of ((H hd _ sJoin _ issuesJoin numberedJoin).2.2.1 0 rfl rfl rfl),
   runs_of ((H hd _ sProm _ issuesProm (by unfold Numbered; decide)).2.2.2.1 rfl rfl),
   runs_of ((H hd _ sOwing _ issuesOwing (by unfold Numbered; decide)).2.2.2.2 rfl)⟩

/-- Cores 0 and 1 of the capsule: core 1 is the neighbour of core 0 in direction 1, whose opposite is 3. -/
def sTwo (own theirs : List (Word × Bool)) : State :=
  { State.reset with capsules := [capOn [0, 1]], cores := [(0, k0.setChannel 1 own), (1, { k0.setChannel 3 theirs with role := 1 })] }

/-- Core 1 is the neighbour of core 0 while its role is parked. -/
def capParked : Capsule :=
  { capOn [0, 1] with parked := [{ role := 1, counter := 1, saved := k0, scratch := [], fullWords := [], guardLines := [],
                                   spills := [], partners := [] }] }
def sParked : State := stOf capParked k0

def xTwo (own : List (Word × Bool)) : Cur := curOf (capOn [0, 1]) (k0.setChannel 1 own) 8
theorem issuesTwo (own theirs : List (Word × Bool)) : Issues (sTwo own theirs) hd 8 (xTwo own) := ⟨rfl, nofun, rfl⟩

/-- CHSEND to a channel of 3 words, to a full one and to a parked role, CHRECV from one word and from an empty channel, and both without
a neighbour and beside a core of no capsule; CHMASK of class 15. -/
theorem test_channelsAndMasks (H : Obligations.ChannelsAndMasks) :
    Runs (.chsend hd ⟨3, 0, 0, 0, 0, 0, 0, 0, 0, 1⟩) (sTwo [] (List.replicate 3 (0, false))) ∧
      Runs (.chsend hd ⟨3, 0, 0, 0, 0, 0, 0, 0, 0, 1⟩) (sTwo [] (List.replicate 4 (0, false))) ∧
      Runs (.chsend hd ⟨3, 0, 0, 0, 0, 0, 0, 0, 0, 1⟩) sParked ∧
      Runs (.chrecv hd ⟨3, 0, 0, 0, 0, 0, 0, 0, 0, 1⟩) (sTwo [(5, true)] []) ∧
      Runs (.chrecv hd ⟨3, 0, 0, 0, 0, 0, 0, 0, 0, 1⟩) (sTwo [] []) ∧
      Runs (.chsend hd ⟨3, 0, 0, 0, 0, 0, 0, 0, 0, 0⟩) s0 ∧ Runs (.chrecv hd ⟨3, 0, 0, 0, 0, 0, 0, 0, 0, 1⟩) s0 ∧
      Runs (.chmask hd ⟨31⟩) s0 :=
  let F : FmtA := ⟨3, 0, 0, 0, 0, 0, 0, 0, 0, 1⟩
  ⟨runs_of (((H.1 hd F (sTwo [] (List.replicate 3 (0, false))) (xTwo []) (issuesTwo _ _) (.inr (by decide))).1 1 rfl (by decide)).1
     rfl (by decide) (by decide)),
   runs_of (((H.1 hd F (sTwo [] (List.replicate 4 (0, false))) (xTwo []) (issuesTwo _ _) (.inr (by decide))).1 1 rfl (by decide)).2
     (.inl ⟨rfl, by decide⟩)),
   runs_of (((H.1 hd F sParked (curOf capParked k0 8) ⟨rfl, nofun, rfl⟩ (.inr (by decide))).1 1 rfl (by decide)).2 (.inr (by decide))),
   runs_of2 (((H.1 hd F (sTwo [(5, true)] []) (xTwo [(5, true)]) (issuesTwo _ _) (.inr (by decide))).2.1 1 rfl (.inl rfl)).1
     5 true [] rfl),
   runs_of (((H.1 hd F (sTwo [] []) (xTwo []) (issuesTwo _ _) (.inr (by decide))).2.1 1 rfl (.inl rfl)).2 rfl),
   runs_of ((H.1 hd ⟨3, 0, 0, 0, 0, 0, 0, 0, 0, 0⟩ s0 (x0 8) (issues0 8) (.inr (by decide))).2.2 nofun).1,
   runs_of ((H.1 hd F s0 (x0 8) (issues0 8) (.inr (by decide))).2.2
     (fun d hn => by cases Option.some.inj hn; exact ⟨by decide, by decide⟩)).2,
   runs_of (H.2 hd _ s0 (x0 8) (issues0 8))⟩

/-- The core's membership in group 0, which may be broken, and a slot's wait for it. -/
def kBar (arrived unclaimed : Bool) (b : Option BarWait) : Core :=
  let k := { k0 with members := [⟨0, 0, arrived, false, unclaimed, 2, true, false⟩] }
  k.setSlot 0 { k.slot 0 with bar := b }
def capBar (broken : Bool) : Capsule := { cap1 with groups := [⟨0, 1, 1, 1, 0, 0, [0], broken, none, [], []⟩] }
def sBar (broken arrived unclaimed : Bool) (b : Option BarWait) : State := stOf (capBar broken) (kBar arrived unclaimed b)
theorem issuesBar (broken arrived unclaimed : Bool) (b : Option BarWait) :
    Issues (sBar broken arrived unclaimed b) hd 8 (curOf (capBar broken) (kBar arrived unclaimed b) 8) := ⟨rfl, nofun, rfl⟩

abbrev bar0 : FmtT := ⟨4, 0, 0, 0, 0, 0, 0, 0, 0, 0⟩
abbrev wait0 : BarWait := { group := 0, began := 0, limit := 0, result := some 1 }

/-- BARA before and after the arrival and at a broken barrier. -/
theorem test_barrierInstructions_bara (H : Obligations.BarrierInstructions) :
    Runs (.bara hd bar0) (sBar false false true none) ∧ Runs (.bara hd bar0) (sBar false true false none) ∧
      Runs (.bara hd bar0) (sBar true false false none) :=
  ⟨runs_of ((H hd bar0 _ _ (issuesBar false false true none)).1 _ _ rfl rfl |>.1 rfl rfl),
   runs_of ((H hd bar0 _ _ (issuesBar false true false none)).1 _ _ rfl rfl |>.2.1 (.inr rfl)),
   runs_of ((H hd bar0 _ _ (issuesBar true false false none)).1 _ _ rfl rfl |>.2.1 (.inl rfl))⟩

/-- BAR that waits, BARW that claims, BARW that waits, and both at a broken barrier. -/
theorem test_barrierInstructions_wait (H : Obligations.BarrierInstructions) :
    Runs (.bar hd bar0) (sBar false false true none) ∧ Runs (.barw hd bar0) (sBar false false true none) ∧
      Runs (.barw hd bar0) (sBar false true false none) ∧
      Runs (.bar hd bar0) (sBar true false true none) ∧ Runs (.barw hd bar0) (sBar true false true none) :=
  ⟨runs_of ((H hd bar0 _ _ (issuesBar false false true none)).1 _ _ rfl rfl |>.2.2 rfl (.inr (by decide)) |>.1 rfl),
   runs_of ((H hd bar0 _ _ (issuesBar false false true none)).1 _ _ rfl rfl |>.2.2 rfl (.inr (by decide)) |>.2.1 rfl rfl rfl),
   runs_of ((H hd bar0 _ _ (issuesBar false true false none)).1 _ _ rfl rfl |>.2.2 rfl (.inr (by decide)) |>.2.2.1 rfl (.inl rfl)),
   runs_of ((H hd bar0 _ _ (issuesBar true false true none)).1 _ _ rfl rfl |>.2.2 rfl (.inr (by decide)) |>.2.2.2 rfl).1,
   runs_of ((H hd bar0 _ _ (issuesBar true false true none)).1 _ _ rfl rfl |>.2.2 rfl (.inr (by decide)) |>.2.2.2 rfl).2⟩

/-- BAR and BARW once the wait has ended, and all three in a core that is no member. -/
theorem test_barrierInstructions_ends (H : Obligations.BarrierInstructions) :
    Runs (.bar hd bar0) (sBar false true false (some wait0)) ∧ Runs (.barw hd bar0) (sBar false true false (some wait0)) ∧
      Runs (.bara hd { bar0 with rk := 1 }) s0 ∧ Runs (.bar hd { bar0 with rk := 1 }) s0 ∧
      Runs (.barw hd { bar0 with rk := 1 }) s0 :=
  ⟨runs_of ((H hd bar0 _ _ (issuesBar false true false (some wait0))).2.1 _ _ _ rfl rfl rfl (.inr (by decide))).1,
   runs_of ((H hd bar0 _ _ (issuesBar false true false (some wait0))).2.1 _ _ _ rfl rfl rfl (.inr (by decide))).2,
   runs_of ((H hd { bar0 with rk := 1 } s0 (x0 8) (issues0 8)).2.2 rfl).1,
   runs_of (((H hd { bar0 with rk := 1 } s0 (x0 8) (issues0 8)).2.2 rfl).2 (.inr (by decide))).1,
   runs_of (((H hd { bar0 with rk := 1 } s0 (x0 8) (issues0 8)).2.2 rfl).2 (.inr (by decide))).2⟩

/-- A posted child, queued, with a writer-unique extent inside the parent's. -/
def post0 : Post :=
  { id := 0, inst := 1, core := 0, slot := 0, slotSerial := 1, member := 0, pc := 0, insn := [], addr := 0x40, waits := []
    image := image0 ++ List.replicate 32 0, prio := 0, after := false, queued := true, taken := false, handler := false, queuedAt := 0, barred := [] }
def sPost : State := { s0 with plaza := { s0.plaza with posts := [post0] } }
theorem issuesPost : Issues sPost hd 8 (x0 8) := ⟨rfl, nofun, rfl⟩

/-- CPOST [g2]; HANDOVER [g8], G0[0]; HANDOVER.c [g8], g2; DONE. -/
theorem test_chainingAndDone (H : Obligations.ChainingAndDone) :
    Runs (.cpost hd ⟨0, 0, 2, 0, 0, 0, 0, 0, 0, 0⟩) s0 ∧ Runs (.handover hd ⟨0, 0, 8, 0, 0, 0, 0, 0, 0, 0⟩) s0 ∧
      Runs (.handoverC hd ⟨0, 0, 8, 0, 0, 0, 2, 0, 0, 1⟩) sPost ∧ Runs (.done hd ⟨0⟩) s0 :=
  ⟨runs_of2 ((H hd _ ⟨0⟩ s0 (x0 8) (issues0 8)).1 (.inr (by decide)) (by decide)),
   runs_of3 ((H hd _ ⟨0⟩ s0 (x0 8) (issues0 8)).2.1 0 ext1 (.inr (by decide)) rfl rfl rfl),
   runs_of2 ((H hd ⟨0, 0, 8, 0, 0, 0, 2, 0, 0, 1⟩ ⟨0⟩ sPost (x0 8) issuesPost).2.2.1 ext1 post0 _ (.inr (by decide)) rfl rfl rfl
     (Option.some_get (by decide +kernel)).symm rfl (by decide)),
   runs_of2 (H hd ⟨0, 0, 0, 0, 0, 0, 0, 0, 0, 0⟩ _ s0 (x0 8) (issues0 8)).2.2.2⟩

end
end

