-- ==== Sys2Proof/Tests/Engines.lean ====
section
/-! SUPPORT. Witnesses of the statements about the engines' events. -/

section

set_option Elab.async false

open Sys2Proof
open Sys2Proof.Machine
open Sys2Proof.Tests

/-- A tensor as far up in the scratchpad as it stands in the HBM extent. -/
def inScratch (t : BitVec 1024) : BitVec 1024 := t + BitVec.ofNat 1024 scratchWindow

/-- A copy of 512 bytes from the scratchpad to 0x200 there at the head of q0, as issued and begun. -/
def copyE (begun : Bool) : CopyEntry :=
  { id := 0, kind := .copy, queue := 0, map := 0, slot := 0, slotSerial := 1, member := 0, pc := 0, insn := []
    td := inScratch (tensor 0xD0000000 0x200), ts := inScratch (tensor 0xD0000000 0), ti := 0, dc := [0], sc := [0], box := [512], fn := 0, rm := 0
    sat := false, ge := 0, begun := begun, indexes := [], chunks := 1, done := [], kept := [], waitPage := none, handler := false }
def sCopyOf (e : CopyEntry) : State := { stOf cap1 { kT with q0 := [e], maps := [(0, 0)] } with serial := 1 }

/-- The device line of a line of the scratchpad; distinct lines have distinct ones. -/
def lineT (l : Nat) : Nat := l + (scratchAddr 0 0 0 - scratchWindow) / 64
theorem linesApart (ws : List Run) : LinesApart lineT ws := fun _ _ _ _ _ _ _ _ h => Nat.add_right_cancel h

/-- The byte at a capsule address stands where `lineT` says, and can be read as it stands. -/
def standsAt (s : State) (ca : Nat) : Bool :=
  match s.engAt cap1 0 ca with
  | .at a ext => decide (a = 64 * lineT (ca / 64) + ca % 64 ∧ a < 2 ^ 64) && !s.onPeer a && !s.foreign cap1.bearer.key a &&
      !s.hidden cap1.bearer a && s.resident cap1.bearer a && ext.all fun e => !e.sparse
  | _ => false
theorem stands_of {s : State} (ws : List Run) {rs : List Run}
    (h : (rs.all fun r => (List.range r.2).all fun i => standsAt s (r.1 + i)) = true) : Stands s cap1 0 lineT ws rs := by
  intro r hr i hi
  have h1 := List.all_eq_true.1 (List.all_eq_true.1 h r hr) i (List.mem_range.2 hi)
  unfold standsAt at h1
  split at h1
  · next a ext he =>
    simp only [Bool.and_eq_true, Bool.not_eq_true', decide_eq_true_eq] at h1
    obtain ⟨⟨⟨⟨⟨⟨rfl, h64⟩, hp⟩, hf⟩, hh⟩, hr⟩, hx⟩ := h1
    refine ⟨ext, he, h64, hp, ⟨hf, hh, fun _ => hr⟩, fun e hc hs => ?_⟩
    simp [hc, hs] at hx
  · cases h1

/-- A gather of 4 bytes by the indexes at 0x400. -/
def gathE : CopyEntry := { copyE false with kind := .cgath, ti := inScratch (tensor 0xA0000000 0x400), box := [4] }

/-- A copy begins, and a gather reads its indexes where they stand. -/
theorem test_copyEvents_begin (H : Obligations.CopyEvents) :
    Runs (.engineEntryBegin 0 0) (sCopyOf (copyE false)) ∧
      ∃ t e', exec (.engineEntryBegin 0 0) (sCopyOf gathE) = .next t ∧ e' ∈ (t.core 0).copyQueue 0 ∧
        e'.indexes.getD 3 0 = codeAt (memView (sCopyOf gathE) lineT) (8 * (tBase gathE.ti + 4 * (gathE.ge + 3))) 32 :=
  have head (e : CopyEntry) (h : e.queue = 0) : (sCopyOf e).copyHead? 0 e.queue = some (cap1, e) := by rw [h]; rfl
  ⟨runs_of2 ((H 0 0 cap1 (copyE false) _ (head (copyE false) rfl) (by decide) rfl rfl).1 rfl (by decide +kernel) (by decide +kernel)
     (by decide +kernel) (by decide +kernel) (by decide +kernel)),
   let ⟨t, e', h, hm, _, _, _, _, _, _, _, hc⟩ := (H 0 0 cap1 gathE _ (head gathE rfl) (by decide) rfl rfl).1 rfl (by decide +kernel)
     (by decide +kernel) (by decide +kernel) (by decide +kernel) (by decide +kernel)
   ⟨t, e', h, hm, (hc lineT (stands_of [] (by decide +kernel)) rfl).1 (.inl rfl) 3 (by decide +kernel)⟩⟩

/-- The acknowledgement of a chunk that has been written comes in. -/
theorem test_copyEvents_acknowledged (H : Obligations.CopyEvents) :
    Runs (.copyChunkWrite 0 0 0) (sCopyOf { copyE true with unacked := [0] }) :=
  runs_of ((H 0 0 cap1 { copyE true with unacked := [0] } _ rfl (by decide) rfl rfl).2.1 0 (by decide) (by decide) (by decide +kernel))

/-- Copies of 64 bytes, and the sealing of the first 512 bytes of a scratch area. -/
def smallE : CopyEntry := { copyE true with box := [64, 1, 1, 1, 1, 1, 1] }
def sealE : CopyEntry :=
  { copyE true with kind := .cseal, td := inScratch (tensor 0xD0000000 0x200) + 0x40000000000000000000000000000000000000000000000000#1024,
                    box := [512, 1, 1, 1, 1, 1, 1], chunks := 2 }

/-- A chunk of a COPY leaves its source in its destination, and one of a CSEAL its ciphertext. -/
theorem test_copyEvents_chunk (H : Obligations.CopyEvents) :
    (∃ t, exec (.copyChunkWrite 0 0 0) (sCopyOf smallE) = .next t ∧ ChunkCopied (sCopyOf smallE) t lineT smallE 0) ∧
      ∃ t, exec (.copyChunkWrite 0 0 0) (sCopyOf sealE) = .next t ∧ ChunkSealed (sCopyOf sealE) t lineT cap1 sealE 0 := by
  constructor
  · obtain ⟨t, h, _, _, _, hc⟩ : ∃ t, exec (.copyChunkWrite 0 0 0) (sCopyOf smallE) = .next t ∧ _ ∧ _ ∧ _ ∧ _ := by
      apply (H 0 0 cap1 smallE (sCopyOf smallE) rfl (by decide) rfl rfl).2.2 0
      all_goals decide +kernel
    exact ⟨t, h, (hc lineT rfl rfl (by unfold CopyIssued; decide +kernel) (linesApart _) (stands_of _ (by decide +kernel))).2.1 nofun⟩
  · obtain ⟨t, h, _, _, _, hc⟩ : ∃ t, exec (.copyChunkWrite 0 0 0) (sCopyOf sealE) = .next t ∧ _ ∧ _ ∧ _ ∧ _ := by
      apply (H 0 0 cap1 sealE (sCopyOf sealE) rfl (by decide) rfl rfl).2.2 0
      all_goals decide +kernel
    exact ⟨t, h, ((hc lineT rfl rfl (by unfold CopyIssued; decide +kernel) (linesApart _)
      (stands_of _ (by decide +kernel))).2.2.1 rfl).1⟩

/-- A reduction, a gather and a scatter of the same bytes write their chunk too. -/
theorem test_copyEvents_kinds (H : Obligations.CopyEvents) :
    Runs (.copyChunkWrite 0 0 0) (sCopyOf { smallE with kind := .credc }) ∧
      Runs (.copyChunkWrite 0 0 0) (sCopyOf { smallE with kind := .cgath }) ∧
      Runs (.copyChunkWrite 0 0 0) (sCopyOf { smallE with kind := .cscat }) := by
  refine ⟨?_, ?_, ?_⟩
  · apply runs_of
    apply (H 0 0 cap1 { smallE with kind := .credc } (sCopyOf { smallE with kind := .credc }) rfl (by decide) rfl rfl).2.2 0
    all_goals decide +kernel
  · apply runs_of
    apply (H 0 0 cap1 { smallE with kind := .cgath } (sCopyOf { smallE with kind := .cgath }) rfl (by decide) rfl rfl).2.2 0
    all_goals decide +kernel
  · apply runs_of
    apply (H 0 0 cap1 { smallE with kind := .cscat } (sCopyOf { smallE with kind := .cscat }) rfl (by decide) rfl rfl).2.2 0
    all_goals decide +kernel

/-- An entry of qm on t0 to t3, with what it captured. -/
def qmE (op : QmOp) (f : FmtX) (begun : Bool) : QmEntry :=
  { id := 0, op := op, f := f, slot := 0, slotSerial := 1, member := 0, pc := 0, insn := []
    fmts := [0x08801200, 0x11107200, 0x1160F200, 0xD0000200], t1 := inScratch (SMap.get 0 kT.tensors f.tn.toNat)
    t2 := inScratch (SMap.get 0 kT.tensors f.tn2.toNat), t3 := inScratch (SMap.get 0 kT.tensors f.tn3.toNat)
    g := (List.range 4).map (fun i => ((taskOf []).reg i).toNat), src := 0, role := 0, begun := begun, sentAt := 0, limit := 8
    step := 0, guard := false, seen := false, waitPage := none, handler := false }
def fX : FmtX := ⟨0, 0, 0, 0, 0, 0, 0, 0, 1, 0, 0, 0, 0, 0, 0⟩
def sQm (e : QmEntry) : State := { stOf cap1 { kT with qm := [e] } with serial := 1 }
theorem qmHead (e : QmEntry) : (sQm e).qmHead? 0 = some (cap1, e) := rfl
/-- A multiply of the square t3 by itself into itself. -/
def qMmat (begun : Bool) : QmEntry :=
  { qmE .mmat ⟨0, 0, 2, 0, 0, 0, 0, 12, 2, 3, 3, 3, 0, 0, 0⟩ begun with g := [0, 0, 0, 0x1000100010] }
/-- The square with scales of one block of 16 for each row at 0x800. -/
def squareS : BitVec 1024 := inScratch square
def squareSc : BitVec 1024 :=
  squareS + BitVec.ofNat 1024 ((scratchWindow + 0x800) * 0x10000000000000000) +
    0x200000000000000000000000000000000000000000000000000000000000000000000000000000000000000000000000000000000000000000000000000000000000000000000000000000000000000000000001000000000000000000000000000000000000000000#1024

/-- Entries that are performed: MZERO, TQRY, MMA of f16, MACC, MTRN and MCODE; an MMAT begins and an MMAR sends its fetch. -/
theorem test_matrixEvents (H : Obligations.MatrixEvents) :
    Runs (.qmEntryPerform 0) (sQm (qmE .mzero fX false)) ∧ Runs (.qmEntryPerform 0) (sQm (qmE .tqry fX false)) ∧
      Runs (.qmEntryPerform 0) (sQm (qmE .macc { fX with ad := 1 } false)) ∧
      Runs (.qmEntryPerform 0) (sQm (qmE .mtrn { fX with mb := 1 } false)) ∧
      Runs (.qmEntryPerform 0) (sQm (qmE .mcode fX false)) ∧ Runs (.qmEntryPerform 0) (sQm (qMmat false)) ∧
      Runs (.qmEntryPerform 0) (sQm (qmE .mmar fX false)) := by
  have perform (op : QmOp) (f : FmtX) (h1 : op ≠ .mmat) (h2 : op ≠ .mmar)
      (hq : (sQm (qmE op f false)).qmFree cap1 0 (qmE op f false) = true)
      (hb : ((sQm (qmE op f false)).core 0).badIn ((qmE op f false).reads ((sQm (qmE op f false)).core 0)) = false)
      (hr : (sQm (qmE op f false)).runsExist cap1 0 ((qmE op f false).mrRuns ++ (qmE op f false).mwRuns) = true)
      (hl : (sQm (qmE op f false)).obstacle? cap1 0 false (qmE op f false).mrRuns = none)
      (hs : (sQm (qmE op f false)).obstacle? cap1 0 true (qmE op f false).mwRuns = none) :
      Runs (.qmEntryPerform 0) (sQm (qmE op f false)) :=
    runs_of (((H 0 _ _ _ (qmHead (qmE op f false))).2.1 rfl rfl hq hb).2.2 h1 h2 hr hl hs)
  refine ⟨?_, ?_, ?_, ?_, ?_, ?_, ?_⟩
  iterate 5 (apply perform <;> decide +kernel)
  · exact runs_of2 (((H 0 _ _ _ (qmHead (qMmat false))).2.1 rfl rfl (by decide +kernel) (by decide +kernel)).1 rfl)
  · exact runs_of2 (((H 0 _ _ _ (qmHead (qmE .mmar fX false))).2.1 rfl rfl (by decide +kernel) (by decide +kernel)).2.1 rfl
      (by decide +kernel))

/-- MLD of the square, its scales, and MST of an accumulator into it. -/
def qSquare (op : QmOp) (t : BitVec 1024) : QmEntry := { qmE op fX false with t1 := t }

theorem test_matrixEvents_content (H : Obligations.MatrixEvents) :
    (∃ t, exec (.qmEntryPerform 0) (sQm (qSquare .mld squareS)) = .next t ∧ LoadsTile (memView (sQm (qSquare .mld squareS)) lineT)
      ((sQm (qSquare .mld squareS)).core 0).spaceByte (t.core 0).spaceByte squareS (pairCoords 0 0) (kT.mOff 0)) ∧
    (∃ t, exec (.qmEntryPerform 0) (sQm (qSquare .mldSc squareSc)) = .next t ∧
      LoadsScales (memView (sQm (qSquare .mldSc squareSc)) lineT) ((sQm (qSquare .mldSc squareSc)).core 0).spaceByte
        (t.core 0).spaceByte squareSc (pairCoords 0 0) (kT.vOff 0)) ∧
    ∃ t, exec (.qmEntryPerform 0) (sQm (qSquare .mst squareS)) = .next t ∧ StoresTile (sQm (qSquare .mst squareS)) t lineT
      ((sQm (qSquare .mst squareS)).core 0).spaceByte squareS (pairCoords 0 0) (kT.aOff 0) false false 0 false := by
  have coords (t : BitVec 1024) (n : Nat) (h : (∀ d, d < 7 → (pairCoords 0 0).getD d 0 < tSize t d) ∧ (pairCoords 0 0).getD 0 0 % n = 0) :
    coordsOk t (pairCoords 0 0) n := h
  refine ⟨?_, ?_, ?_⟩
  · obtain ⟨t, h, _, _, _, hc⟩ := ((H 0 _ _ _ (qmHead (qSquare .mld squareS))).2.1 rfl rfl (by decide +kernel) (by decide +kernel)).2.2
      nofun nofun (by decide +kernel) (by decide +kernel) (by decide +kernel)
    exact ⟨t, h, (hc.2.2.2.2.2.2.2.2 lineT rfl rfl (by decide +kernel) (stands_of _ (by decide +kernel))).1 rfl (by decide +kernel)
      (coords _ _ (by decide +kernel))⟩
  · obtain ⟨t, h, _, _, _, hc⟩ := ((H 0 _ _ _ (qmHead (qSquare .mldSc squareSc))).2.1 rfl rfl (by decide +kernel)
      (by decide +kernel)).2.2 nofun nofun (by decide +kernel) (by decide +kernel) (by decide +kernel)
    exact ⟨t, h, (hc.2.2.2.2.2.2.2.2 lineT rfl rfl (by decide +kernel) (stands_of _ (by decide +kernel))).2.1 rfl (by decide +kernel)
      (by decide +kernel) (coords _ _ (by decide +kernel))⟩
  · obtain ⟨t, h, _, _, _, hc⟩ := ((H 0 _ _ _ (qmHead (qSquare .mst squareS))).2.1 rfl rfl (by decide +kernel) (by decide +kernel)).2.2
      nofun nofun (by decide +kernel) (by decide +kernel) (by decide +kernel)
    exact ⟨t, h, (hc.2.2.2.2.2.2.2.2 lineT rfl rfl (by decide +kernel) (stands_of _ (by decide +kernel))).2.2 rfl
      (coords _ _ (by decide +kernel)) (linesApart _) (by decide +kernel)⟩

/-- MMA of two tiles of f16, and MMAS with scales, give the words of R48. -/
theorem test_matrixEvents_multiply (H : Obligations.MatrixEvents) (e : QmEntry)
    (he : e ∈ [qmE .mma { fX with ta := 1, tb := 1 } false, qmE .mmas { fX with ta := 9, tb := 10, mb := 2, vsa := 80, vsb := 81 } false]) :
    ∃ t, exec (.qmEntryPerform 0) (sQm e) = .next t ∧
      Multiplies ((sQm e).core 0) (e.mul ((sQm e).core 0) (e.op == .mmas)) ((sQm e).core 0).spaceByte (t.core 0).spaceByte := by
  simp only [List.mem_cons, List.not_mem_nil, or_false] at he
  rcases he with rfl | rfl
  · obtain ⟨t, h, _, _, _, hc⟩ := ((H 0 _ _ _ (qmHead (qmE .mma { fX with ta := 1, tb := 1 } false))).2.1 rfl rfl (by decide +kernel)
      (by decide +kernel)).2.2 nofun nofun (by decide +kernel) (by decide +kernel) (by decide +kernel)
    exact ⟨t, h, hc.2.2.2.2.1 (.inl rfl) (by unfold EntryTypes; decide +kernel)⟩
  · obtain ⟨t, h, _, _, _, hc⟩ := ((H 0 _ _ _ (qmHead (qmE .mmas { fX with ta := 9, tb := 10, mb := 2, vsa := 80, vsb := 81 }
      false))).2.1 rfl rfl (by decide +kernel) (by decide +kernel)).2.2 nofun nofun (by decide +kernel) (by decide +kernel)
      (by decide +kernel)
    exact ⟨t, h, hc.2.2.2.2.1 (.inr rfl) (by unfold EntryTypes; decide +kernel)⟩

/-- The one step of an MMAT of 16 × 16 × 16, with its content; a store and a last step whose invalidations are complete. -/
theorem test_matrixEvents_steps (H : Obligations.MatrixEvents) :
    (∃ t, exec (.mmatStepComplete 0) (sQm (qMmat true)) = .next t ∧ TileStep (memView (sQm (qMmat true)) lineT)
      ((sQm (qMmat true)).core 0).spaceByte (t.core 0).spaceByte ((sQm (qMmat true)).core 0) (qMmat true)) ∧
    Runs (.qmEntryPerform 0) (sQm { qmE .mst fX true with unacked := true }) ∧
    Runs (.mmatStepComplete 0) (sQm { qMmat true with unacked := true }) := by
  refine ⟨?_, ?_, ?_⟩
  · obtain ⟨t, h, _, _, hc⟩ : ∃ t, exec (.mmatStepComplete 0) (sQm (qMmat true)) = .next t ∧ _ ∧ _ ∧ _ := by
      apply (H 0 _ _ _ (qmHead (qMmat true))).2.2.1 <;> decide +kernel
    exact ⟨t, h, (hc lineT rfl rfl (by unfold EntryBlock; decide +kernel) (linesApart _) (stands_of _ (by decide +kernel))).1⟩
  · exact runs_of (((H 0 _ _ _ (qmHead { qmE .mst fX true with unacked := true })).1 rfl).1 rfl)
  · exact runs_of (((H 0 _ _ _ (qmHead { qMmat true with unacked := true })).1 rfl).2 rfl)

/-- The fetch of an MMAR entry that is under way: 512 bytes of the scratchpad of core 0 to itself, their words full. -/
def qMmar : QmEntry := qmE .mmar { fX with ta := 1, tb := 1 } true
def fetchA (st : AccState) : Access := { accessOf .fetch .mr [] st with size := 512, entry := some 0 }
def fetchR : Access := { fetchA .performed with reply := List.replicate 512 0 }
def sFetch (a : Access) : State :=
  { sQm qMmar with accesses := [a], full := (List.range 64).map fun i => (scratchAddr 0 0 0 / 8 + i, true) }
theorem numberedFetch : Numbered (sFetch (fetchA .sent)) := by unfold Numbered; decide +kernel
theorem numberedReply : Numbered (sFetch fetchR) := by unfold Numbered; decide +kernel

theorem test_matrixEvents_fetch (H : Obligations.MatrixEvents) :
    Runs (.mmarFetchServe 0) (sFetch (fetchA .sent)) ∧
      Runs (.mmarPairLost 0) { sFetch (fetchA .sent) with layers := Vector.replicate 12 ⟨64, 0, none⟩ } ∧
      ∃ t, exec (.mmarDataArrive 0) (sFetch fetchR) = .next t ∧ ∃ b : Bytes,
        Multiplies ((sFetch fetchR).core 0) (qMmar.mul ((sFetch fetchR).core 0) false) b (t.core 0).spaceByte := by
  refine ⟨?_, ?_, ?_⟩
  · apply runs_of2
    apply (H 0 cap1 qMmar (sFetch (fetchA .sent)) rfl).2.2.2.1 (fetchA .sent) 0 numberedFetch <;> decide +kernel
  · exact runs_of (((H 0 cap1 qMmar { sFetch (fetchA .sent) with layers := Vector.replicate 12 ⟨64, 0, none⟩ } rfl).2.2.2.2
      (fetchA .sent) rfl rfl (by decide +kernel) numberedFetch).2 (by decide) (by decide +kernel))
  · obtain ⟨t, h, _, _, _, hm⟩ := ((H 0 cap1 qMmar (sFetch fetchR) rfl).2.2.2.2 fetchR rfl rfl (by decide +kernel) numberedReply).1 rfl
    obtain ⟨b, _, _, hb⟩ := hm (by unfold EntryTypes; decide +kernel) (by decide +kernel)
    exact ⟨t, h, b, hb⟩

end
end

