-- ==== Sys2Proof/Tests/Events.lean ====
section
/-! SUPPORT. Witnesses of the statements about the events of the core, the network, the barriers and the homes. -/

section

set_option Elab.async false

open Sys2Proof
open Sys2Proof.Machine
open Sys2Proof.Tests

/-- A result for g14.p, both words in, and one for a granule of register space. -/
def resRegs : Result :=
  { id := 7, inst := 1, core := 0, slot := 0, slotSerial := 1, dst := .regs 14 2 8 false, parts := [some (leBytes 16 5, true)], grans := []
    dropped := false }
def resSpace : Result :=
  { resRegs with dst := .space [(64, BitVec.allOnes 64)], parts := [some (List.replicate 64 1, true)], grans := [1] }

theorem test_resultWrites (H : Obligations.ResultWrites) :
    Runs (.pendingResultWrite 7) { s0 with results := [resRegs] } ∧ Runs (.pendingResultWrite 7) { s0 with results := [resSpace] } :=
  ⟨runs_of (H.1 7 14 2 8 false true (leBytes 16 5) resRegs _ rfl rfl rfl (by decide) (by decide) (by decide) rfl rfl),
   runs_of (H.2 7 1 (BitVec.allOnes 64) true (List.replicate 64 1) resSpace _ rfl rfl rfl (by decide) rfl)⟩

/-- A performed load and store, an access without a place, and an STL waiting for nothing. -/
def accR : Access := { accessOf .load .r [] .performed with result := some (7, 0) }
def accW : Access := accessOf .store .w (leBytes 8 5) .performed
def sAcc (a : Access) : State := { s0 with accesses := [a], serial := 1 }
def fence0 (lda : Bool) : Fence :=
  { id := 0, inst := 1, core := 0, slot := 0, slotSerial := 1, isLda := lda, scope := 8, succ := 0xFF, ranges := none, waits := []
    entries := [] }

/-- Slot 1's ticket for one place at the head of the line, and a fill of the extent, and of an absent page of a sparse one, under way. -/
def ticket1 : LsuTicket := ⟨1, 2, 1, 0, false⟩
def fillOf (page : Option Nat) : Lookaside := ⟨0, if page.isSome then 2 else 0, page, 0⟩
def extAway : Extent := { ext0 with index := 2, vbase := 0x200000, len := 0x200000, dbase := 0x300000, sparse := true }
def sFill : State := stOf cap1 { k0 with fills := [fillOf none] }
def capAway : Capsule := { cap1 with exts := [ext0, ext1, extAway] }
def sAway : State := stOf capAway { k0 with fills := [fillOf (some 0)] }

theorem test_lsuEvents (H : Obligations.LsuEvents) :
    Runs (.accessReplyArrive 0) (sAcc accR) ∧ Runs (.accessReplyArrive 0) (sAcc accW) ∧
      Runs (.lsuPlaceGrant 0) (sAcc { accW with state := .unplaced }) ∧ Runs (.lsuPlaceGrant 0) sFull ∧
      Runs (.lookasideFill 0 0 0 0) sFill ∧ Runs (.lookasideFill 0 0 2 0) sAway ∧
      Runs (.ldaComplete 0 0) { s0 with fences := [fence0 true] } ∧ Runs (.fenceComplete 0 0) { s0 with fences := [fence0 false] } ∧
      Runs (.stlRelease 0) (sAcc { accW with state := .held, stl := some (8, []) }) :=
  ⟨runs_of (H.1 0 7 0 accR (sAcc accR) rfl rfl (by decide) rfl rfl (by decide +kernel)),
   runs_of (H.2.1 0 accW (sAcc accW) rfl rfl rfl (by decide +kernel)),
   runs_of ((H.2.2.1 0 (sAcc { accW with state := .unplaced })).1 { accW with state := .unplaced } (by decide +kernel)
     (by decide +kernel) nofun),
   runs_of ((H.2.2.1 0 sFull).2 ticket1 (by decide +kernel) (by decide +kernel)
     (fun a h => by rw [show (sFull.unplacedOf 0).head? = none by decide +kernel] at h; cases h)),
   runs_of ((H.2.2.2.1 0 0 0 0 (fillOf none) cap1 ext0 sFill rfl rfl rfl (by decide +kernel) rfl).1 nofun),
   runs_of ((H.2.2.2.1 0 0 2 0 (fillOf (some 0)) capAway extAway sAway rfl (by decide +kernel) (by decide +kernel)
     (by decide +kernel) (by decide +kernel)).2 rfl (by decide +kernel)),
   runs_of ((H.2.2.2.2.1 0 0 (fence0 true) { s0 with fences := [fence0 true] } rfl (by decide +kernel)).1 rfl nofun),
   runs_of ((H.2.2.2.2.1 0 0 (fence0 false) { s0 with fences := [fence0 false] } rfl (by decide +kernel)).2 rfl nofun
     (by decide +kernel)),
   runs_of (H.2.2.2.2.2 0 8 [] { accW with state := .held, stl := some (8, []) } _ rfl rfl nofun)⟩

/-- A message on class 4 and a task, on their way or in the queue of core 0. -/
def pktM (st : PktState) : Packet := packetOf 4 (.message 1 0 [(5, true)]) st
def pktT (st : PktState) : Packet := packetOf 2 (.task (taskOf []) none false) st
def sPkt (p : Packet) (k : Core) : State := { stOf cap1 k with packets := [p], serial := 1 }
theorem arrived0 : Arrived (sPkt (pktM .moving) k0) (pktM .moving) := ⟨rfl, rfl, by decide +kernel, by decide +kernel⟩
def kBusy : Core := { k0 with queue := List.replicate 64 1 }
theorem arrivedBusy : Arrived (sPkt (pktM .moving) kBusy) (pktM .moving) := ⟨rfl, rfl, by decide +kernel, by decide +kernel⟩
def kTicket : Core := { k0 with tickets := [⟨0, true⟩] }
def kQueue : Core := { k0 with queue := [0] }

/-- A full queue behind eight refused departures, with room for one packet in the overflow lane. -/
def kLane : Core := (List.range 8).foldl (fun k n => k.setSlot n { Slot.fresh with state := .ticketed 99, serial := 1 }) kBusy
def capLane : Capsule := { cap1 with hdr := { cap1.hdr with overflow := 192 } }
def sLane : State := { stOf capLane kLane with packets := [pktM .moving], serial := 1 }
theorem arrivedLane : Arrived sLane (pktM .moving) := ⟨rfl, rfl, by decide +kernel, by decide +kernel⟩

/-- The grant of ticket 0 on its way to its holder. -/
def grant0 : Packet := { packetOf 3 (.grant 0) .moving with id := 1 }
def sGrant : State := { stOf cap1 kTicket with packets := [pktM .granted, grant0], serial := 2 }
theorem numberedGrant : Numbered sGrant := by unfold Numbered; decide +kernel

theorem test_networkEvents_queue (H : Obligations.NetworkEvents) :
    Runs (.arrivalQueueEnter 0) (sPkt (pktM .moving) k0) ∧ Runs (.arrivalQueueEnter 0) (sPkt (pktM .moving) kBusy) ∧
      Runs (.arrivalQueueEnter 0) sLane ∧
      Runs (.slotLoad 0 7) (sPkt (pktT .queued) kQueue) ∧ Runs (.grantResend 0) sGrant :=
  ⟨runs_of ((H.1 _ cap1 (sPkt (pktM .moving) k0) arrived0 rfl rfl nofun).1 rfl rfl (by decide +kernel)),
   runs_of ((H.1 _ cap1 (sPkt (pktM .moving) kBusy) arrivedBusy rfl rfl nofun).2.1 (by decide +kernel) (by decide +kernel)
     (by decide +kernel)),
   runs_of ((H.1 _ capLane sLane arrivedLane rfl rfl nofun).2.2 (by decide +kernel) (by decide +kernel) (by decide +kernel)),
   runs_of (H.2.1 0 7 (pktT .queued) (sPkt (pktT .queued) kQueue) (by decide +kernel) rfl (by decide) rfl (by decide +kernel)),
   runs_of (H.2.2.1 (pktM .granted) grant0 cap1 sGrant numberedGrant (by decide +kernel) rfl rfl rfl (by decide +kernel)
     (by decide +kernel) ⟨⟨0, true⟩, by decide +kernel, rfl, rfl⟩ (by decide +kernel) (by decide +kernel))⟩

/-- Layer 0 at CYC 64, 64 cycles after a refusal at 0; a departure to core 0 itself. -/
def at64 (s : State) : State := { s with layers := Vector.replicate 12 ⟨64, 0, none⟩ }
def kLeave : Core := k0.setSlot 0 { k0.slot 0 with state := .departing, depart := some ⟨0, true, 0⟩ }

/-- An access that holds a granted ticket, and its grant. -/
def sGrantA : State := { sAcc { accW with state := .granted } with packets := [grant0], serial := 2 }

theorem test_networkEvents_resend (H : Obligations.NetworkEvents) :
    Runs (.grantResend 0) sGrantA ∧
      Runs (.ticketlessResend 0) (at64 (sAcc { accW with state := .refused 0 })) ∧
      Runs (.ticketlessResend 0) (at64 (sPkt (pktM (.refused 0)) k0)) ∧ Runs (.departureSend 0 0) (stOf cap1 kLeave) :=
  ⟨runs_of ((H.2.2.2.1 0 { accW with state := .granted } sGrantA rfl rfl).1 grant0 rfl (by decide +kernel)),
   runs_of ((H.2.2.2.1 0 { accW with state := .refused 0 } (at64 (sAcc { accW with state := .refused 0 })) rfl rfl).2 0 rfl
     (by decide +kernel)),
   runs_of (H.2.2.2.2.1 (pktM (.refused 0)) 0 (at64 (sPkt (pktM (.refused 0)) k0)) rfl rfl (by decide +kernel) (by decide +kernel)),
   runs_of2 (H.2.2.2.2.2 0 0 0 cap1 (stOf cap1 kLeave) rfl rfl rfl rfl (by decide +kernel) (by decide +kernel) (by decide +kernel)
     (by decide +kernel) (by decide +kernel))⟩

/-- The combining message of role 0 in group 0, a phase complete at CYC 0 on lines, and a wait of LIMIT 64 begun at CYC 0. -/
def pktB : Packet := packetOf 1 (.barrier 0 0 none) .moving
def kMember : Core := { k0 with members := [⟨0, 0, true, false, false, 0, true, false⟩] }
def pktDown : Packet := packetOf 3 (.barrier 0 0 (some 0)) .moving
def kWait : Core := k0.setSlot 0 { k0.slot 0 with state := .blocked (.barrier 0), bar := some ⟨0, 0, 64, none⟩ }
def group0 (shape : Nat) (cores : List Nat) (complete : Option Nat) : Group := ⟨shape, 1, 1, 1, 0, 0, cores, false, complete, [], []⟩
/-- The slot of the child is taken; and the barrier is broken. -/
def groupTaken : Group := { group0 0 [0] none with counted := [(0, 0)] }
def groupBroken : Group := { group0 0 [0] none with broken := true }
def sGroup (g : Group) : State := { stOf { cap1 with groups := [g] } kMember with packets := [pktB], serial := 1 }
def capPhase : Capsule := { cap1 with groups := [group0 0 [0] (some 0)] }
def capTree : Capsule := { capOn [0, 1] with groups := [group0 3 [0, 1] (some 0)] }

theorem test_barrierEvents_messages (H : Obligations.BarrierEvents) :
    Runs (.barrierLineArrival 0) (sPkt pktB kMember) ∧ Runs (.barrierLineArrival 0) (sGroup groupTaken) ∧
      Runs (.barrierLineArrival 0) (sGroup groupBroken) ∧ Runs (.barrierLineArrival 0) (sPkt pktDown kMember) :=
  have arrived (g : Group) : Arrived (sGroup g) pktB := ⟨rfl, rfl, rfl, rfl⟩
  let m : Membership := ⟨0, 0, true, false, false, 0, true, false⟩
  ⟨runs_of3 ((H.1 pktB 0 0 cap1 (group0 0 [0] none) m (sPkt pktB kMember) ⟨rfl, rfl, by decide +kernel, by decide +kernel⟩ rfl
     (by decide) rfl (by decide +kernel)).1 rfl rfl rfl),
   runs_of3 ((H.1 pktB 0 0 { cap1 with groups := [groupTaken] } groupTaken m (sGroup groupTaken) (arrived _) rfl (by decide) rfl
     rfl).2.1 rfl rfl rfl (by decide)),
   runs_of ((H.1 pktB 0 0 { cap1 with groups := [groupBroken] } groupBroken m (sGroup groupBroken) (arrived _) rfl (by decide) rfl
     rfl).2.2.1 none rfl rfl),
   runs_of ((H.1 pktDown 0 0 cap1 (group0 0 [0] none) m (sPkt pktDown kMember) ⟨rfl, rfl, by decide +kernel, by decide +kernel⟩ rfl
     (by decide) rfl (by decide +kernel)).2.2.2 0 rfl rfl rfl (by decide +kernel))⟩

theorem test_barrierEvents_phases (H : Obligations.BarrierEvents) :
    Runs (.barrierPhaseComplete 1 0) (at64 (stOf capPhase kMember)) ∧ Runs (.barrierPhaseComplete 1 0) (stOf capTree kMember) ∧
      Runs (.barrierTimeout 0 0) (at64 (stOf cap1 kWait)) :=
  ⟨runs_of ((H.2.1 1 0 0 0 capPhase (group0 0 [0] (some 0)) (at64 (stOf capPhase kMember)) rfl rfl rfl rfl rfl).1 (by decide +kernel)
     (by decide +kernel) (by decide)),
   runs_of ((H.2.1 1 0 0 0 capTree (group0 3 [0, 1] (some 0)) (stOf capTree kMember) rfl rfl rfl rfl rfl).2 (by decide +kernel)),
   runs_of (H.2.2 0 0 ⟨0, 0, 64, none⟩ cap1 _ rfl rfl rfl (by decide) (by decide +kernel))⟩

/-- The word at the start of the scratchpad, full or empty, and an access that has reached it. -/
def sHome (op : AccOp) (full : Bool) : State :=
  { sAcc (accessOf op .f (leBytes 8 5) .sent) with full := if full then [(scratchAddr 0 0 0 / 8, true)] else [] }
theorem atHome (op : AccOp) (full : Bool) (h : op ∈ [AccOp.load, .store, .ldf, .stf, .ldfe, .amo 0]) :
    AtHome (sHome op full) (accessOf op .f (leBytes 8 5) .sent) := by
  cases full <;> simp only [List.mem_cons, List.not_mem_nil, or_false] at h <;> rcases h with rfl | rfl | rfl | rfl | rfl | rfl <;>
    refine ⟨rfl, rfl, ?_⟩ <;> decide +kernel
theorem invHome (op : AccOp) (full : Bool) : Inv (sHome op full) := rfl

theorem test_homePerforms (H : Obligations.HomePerforms) :
    Runs (.homeAccessPerform 0) (sHome .load false) ∧ Runs (.homeAccessPerform 0) (sHome .store false) ∧
      Runs (.homeAccessPerform 0) (sHome .ldf true) ∧ Runs (.homeAccessPerform 0) (sHome .ldf false) ∧
      Runs (.homeAccessPerform 0) (sHome .stf false) ∧ Runs (.homeAccessPerform 0) (sHome .ldfe true) ∧
      Runs (.homeAccessPerform 0) (sHome (.amo 0) false) := by
  have at_ (op : AccOp) (full : Bool) (h : op ∈ [AccOp.load, .store, .ldf, .stf, .ldfe, .amo 0]) :=
    H.1 _ _ (atHome op full h) (invHome op full)
  refine ⟨?_, ?_, ?_, ?_, ?_, ?_, ?_⟩ <;> apply runs_of
  · exact (at_ .load false (by decide) (by decide)).1 rfl (by decide +kernel)
  · exact (at_ .store false (by decide) (by decide)).2.1 (.inl rfl) rfl rfl (by decide +kernel) (.inl (by decide +kernel))
  · apply (at_ .ldf true (by decide) (by decide)).2.2.1 rfl <;> decide +kernel
  · apply (at_ .ldf false (by decide) (by decide)).2.2.2.1 0 rfl <;> decide +kernel
  · apply (at_ .stf false (by decide) (by decide)).2.2.2.2.1 rfl <;> decide +kernel
  · apply (at_ .ldfe true (by decide) (by decide)).2.2.2.2.2.1 rfl <;> decide +kernel
  · apply (at_ (.amo 0) false (by decide) (by decide)).2.2.2.2.2.2 0 rfl <;> decide +kernel

/-- Layer 11 at the first cycle of a window, and one cycle past its end with bank 0 busy. -/
def sLayer (pos : Nat) (busy : Option Nat) : State := { s0 with layers := Vector.replicate 12 ⟨0, pos, busy⟩ }

theorem test_homePerforms_refresh (H : Obligations.HomePerforms) :
    Runs (.wsRefreshStart 11) (sLayer 0 none) ∧ Runs (.wsRefreshEnd 11) (sLayer 3040 (some 0)) :=
  ⟨runs_of ((H.2 11 _ (by decide)).1 (by decide +kernel) (by decide +kernel)),
   runs_of ((H.2 11 _ (by decide)).2 0 (by decide +kernel) (.inr (by decide +kernel)))⟩

end
end

