-- ==== Sys2Proof/Tests/Faults.lean ====
section
/-! SUPPORT. Witnesses of the statements about faults and pages. -/

section

set_option Elab.async false

open Sys2Proof
open Sys2Proof.Machine
open Sys2Proof.Tests

/-- A task past the end of the code, a record of its fault, and the slot held under SEQ 7. -/
def kEnd : Core := coreOf { taskOf [] with pc := 64 }
def rec0 : FaultRec := { info := ⟨1, 1, 0, 0, false⟩, member := 0, disp := 0, role := 0, slot := 0, layer := 0, pc := 0, insn := [], cyc := 0
                         frame := none, handler := false }
def hold0 : Hold := { record := rec0, len := 8, sent := true, seq := some 7 }
def kHeld : Core := k0.setSlot 0 { k0.slot 0 with state := .held, hold := some hold0 }
def pktF : Packet := packetOf 3 (.fault rec0 false) .moving
def sFault (p : Packet) (k : Core) : State := { stOf cap1 k with packets := [p], serial := 1 }
def pktR (action target : Nat) : Packet :=
  packetOf 3 (.resume [(BitVec.ofNat 64 (7 + action * 2 ^ 32), false), (BitVec.ofNat 64 target, false), (0, false)]) .moving
theorem arrivedF (k : Core) (h : (sFault pktF k).packetParked pktF = false ∧ (sFault pktF k).packetOvertakes pktF = false) :
    Arrived (sFault pktF k) pktF := ⟨rfl, rfl, h.1, h.2⟩
theorem arrivedR (a t : Nat) (h : (sFault (pktR a t) kHeld).packetParked (pktR a t) = false ∧
    (sFault (pktR a t) kHeld).packetOvertakes (pktR a t) = false) : Arrived (sFault (pktR a t) kHeld) (pktR a t) := ⟨rfl, rfl, h.1, h.2⟩

/-- A word with a set switch marker that encodes nothing, and a task with a result outstanding. -/
def capMarked : Capsule := { cap1 with code := leBytes 4 4 ++ List.replicate 60 0 }
def kMarked : Core := k0.setSlot 0 { k0.slot 0 with pend := 1 }

theorem test_faultEvents (H : Obligations.FaultEvents) :
    Runs (.encodingFault 3 0) s0 ∧ Runs (.encodingFault 3 0) (stOf capMarked kMarked) ∧ Runs .sequentialFlowPastCodelen (stOf cap1 kEnd) ∧ Runs (.instructionStoreFill 0 1) s0 ∧
      Runs (.faultPacketHandle 0) (sFault pktF k0) :=
  ⟨runs_of ((H.1 s0 cap1 ⟨3, 0⟩ rfl).1 rfl (fun _ => rfl)),
   runs_of ((H.1 (stOf capMarked kMarked) capMarked ⟨3, 0⟩ rfl).2.1 rfl rfl rfl),
   runs_of ((H.1 (stOf cap1 kEnd) cap1 ⟨1, 0⟩ rfl).2.2 rfl),
   runs_of (H.2.1 0 1 cap1 s0 rfl (by decide) rfl),
   runs_of2 (H.2.2.1 pktF rec0 false cap1 (sFault pktF k0) (arrivedF k0 (by decide +kernel)) rfl rfl)⟩

theorem test_faultEvents_resume (H : Obligations.FaultEvents) :
    Runs (.resumePacketApply 0) (sFault (pktR 0 0) kHeld) ∧ Runs (.resumePacketApply 0) (sFault (pktR 1 0) kHeld) ∧
      Runs (.resumePacketApply 0) (sFault (pktR 2 32) kHeld) ∧ Runs (.resumePacketApply 0) (sFault (pktR 3 0) kHeld) ∧
      Runs (.resumePacketApply 0) (sFault (pktR 4 0) kHeld) :=
  have q (a t : Nat) (h : Arrived (sFault (pktR a t) kHeld) (pktR a t)) :=
    H.2.2.2 (pktR a t) [(BitVec.ofNat 64 (7 + a * 2 ^ 32), false), (BitVec.ofNat 64 t, false), (0, false)] cap1 0 hold0
      (sFault (pktR a t) kHeld) h rfl rfl (by decide)
  ⟨runs_of ((q 0 0 (arrivedR 0 0 (by decide +kernel)) (by decide +kernel) rfl).1 (by decide +kernel)),
   runs_of ((q 1 0 (arrivedR 1 0 (by decide +kernel)) (by decide +kernel) rfl).2.1 (by decide +kernel) (by decide)),
   runs_of ((q 2 32 (arrivedR 2 32 (by decide +kernel)) (by decide +kernel) rfl).2.2.1 (by decide +kernel)
     (by unfold ValidTarget; decide +kernel)),
   runs_of ((q 3 0 (arrivedR 3 0 (by decide +kernel)) (by decide +kernel) rfl).2.2.2.1 (by decide +kernel)),
   runs_of2 ((q 4 0 (arrivedR 4 0 (by decide +kernel)) (by decide +kernel) rfl).2.2.2.2 (by decide +kernel))⟩

/-- A sparse extent of one page whose vector is at 0x300000, entry 0 naming the page at 0x400000; the store of an entry. -/
def extS : Extent := { ext0 with index := 2, vbase := 0x200000, len := 0x200000, dbase := 0x300000, sparse := true }
def capS : Capsule := { cap1 with exts := [ext0, ext1, extS] }
def accE (new : Nat) : Access := { accessOf .store .w (leBytes 8 new) .sent with ca := 0x800, addr := 0x300000, ext := some 0 }
def sPage (old new : Nat) : State :=
  { stOf capS k0 with
    mem := (if old = 1 then [⟨0x300000, 1⟩] else []) ++ [⟨0x300002, 0x40⟩], accesses := [accE new], serial := 1 }

theorem test_pageEvents (H : Obligations.PageEvents) :
    Runs (.pageEviction 0) (sPage 1 0x400000) ∧ Runs (.pageReturn 0) (sPage 0 0x400001) := by
  have base (old new : Nat) (hi : Inv (sPage old new)) (hv : (sPage old new).vectorStore? (accE new) = some (capS, extS, 0, 0x400000 + old, new))
      (ho : ((sPage old new).capOf? (accE new)).isSome = true ∧ (sPage old new).storeArrived (accE new) = true ∧
        (accE new).stored = true ∧ (accE new).data.length = 8)
      (he : (sPage old new).memError? ((sPage old new).bearer 1) ((sPage old new).homeNow (accE new)) ((sPage old new).placeOf (accE new)) 8
        false = none ∧ (sPage old new).recordError? capS.bearer extS 0 = none) :=
    H (accE new) extS 0 _ new capS (sPage old new) rfl hi hv rfl ho.1 ho.2.1 ho.2.2.1 ho.2.2.2 he.1 he.2
  constructor
  · exact runs_of ((base 1 0x400000 (by unfold Sys2Proof.Inv; decide) (by decide +kernel) (by decide +kernel) (by decide +kernel)).1
      (by decide +kernel) (by decide +kernel) (by decide +kernel) (by decide +kernel))
  · exact runs_of (((base 0 0x400001 (by unfold Sys2Proof.Inv; decide) (by decide +kernel) (by decide +kernel) (by decide +kernel)).2
      (by decide +kernel) (by decide +kernel)).1 (by decide +kernel))

end
end

