-- ==== Sys2Proof/Tests/Plaza.lean ====
section
/-! SUPPORT. Witnesses of the statements about launches, children and completion. -/

section

set_option Elab.async false

open Sys2Proof
open Sys2Proof.Machine
open Sys2Proof.Tests

/-- The Plaza after bring-up, with queue 3 of one slot posted, or a child of priority 0 queued. -/
def queue3 : Queue := ⟨true, false, 0, 1, 0x8000, 0, 1, true⟩
def sReady : State := { s0 with host := { s0.host with ready := true } }
def sQueue (v : Option Serve) : State :=
  { sReady with plaza := { s0.plaza with queues := [(3, queue3)], runLists := [(0, [3])], serving := v } }
def sChild : State := { sReady with plaza := { s0.plaza with posts := [post0], serving := some (.child 0) } }

theorem test_launchEvents_take (H : Obligations.LaunchEvents) :
    Runs .walkerServe (sQueue none) ∧ Runs .capsuleTake (sQueue (some (.queue 3))) ∧ Runs .capsuleTake sChild :=
  ⟨runs_of (H.1 0 (.queue 3) (sQueue none) (by decide +kernel) rfl (by decide +kernel) (by decide +kernel)),
   runs_of ((H.2.1 3 _ _ (sQueue (some (.queue 3))) _ rfl (by decide +kernel) (by decide +kernel) rfl).2.1 rfl
     (by decide +kernel)),
   runs_of2 (H.2.2.1 0 post0 sChild rfl (by decide +kernel) (by decide +kernel) (by decide +kernel))⟩

/-- A taken launch, its code at 0x4000 (64 bytes of zeros), under the identity given; and the same being placed. -/
def capT (id : List Byte) (codelen : Nat) : Capsule :=
  { cap1 with inst := 2, stage := .taken, hdr := { cap1.hdr with codeid := id, codelen := codelen, codeaddr := 0x4000 } }
def sTaken (cap : Capsule) (cache : List (List Byte × List Byte)) : State :=
  { sReady with capsules := [cap], cores := [], plaza := { s0.plaza with idCache := cache } }
def zeroId : List Byte := sha3_512 (List.replicate 64 0)

/-- Its code lies past the end of HBM. -/
def capFar : Capsule := { capT [1] 64 with hdr := { (capT [1] 64).hdr with codeaddr := 0xC000000000 } }

theorem test_launchEvents_code (H : Obligations.LaunchEvents) :
    Runs (.codeImageVerify 2) (sTaken (capT [1] 64) [([1], [])]) ∧ Runs (.codeImageVerify 2) (sTaken (capT zeroId 64) []) ∧
      Runs (.codeImageVerify 2) (sTaken (capT [1] 64) []) ∧ Runs (.codeImageVerify 2) (sTaken (capT [1] 0) []) ∧
      Runs (.codeImageVerify 2) (sTaken capFar []) :=
  ⟨runs_of ((H.2.2.2.1 2 (capT [1] 64) (sTaken (capT [1] 64) [([1], [])]) rfl rfl).1 [1] [] (by decide +kernel) rfl),
   runs_of (((H.2.2.2.1 2 (capT zeroId 64) (sTaken (capT zeroId 64) []) rfl rfl).2.1 _ _ (by decide +kernel) rfl
     (Option.some_get (x := (sTaken (capT zeroId 64) []).readCode (capT zeroId 64)) (by decide +kernel)).symm).1 (by decide +kernel)),
   runs_of (((H.2.2.2.1 2 (capT [1] 64) (sTaken (capT [1] 64) []) rfl rfl).2.1 _ _ (by decide +kernel) rfl
     (Option.some_get (x := (sTaken (capT [1] 64) []).readCode (capT [1] 64)) (by decide +kernel)).symm).2 (by decide +kernel)),
   runs_of ((H.2.2.2.1 2 (capT [1] 0) (sTaken (capT [1] 0) []) rfl rfl).2.2.1 (by decide +kernel)),
   runs_of ((H.2.2.2.1 2 capFar (sTaken capFar []) rfl rfl).2.2.2 rfl (by decide +kernel))⟩

/-- A launch being placed; one that asks for two members of a one-member group; every dispatcher ready; and one that waits for its
operating point. -/
def capG (ready : List (Nat × List Nat)) : Capsule := { capT [1] 64 with stage := .placing ready }
def capNone : Capsule := { capG [] with hdr := { (capG []).hdr with part := [2, 0, 0, 0, 0, 0] } }
/-- A reservation from which no placement can be completed any more. -/
def capGive : Capsule := { capG [(0, [])] with hdr := { (capG []).hdr with part := [1, 0, 0, 0, 0, 0] } }
def allReady : List (Nat × List Nat) := [(0, [0]), (1, []), (2, []), (3, []), (4, []), (5, [])]
def capW : Capsule := { capG allReady with stage := .pointWait allReady }
def slow (s : State) : State := { s with host := { s.host with opctl := 0xFFF, opdef := #v[600, 600, 600, 1900] } }
def fast (s : State) : State := { s with host := { s.host with opctl := 0 } }

theorem test_launchEvents_reserve (H : Obligations.LaunchEvents) :
    Runs (.gangReserve 2 0 [0]) (sTaken (capG []) []) ∧ Runs (.gangReserve 2 0 [0]) (sTaken capNone []) ∧
      Runs (.gangReserve 2 0 [0]) (sTaken capGive []) :=
  ⟨runs_of2 ((H.2.2.2.2 2 0 [0] [] (capG []) (sTaken (capG []) []) rfl rfl).2.1 (by decide +kernel) (by decide +kernel) rfl
     (by decide +kernel) (by decide +kernel)),
   runs_of ((H.2.2.2.2 2 0 [0] [] capNone (sTaken capNone []) rfl rfl).1 (by decide +kernel)),
   runs_of2 ((H.2.2.2.2 2 0 [0] [(0, [])] capGive (sTaken capGive []) rfl rfl).2.2 (by decide +kernel) (by decide +kernel)
     (by decide +kernel) (by decide) (by decide +kernel))⟩

theorem test_commitEvents (H : Obligations.CommitEvents) :
    Runs (.gangCommit 2) (fast (sTaken (capG allReady) [])) ∧ Runs (.gangCommit 2) (slow (sTaken (capG allReady) [])) ∧
      Runs (.operatingPointReached 2) (slow (sTaken capW [])) :=
  ⟨runs_of ((H 2 allReady _ (capG allReady) (fast (sTaken (capG allReady) [])) rfl
     (Option.some_get (by decide +kernel)).symm (by decide +kernel) rfl (by decide +kernel) (by decide +kernel) (by decide +kernel)).1 rfl
     (by decide +kernel)),
   runs_of2 ((H 2 allReady _ (capG allReady) (slow (sTaken (capG allReady) [])) rfl
     (Option.some_get (by decide +kernel)).symm (by decide +kernel) rfl (by decide +kernel) (by decide +kernel) (by decide +kernel)).2.1 rfl
     (by decide +kernel)),
   runs_of ((H 2 allReady _ capW (slow (sTaken capW [])) rfl
     (Option.some_get (by decide +kernel)).symm (by decide +kernel) rfl (by decide +kernel) (by decide +kernel) (by decide +kernel)).2.2 rfl)⟩

/-- A template at 0x40, that is at 0x100040 of HBM, with the bytes given, and the post that names it, of a capsule whose extent 0 is unguarded. -/
def capU : Capsule := { cap1 with exts := [{ ext0 with guard := false }, ext1] }
def postT : Post := { post0 with queued := false, image := [] }
def sTemplate (b : List Byte) : State :=
  { stOf capU k0 with
    mem := ((b.zipIdx).filter fun e => e.1 != 0).map fun e => ⟨0x100040 + e.2, e.1⟩
    hbmKeys := (List.range 7).map fun i => (0x100040 / 64 + i, 3 * 2 ^ 13)
    plaza := { s0.plaza with posts := [postT] } }

theorem test_chainEvents (H : Obligations.ChainEvents) :
    Runs (.childQueue 0) (sTemplate (image0 ++ List.replicate 32 0)) ∧ Runs (.childQueue 0) (sTemplate []) :=
  ⟨runs_of2 ((H.1 0 postT capU (sTemplate (image0 ++ List.replicate 32 0)) rfl rfl rfl rfl rfl rfl nofun (by decide +kernel)).1
     (by decide +kernel)),
   runs_of ((H.1 0 postT capU (sTemplate []) rfl rfl rfl rfl rfl rfl nofun (by decide +kernel)).2 1 0x40 (by decide +kernel))⟩

/-- The capability of extent 1 on its way from core 0 to itself. -/
def move0 : CapMove := { id := 0, inst := 1, member := 0, ext := 1, fromCore := 0, toCore := 0, waits := [] }

theorem test_chainEvents_capability (H : Obligations.ChainEvents) : Runs (.capabilityArrive 0) { s0 with capMoves := [move0] } :=
  runs_of2 (H.2 0 move0 cap1 { s0 with capMoves := [move0] } rfl rfl rfl rfl rfl nofun)

/-- A capsule whose DONE has reached the Plaza, one that is complete but for its record, and a due message. -/
def capEnd : Capsule := { cap1 with endReqs := [0] }
def capLast : Capsule := { cap1 with stage := .completing }

theorem test_completionEvents (H : Obligations.CompletionEvents) :
    Runs (.capsuleComplete 1) (stOf capEnd k0) ∧ Runs (.completionRecordWrite 1) (stOf capLast k0) ∧
      Runs (.msixSend 5) { s0 with plaza := { s0.plaza with msixDue := [5] } } :=
  ⟨runs_of2 (H.1 1 0 [] capEnd (stOf capEnd k0) rfl rfl nofun (by decide +kernel)),
   runs_of (H.2.1 1 capLast (stOf capLast k0) rfl rfl (by decide +kernel) rfl),
   runs_of (H.2.2 5 { s0 with plaza := { s0.plaza with msixDue := [5] } } (by decide) (by decide))⟩

end
end

