-- ==== Sys2Proof/Tests/Hosts.lean ====
section
/-! SUPPORT. Witnesses of the statements about the host registers, inbound requests and links. -/

section

set_option Elab.async false

open Sys2Proof
open Sys2Proof.Machine
open Sys2Proof.Tests

/-- Queue 3 enabled and disabled; a post number of 7 for it. -/
def word7 : Nat := 3 + 7 * 2 ^ 64

theorem test_queueRegisters (H : Obligations.QueueRegisters) :
    Runs (.submit 0 3 16 word7) (sQueue none) ∧ Runs (.submit 0 3 8 word7) (sQueue none) ∧ Runs (.qcfgEnable 3 0x80000010) sReady ∧
      Runs (.qcfgEnable 3 0x80000011) sReady ∧ Runs (.qcfgDisable 3) (sQueue none) :=
  ⟨runs_of (((H 3 (sQueue none) ⟨rfl, rfl⟩ (by decide)).1 0 16 word7 nofun).1 rfl (by decide) rfl (by decide)),
   ⟨_, ((H 3 (sQueue none) ⟨rfl, rfl⟩ (by decide)).1 0 8 word7 nofun).2 (.inl (by decide))⟩,
   runs_of (((H 3 sReady ⟨rfl, rfl⟩ (by decide)).2.1 0x80000010 rfl (by decide)).1 (by decide) (by decide)),
   ⟨_, ((H 3 sReady ⟨rfl, rfl⟩ (by decide)).2.1 0x80000011 rfl (by decide)).2 (.inr (by decide))⟩,
   runs_of ((H 3 (sQueue none) ⟨rfl, rfl⟩ (by decide)).2.2 rfl)⟩

/-- A change of the host registers of a package that is ready. -/
def hostOf (f : HostRegs → HostRegs) : State := { s0 with host := f { s0.host with ready := true } }
def win0 (en : Bool) : State := hostOf fun h => { h with windows := [(63, ⟨0x200000, 0x200000, 0, en, false, []⟩)] }

theorem test_hostRegisters_windows (H : Obligations.HostRegisters) :
    Runs (.windowEnable 63) (win0 false) ∧ Runs (.windowEnable 62) (win0 false) ∧ Runs (.windowDisable 63) (win0 true) ∧
      Runs (.lockSet 0x1FFFF) (win0 false) ∧
      Runs (.lockWalkerCheck 1) (hostOf fun h => { h with lock := 2, digests := [(1, [1])] }) := by
  obtain ⟨w, l, c, -⟩ := H
  exact ⟨runs_of (((w 63 (win0 false) ⟨rfl, rfl⟩ (by decide)).1 rfl rfl).1
      ⟨by decide, by decide, by decide, by decide, by decide, .inl rfl⟩ (.inl rfl)),
   runs_of (((w 62 (win0 false) ⟨rfl, rfl⟩ (by decide)).1 rfl rfl).2 (.inl fun h => h.1 rfl)),
   runs_of ((w 63 (win0 true) ⟨rfl, rfl⟩ (by decide)).2 rfl), runs_of (l 0x1FFFF (win0 false) ⟨rfl, rfl⟩),
   runs_of (c 1 (hostOf fun h => { h with lock := 2, digests := [(1, [1])] }) (by decide) rfl rfl
     (fun h => absurd (congrArg List.length h) (by decide +kernel)))⟩

/-- A package of a fabric of two, its Onazal link enabled on port 17 or not. -/
def onz (ctl : Nat) (up : Bool) : State :=
  hostOf fun h => { h with onzId := 2 * 2 ^ 32, onzCtl := ctl, onzPorts := Vector.replicate 18 ⟨up, 0, 0⟩ }
def port17 : Nat := 1 + 2 ^ 25

theorem test_hostRegisters_link (H : Obligations.HostRegisters) :
    Runs (.onazalEnable port17) (onz 0 false) ∧ Runs (.onazalPortEnable port17) (onz 1 false) ∧
      Runs (.onazalPortTrained 17 8) (onz port17 false) ∧ Runs .pwrctlRun sReady ∧ Runs .pwrctlIdle sReady ∧
      Runs .pwrctlGated sReady := by
  obtain ⟨-, -, -, e, p, r, -⟩ := H
  exact ⟨runs_of ((e port17 (onz 0 false) ⟨rfl, rfl⟩ (by decide) rfl (by decide) (by decide) (by decide)).1 rfl),
   runs_of ((e port17 (onz 1 false) ⟨rfl, rfl⟩ (by decide) rfl (by decide) (by decide) (by decide)).2 rfl),
   runs_of (p 17 8 (onz port17 false) (by decide) (by decide) (by decide) rfl rfl (by decide) rfl),
   runs_of (r 0 _ sReady ⟨rfl, rfl⟩ (.inl ⟨rfl, rfl⟩)), runs_of (r 1 _ sReady ⟨rfl, rfl⟩ (.inr (.inl ⟨rfl, rfl⟩))),
   runs_of (r 2 _ sReady ⟨rfl, rfl⟩ (.inr (.inr ⟨rfl, rfl⟩)))⟩

/-- A package that nothing runs on, with a change of its host registers. -/
def bare (f : HostRegs → HostRegs) : State := { State.reset with host := f { State.reset.host with ready := true } }
def power (n : Nat) : State := bare fun h => { h with pwrctl := n, pwrPending := true }

theorem test_hostRegisters_power (H : Obligations.HostRegisters) :
    Runs .powerStateEnter (power 0) ∧ Runs .powerStateEnter (power 1) ∧ Runs .powerStateEnter (power 2) ∧
      Runs .wakeSequenceComplete (bare fun h => { h with waking := true }) := by
  obtain ⟨-, -, -, -, -, -, p, w, -⟩ := H
  exact ⟨runs_of ((p (power 0) rfl rfl rfl).1 rfl), runs_of ((p (power 1) rfl rfl rfl).2.1 rfl nofun), runs_of ((p (power 2) rfl rfl rfl).2.2 rfl nofun),
    runs_of (w (bare fun h => { h with waking := true }) rfl)⟩

theorem test_hostRegisters_lysgeza (H : Obligations.HostRegisters) :
    Runs .mailboxEvidence (bare fun h => { h with mbCode := 1 }) ∧ Runs .mailboxOwnerKey (bare fun h => { h with mbCode := 2 }) ∧
      Runs (.killctlGo 1) sReady ∧ Runs (.killctlGo 9) sReady ∧ Runs (.registerWrite 0 5) sReady ∧
      Runs (.registerWrite 0x10 5) sReady ∧ Runs (.registerWrite 0x13FE0 64) sReady ∧ Runs .bringUp State.reset ∧
      Runs .bringUp { State.reset with host := { HostRegs.reset with minVersion := 1 } } := by
  obtain ⟨-, -, -, -, -, -, -, -, m, k, r, b⟩ := H
  exact ⟨runs_of ((m (bare fun h => { h with mbCode := 1 })).1 rfl), runs_of ((m (bare fun h => { h with mbCode := 2 })).2 rfl),
   runs_of2 ((k 1 sReady ⟨rfl, rfl⟩ (by decide) rfl).1 cap1 rfl rfl), runs_of ((k 9 sReady ⟨rfl, rfl⟩ (by decide) rfl).2 nofun),
   ⟨_, (r 5 sReady ⟨rfl, rfl⟩ (by decide)).1⟩, runs_of (r 5 sReady ⟨rfl, rfl⟩ (by decide)).2.1,
   runs_of ((r 64 sReady ⟨rfl, rfl⟩ (by decide)).2.2 255 (by decide) rfl (by decide) (by decide)),
   runs_of ((b State.reset rfl rfl).1 Blob.plain rfl),
   runs_of ((b { State.reset with host := { HostRegs.reset with minVersion := 1 } } rfl rfl).2 rfl)⟩

/-- A write of requester 5 with a waiting piece; a link with a flit replayed 8 times, and the capsule with a packet on it. -/
def piece0 : LinePiece := { id := 0, index := 0, addr := 0x200000, size := 1, data := [1], state := .waiting, order := 0, failed := false }
def write0 : Inbound := { seq := 0, rid := 5, owner := 0, read := false, addr := 0x200000, pieces := [piece0] }
def failing : State := { s0 with host := { s0.host with replays := [(17, 0, 8)] }, packets := [packetOf 4 (.message 1 0 []) .moving], serial := 1 }

theorem test_inboundAndLinks (H : Obligations.InboundAndLinks) :
    Runs (.inboundWrite 5 2 0x3FFFFF [1]) (win0 true) ∧ Runs (.inboundWrite 5 2 0x400000 [1]) (win0 true) ∧
      Runs (.inboundPieceSend 0 0) (hostOf fun h => { h with inbound := [write0] }) ∧ Runs (.inboundRead 5 2 0x3FFFFF 1) (win0 true) ∧
      Runs (.inboundRead 5 2 0x400000 1) (win0 true) ∧ Runs (.inboundRead 5 0 0xFFFF8 8) (win0 true) ∧
      Runs (.inboundRead 5 0 0 8) (hostOf fun h => { h with pcieCfg := [(0x44, 3)] }) ∧
      Runs (.remoteRequestArrive (7 + 2 ^ 128) 0x3F 1 []) (onz port17 true) ∧
      Runs (.remoteRequestArrive (7 + 2 * 2 ^ 64 + 2 ^ 128) 0x38 8 (leBytes 8 1)) (onz port17 true) := by
  obtain ⟨w, p, r, d, q, -⟩ := H
  exact ⟨runs_of2 ((w 5 0x3FFFFF [1] (win0 true) ⟨rfl, rfl⟩ (by decide) (by decide) rfl (by decide)).1 _ rfl),
   runs_of ((w 5 0x400000 [1] (win0 true) ⟨rfl, rfl⟩ (by decide) (by decide) rfl (by decide)).2 rfl),
   runs_of3 (p 0 0 write0 piece0 (hostOf fun h => { h with inbound := [write0] }) rfl rfl rfl (by decide +kernel)),
   runs_of2 ((r 5 0x3FFFFF 1 (win0 true) ⟨rfl, rfl⟩ (by decide) rfl nofun).1 _ rfl),
   runs_of ((r 5 0x400000 1 (win0 true) ⟨rfl, rfl⟩ (by decide) rfl nofun).2.1 rfl),
   runs_of2 ((r 5 0xFFFF8 8 (win0 true) ⟨rfl, rfl⟩ (by decide) rfl nofun).2.2 (by decide) (by decide)),
   runs_of (d 5 0 0 8 (hostOf fun h => { h with pcieCfg := [(0x44, 3)] }) rfl (by decide +kernel)),
   runs_of2 (q (7 + 2 ^ 128) 0x3F 1 [] .load (onz port17 true) rfl (by decide +kernel) (by decide +kernel) (by decide +kernel) (by decide)
     (by decide) rfl (by decide +kernel) (by decide)),
   runs_of2 (q (7 + 2 * 2 ^ 64 + 2 ^ 128) 0x38 8 (leBytes 8 1) (.atomic (.amo 0)) (onz port17 true) rfl (by decide +kernel)
     (by decide +kernel) (by decide +kernel) (by decide) (by decide) rfl (by decide +kernel) (by decide))⟩

theorem test_inboundAndLinks_errors (H : Obligations.InboundAndLinks) :
    Runs (.linkCrcReplay 17 0) s0 ∧ Runs (.linkCrcReplay 18 0) s0 ∧ Runs (.linkRetrain 17 0 [1]) failing ∧ Runs (.scrubPass 8 0 1) s0 ∧ Runs (.scrubPass 1 0 2) s0 ∧
      Runs (.scrubPass 2 511 2) s0 ∧ Runs (.scrubPass 3 0 2) s0 ∧ Runs (.selfCheckFail 4 35) s0 ∧ Runs (.selfCheckFail 9 2303) s0 ∧ Runs (.selfCheckFail 10 11) s0 := by
  obtain ⟨-, -, -, -, -, l, t, c, f⟩ := H
  exact ⟨runs_of ((l 17 0 s0).1 (by decide) (by decide)), runs_of ((l 18 0 s0).2 (by decide)), runs_of (t 17 0 [1] failing ⟨_, .head _, rfl, by decide⟩ (by decide)),
   runs_of (c 8 0 s0 (by decide) (by decide)).1, runs_of ((c 1 0 s0 (by decide) (by decide)).2.1 (.inl rfl)),
   runs_of ((c 2 511 s0 (by decide) (by decide)).2.2.1 rfl),
   runs_of ((c 3 0 s0 (by decide) (by decide)).2.2.2 rfl), runs_of ((f 35 s0).1 (by decide)), runs_of ((f 2303 s0).2.1 (by decide)),
   runs_of ((f 11 s0).2.2 (by decide))⟩

end
end

