-- ==== Sys2Proof/Tests/Machine.lean ====
section
/-! SUPPORT. Witnesses of the statements about every instruction and every step. -/

section

set_option Elab.async false

open Sys2Proof
open Sys2Proof.Machine
open Sys2Proof.Tests

/-- NOP, marked, with a result of its task outstanding, and NOP under the guard p0, which reads 0. -/
def kOut : Core := k0.setSlot 0 { k0.slot 0 with pend := 1 }
def sOut : State := stOf cap1 kOut
def nop0 (h : Head) : Instr := .nop64 h ⟨0⟩
def guarded : Head := ⟨false, 0, false⟩

theorem test_switchMarkerAndGuard (H : Obligations.SwitchMarkerAndGuard) : Runs (nop0 hm) sOut ∧ Runs (nop0 guarded) s0 :=
  ⟨runs_of ((H (nop0 hm) _ sOut (curOf cap1 kOut 8) rfl rfl).1 rfl rfl),
   runs_of ((H (nop0 guarded) _ s0 (x0 8) rfl rfl).2 nofun rfl)⟩

/-- What a step or an instruction answers. -/
def nextOf (o : Host.Outcome State Fault Refusal) : State :=
  match o with
  | .next t => t
  | _ => State.reset

theorem test_issueTouchesNoMemory (H : Obligations.IssueTouchesNoMemory) : (nextOf (exec (nop0 hd) s0)).mem = s0.mem :=
  (H (nop0 hd) s0 _ (x0 8) 8 rfl rfl rfl).1

theorem test_decodeEncode (H : Obligations.DecodeEncode) : decodeBytes (encodeBytes (nop0 hd)) = .ok (nop0 hd, 8) :=
  H (nop0 hd) rfl (by unfold Instr.WellFormed; decide)

/-- The state in which the word of NOP is placed, and the step that runs it. -/
def sNop : State := State.reset.withFetchWord 64 0x3808

theorem test_stepKeepsMemory (H : Obligations.StepKeepsMemory) : Sys2Proof.Inv (nextOf (step sNop)) := H sNop _ rfl rfl

theorem numberedNop : Numbered sNop := by unfold Numbered; decide

theorem test_stepKeepsNumbers (H : Obligations.StepKeepsNumbers) : Numbered (nextOf (step sNop)) := (H sNop _ numberedNop rfl).1

/-- An agenda of a turn of core 0, and of an event. -/
theorem test_stepRunsDecoded (H : Obligations.StepRunsDecoded) :
    step sNop = issueStep sNop ∧
      step { s0 with agenda := [⟨[(0, 5)], .issue 0⟩] } = issueStep ({ s0 with agenda := [⟨[(0, 5)], .issue 0⟩] }.advance [(0, 5)] |> fun s =>
        { s with agenda := [], actor := 0 }) ∧
      issueStep sNop = exec (nop0 hd) (sNop.takePort sNop.actor 0) :=
  ⟨(H sNop (nop0 hd)).1 rfl, (H _ (nop0 hd)).2.1 [(0, 5)] 0 [] rfl,
   (H sNop (nop0 hd)).2.2.2 0 8 _ rfl rfl (by decide) (by decide +kernel) (by decide +kernel) (by decide +kernel)⟩

theorem test_stepRunsDecoded_event (H : Obligations.StepRunsDecoded) :
    step { s0 with agenda := [⟨[], .event .bringUp⟩] } = exec .bringUp { { s0 with agenda := [⟨[], .event .bringUp⟩] }.advance [] with agenda := [] } :=
  (H _ .bringUp).2.2.1 [] [] rfl rfl

end
end

