-- ==== Sys2Proof/Tests/Memory.lean ====
section
/-! SUPPORT. Witnesses of the statements about memory, atomic, ordering and vector instructions. -/

section

set_option Elab.async false

open Sys2Proof
open Sys2Proof.Machine
open Sys2Proof.Tests

theorem numbered0 : Numbered s0 := by unfold Numbered; decide
theorem numberedFull : Numbered sFull := by unfold Numbered; decide
theorem issuesFull (len : Nat) : Issues sFull hd len (curOf cap1 kFull len) := ⟨rfl, nofun, rfl⟩

/-- A place is free; one is not, behind the ticket of another slot. -/
theorem hasPlace0 (len : Nat) : HasPlace s0 (x0 len) 1 :=
  have h : HasPlace s0 (x0 0) 1 := .inr (by decide)
  h
theorem lacksPlaceFull (len : Nat) : LacksPlace sFull (curOf cap1 kFull len) 1 :=
  have h : LacksPlace sFull (curOf cap1 kFull 0) 1 := .inr ⟨by decide, .inl (by decide)⟩
  h

/-- LD.d g4, [g2], ST.d g3, [g2], LDF g4, [g1] and STF g3, [g1]. -/
theorem test_loadStoreIssue (H : Obligations.LoadStoreIssue) :
    Runs (.ld hd ⟨4, 0, 2, 0, 0, 3, 0, 0, 0⟩) s0 ∧ Runs (.st hd ⟨3, 0, 2, 0, 0, 3, 0, 0, 0⟩) s0 ∧
      Runs (.ldf hd ⟨4, 0, 1, 0, 0, 3, 0, 0, 0⟩) s0 ∧ Runs (.stf hd ⟨3, 0, 1, 0, 0, 3, 0, 0, 0⟩) s0 :=
  ⟨runs_place (H _ _ s0 (x0 8) _ (.inl rfl) (issues0 8) (.inr (by decide)) ⟨by decide, by decide, by decide⟩ numbered0 rfl)
     (hasPlace0 8),
   runs_place (H _ _ s0 (x0 8) _ (.inl rfl) (issues0 8) (.inr (by decide)) ⟨by decide, by decide⟩ numbered0 rfl)
     (hasPlace0 8),
   runs_place (H _ _ s0 (x0 8) _ (.inr rfl) (issues0 8) (.inr (by decide)) ⟨rfl, rfl, rfl, by decide, by decide⟩ numbered0 rfl)
     (hasPlace0 8),
   runs_place (H _ _ s0 (x0 8) _ (.inr rfl) (issues0 8) (.inr (by decide)) ⟨rfl, rfl, rfl, by decide, by decide⟩ numbered0 rfl)
     (hasPlace0 8)⟩

/-- The same LD and an AMO behind a full LSU. -/
theorem test_loadStoreIssue_waits (H : Obligations.LoadStoreIssue) : Runs (.ld hd ⟨4, 0, 2, 0, 0, 3, 0, 0, 0⟩) sFull :=
  runs_lack (H _ _ sFull _ _ (.inl rfl) (issuesFull 8) (.inr (by decide)) ⟨by decide, by decide, by decide⟩ numberedFull rfl)
    (lacksPlaceFull 8)
theorem test_atomicIssue_waits (H : Obligations.AtomicIssue) : Runs (.amo hd ⟨4, 0, 1, 3, 0, 3, 0, 0, 0⟩) sFull :=
  runs_lack (H _ _ sFull _ _ rfl (issuesFull 8) (.inr (by decide)) ⟨⟨rfl, by decide, rfl⟩, by decide, rfl⟩ numberedFull rfl)
    (lacksPlaceFull 8)

/-- AMO.add.d g4, g3, [g1] and REDF.f32 g3, [g2]. -/
theorem test_atomicIssue (H : Obligations.AtomicIssue) :
    Runs (.amo hd ⟨4, 0, 1, 3, 0, 3, 0, 0, 0⟩) s0 ∧ Runs (.redf hd ⟨3, 0, 2, 0, 0, 2, 0, 0, 0⟩) s0 :=
  ⟨runs_place (H _ _ s0 (x0 8) _ rfl (issues0 8) (.inr (by decide)) ⟨⟨rfl, by decide, rfl⟩, by decide, rfl⟩ numbered0 rfl)
     (hasPlace0 8),
   runs_place (H _ _ s0 (x0 8) _ rfl (issues0 8) (.inr (by decide)) ⟨⟨rfl, rfl, .inl ⟨rfl, rfl⟩⟩, rfl⟩ numbered0 rfl)
     (hasPlace0 8)⟩

theorem listDefined0 : ListDefined (x0 16).k 0 := by
  intro i hi; simp [listCount] at hi

/-- LDA.d.sys g4, [g2] and STL.d.sys g3, [g2], without a list. -/
theorem test_acquireReleaseIssue (H : Obligations.AcquireReleaseIssue) :
    Runs (.lda hd ⟨4, 0, 2, 0, 0, 3, 8, 0, 0, 0⟩) s0 ∧ Runs (.stl hd ⟨3, 0, 2, 0, 0, 3, 8, 0, 0, 0⟩) s0 :=
  ⟨runs_of3 ((H hd _ s0 (x0 16) _ (issues0 16) rfl listDefined0 (.inr (by decide)) numbered0 (hasPlace0 16)).1 rfl),
   runs_of3 ((H hd _ s0 (x0 16) _ (issues0 16) rfl listDefined0 (.inr (by decide)) numbered0 (hasPlace0 16)).2 rfl)⟩

/-- FENCE.clu of all kinds. -/
theorem test_fenceIssue (H : Obligations.FenceIssue) : Runs (.fence hd ⟨2, 0xFF, 0xFF, 0⟩) s0 :=
  runs_of2 (H hd _ s0 (x0 12) (issues0 12) listDefined0)

/-- TRACK tk15, g3, g5 and UNTRACK tk0; QFENCE of all four queues. -/
theorem test_trackersAndQueueFence (H : Obligations.TrackersAndQueueFence) :
    Runs (.track hd ⟨15, 0, 3, 0, 5, 0, 0, 0, 0, 0⟩) s0 ∧ Runs (.untrack hd ⟨0, 0, 0, 0, 0, 0, 0, 0, 0, 0⟩) s0 ∧
      Runs (.qfence hd ⟨15⟩) s0 :=
  ⟨runs_of ((H.1 hd _ s0 (x0 8) (issues0 8)).1 (.inr (by decide))), runs_of (H.1 hd _ s0 (x0 8) (issues0 8)).2.2,
   runs_of (H.2 hd _ s0 (x0 8) (issues0 8) (by decide))⟩

/-- PUT g8.q, G0[0], [g2], 4. -/
theorem test_putIssue (H : Obligations.PutIssue) : Runs (.put hd ⟨8, 2, 2, 0, 0, 0, 0, 0, 4, 0⟩) s0 :=
  runs_of2 ((H hd _ s0 (x0 8) 0 (issues0 8) rfl (.inr (by decide)) (by decide) (by decide) (by decide) rfl numbered0).1
    (hasPlace0 8))
theorem test_putIssue_waits (H : Obligations.PutIssue) : Runs (.put hd ⟨8, 2, 2, 0, 0, 0, 0, 0, 4, 0⟩) sFull :=
  runs_of ((H hd _ sFull _ 0 (issuesFull 8) rfl (.inr (by decide)) (by decide) (by decide) (by decide) rfl numberedFull).2
    (lacksPlaceFull 8))

/-- PREF of a line of HBM, of a scratchpad line, and of an address that no extent covers. -/
theorem test_prefetchIssue (H : Obligations.PrefetchIssue) :
    Runs (.pref hd ⟨0, 0, 2, 0, 0, 0, 0, 0, 0⟩) s0 ∧ Runs (.pref hd ⟨0, 0, 1, 0, 0, 0, 0, 2, 0⟩) s0 ∧
      Runs (.pref hd ⟨0, 0, 2, 0, 0, 0, 0, 0, 0x7FFFFF⟩) s0 :=
  ⟨runs_of2 ((H hd _ s0 (x0 8) (issues0 8) (.inr (by decide)) (by decide) numbered0).1 _ rfl (by decide)),
   runs_of ((H hd _ s0 (x0 8) (issues0 8) (.inr (by decide)) (by decide) numbered0).2.1 _ rfl (by decide)),
   runs_of ((H hd _ s0 (x0 8) (issues0 8) (.inr (by decide)) (by decide) numbered0).2.2 _ rfl)⟩

theorem vecReady0 (len : Nat) {rs ws : List VOpd}
    (h : ∀ o ∈ rs ++ ws, o.1 % 2 ^ o.2 = 0 ∧ o.1 + 2 ^ o.2 ≤ viewCount (x0 len).k.vwv) : VecReady hd (x0 len) rs ws :=
  have r : ((x0 len).k.rpend, (x0 len).k.rmark, (x0 len).k.qm) = ([], [], []) := rfl
  have b : (x0 len).k.badGrans = [] := rfl
  ⟨h, fun _ _ => by simp_all, by simp_all, by simp [b]⟩

/-- VADD.f32 v127, v1, v2 and VXOR.n8 v3, v1, v2. -/
theorem test_vectorArithmetic (H : Obligations.VectorArithmetic) :
    Runs (.vadd hd ⟨127, 0, 1, 0, 2, 0, 0, 0, 0, 0, 0⟩) s0 ∧ Runs (.vxor hd ⟨3, 0, 1, 0, 2, 0, 0, 8, 0, 0, 0⟩) s0 :=
  ⟨runs_of (H _ _ s0 (x0 8) (.inl rfl) (issues0 8) (vecReady0 8 (by decide))
     ⟨⟨by decide, by decide, by decide⟩, rfl, by decide⟩),
   runs_of (H _ _ s0 (x0 8) (.inr rfl) (issues0 8) (vecReady0 8 (by decide))
     ⟨⟨trivial, by decide, rfl, rfl⟩, rfl, by decide⟩)⟩

/-- VMOV of an octet, VSHUF, VDOT.i8 and VCVT.f16.f32. -/
theorem test_vectorMoves (H : Obligations.VectorMoves) :
    Runs (.vmov hd ⟨120, 3, 8, 3, 0, 0, 0, 0, 0, 0, 0⟩) s0 ∧
      Runs (.vshuf hd ⟨4, 0, 1, 0, 2, 0, 0, 0, 0, 0, 5, 0, 0, 0, 0, 0, 0⟩) s0 ∧
      Runs (.vdot hd ⟨4, 0, 1, 0, 2, 0, 0, 5, 0, 0, 0⟩) s0 ∧
      Runs (.vcvt hd ⟨4, 0, 0, 1, 0, 0, 0, 1, 0, 0, 0, 0, 0, 0, 0, 0, 0⟩) s0 :=
  have u : ∀ len rs, (∀ r ∈ rs, ((x0 len).k.slot (x0 len).n).mark.getLsbD r = false) → Unmarked hd (x0 len) rs := fun _ _ h => .inr h
  ⟨runs_of (H _ _ s0 (x0 8) (.inl rfl) (issues0 8) (u _ _ nofun) (vecReady0 8 (by decide)) ⟨trivial, rfl, by decide⟩),
   runs_of (H _ _ s0 (x0 12) (.inl rfl) (issues0 12) (u _ _ nofun) (vecReady0 12 (by decide))
     ⟨by decide, by decide, rfl, rfl, rfl, by decide, by decide⟩),
   runs_of (H _ _ s0 (x0 8) (.inr (.inl rfl)) (issues0 8) (u _ _ nofun) (vecReady0 8 (by decide))
     ⟨⟨by decide, by decide, by decide⟩, rfl, by decide⟩),
   runs_of (H _ _ s0 (x0 12) (.inr (.inr rfl)) (issues0 12) (u _ _ nofun) (vecReady0 12 (by decide))
     ⟨⟨by decide, by decide, by decide, by decide, nofun, nofun⟩, by decide, rfl, nofun, nofun⟩)⟩

/-- VQNT.x0.f32 v20, v0.p, g5, the spec's example. -/
theorem test_vectorQuantize (H : Obligations.VectorQuantize) :
    Runs (.vqnt hd ⟨20, 0, 0, 1, 0, 0, 0, 9, 0, 0, 0, 5, 0, 0, 0, 0, 0⟩) s0 :=
  runs_of (H hd _ s0 (x0 12) (issues0 12) (.inr (by decide)) (vecReady0 12 (by decide))
    ⟨⟨by decide, by decide, by decide, rfl, by decide⟩, by decide, rfl, by decide, nofun⟩)

/-- VLOG2.f32 v4, v1. -/
theorem test_vectorFunctions (H : Obligations.VectorFunctions) : Runs (.vlog2 hd ⟨4, 0, 1, 0, 0, 0, 0, 0, 0, 0, 0⟩) s0 :=
  runs_of3 (H _ hd _ _ s0 (x0 8) rfl (issues0 8) rfl (by decide) (by decide) (vecReady0 8 (by decide)))

/-- VCMP.ge.f32 to lm7, VEXT of the last element and VRED.xor. -/
theorem test_vectorToTask (H : Obligations.VectorToTask) :
    Runs (.vcmp hd ⟨7, 0, 1, 0, 2, 0, 0, 0, 0, 0, 5⟩) s0 ∧
      Runs (.vext hd ⟨0, 0, 1, 0, 0, 0, 0, 0, 0, 0, 0, 4, 0, 0, 0, 0, 15⟩) s0 ∧
      Runs (.vred hd ⟨0, 0, 1, 0, 0, 0, 0, 6, 0, 0, 5, 4, 0, 0, 0, 0, 0⟩) s0 :=
  ⟨runs_of2 (H.1 hd _ s0 (x0 8) (issues0 8) rfl rfl (by decide) (by decide) rfl (by decide) (by decide) (by decide) rfl
     (vecReady0 8 (by decide))),
   runs_of (H.2.1 hd _ s0 (x0 12) (issues0 12) (by decide) rfl (by decide) (.inr (by decide)) (vecReady0 12 (by decide))),
   runs_of (H.2.2 hd _ s0 (x0 12) (issues0 12) (by decide) rfl (by decide) (by decide) (by decide) (.inr (by decide))
     (vecReady0 12 (by decide)))⟩

/-- VLD v2, [g2+0x80] under lm0, VST of an octet at v120, and VGATH with no active lane (lm1). -/
theorem test_vectorMemoryIssue (H : Obligations.VectorMemoryIssue) :
    Runs (.vld hd ⟨2, 0, 2, 0, 0, 0, 0, 0, 0, 0x40⟩) s0 ∧ Runs (.vgath hd ⟨2, 0, 2, 0, 0, 1, 0, 4, 0, 0⟩) s0 :=
  ⟨runs_of (H _ _ s0 (x0 12) [⟨0x100080, some ext0⟩] rfl (issues0 12) (.inr (by decide)) trivial numbered0
     (vecReady0 12 (by decide)) rfl
     (by
       intro j p g hp hg
       match j with
       | 0 => cases hp; cases hg; rfl
       | j + 1 => simp at hg)),
   runs_of (H _ _ s0 (x0 12) [] rfl (issues0 12) (.inr (by decide)) ⟨rfl, rfl, .inl rfl⟩ numbered0 (vecReady0 12 (by decide)) rfl
     (fun _ _ _ _ h => by simp at h))⟩

end
end

