-- ==== Sys2Proof/Tests/Parking.lean ====
section
/-! SUPPORT. Witnesses of the statements about parking and the Plaza's firmware. -/

section

set_option Elab.async false

open Sys2Proof
open Sys2Proof.Machine
open Sys2Proof.Tests

/-- A core being evicted; role 0 parked, with its packets spilled to `n` entries. -/
def kEvict : Core := { k0 with evicting := true, evictAs := (1, []) }
def parked0 (n : Nat) : Parked :=
  { role := 0, counter := 1, saved := k0, scratch := [1], fullWords := [], guardLines := [], spills := List.replicate n 9, partners := [] }
def capPark (n : Nat) : Capsule := { cap1 with parked := [parked0 n] }
def sPark (n : Nat) : State :=
  { State.reset with capsules := [capPark n], packets := [pktM .moving], serial := 1, host := { State.reset.host with ready := true } }

/-- A capsule of PRIO 0 on core 0, beside one of PRIO 1 whose group 0 is a whole die layer: its role 1 runs on the next
core, and its parked role 0 must stand at the layer's corner. -/
def capVictim : Capsule := { cap1 with hdr := { cap1.hdr with park := 0x10000000 } }
def capHead : Capsule :=
  { capOn [0, coreAt 0 0 1] with
    inst := 2, hdr := { cap1.hdr with prio := 1, part := [1536, 0, 0, 0, 0, 0] }, parked := [parked0 0]
    groups := [⟨0, 3, 32, 48, 0, 0, [0, coreAt 0 0 1], false, none, [], []⟩] }
def sEvict : State :=
  { State.reset with capsules := [capVictim, capHead], cores := [(0, k0), (coreAt 0 0 1, { k0 with inst := some 2, role := 1 })] }

theorem test_parkingEvents_evict (H : Obligations.ParkingEvents) : Runs (.coreEvict 1 [0]) sEvict :=
  runs_of2 (H.1 1 [0] capVictim sEvict rfl (by decide) (by decide) (by decide +kernel) (.inr (by decide))
    ⟨_, .head _, by decide +kernel, by decide +kernel⟩)

theorem test_parkingEvents (H : Obligations.ParkingEvents) :
    Runs (.imageWrite 0) (stOf cap1 kEvict) ∧ Runs (.parkedPacketDivert 0) (sPark 0) ∧ Runs (.parkedPacketDivert 0) (sPark 256) ∧
      Runs (.imageRestore 1 0 5) (sPark 0) :=
  ⟨runs_of3 (H.2.1 0 cap1 (stOf cap1 kEvict) rfl rfl (by decide +kernel)),
   runs_of2 ((H.2.2.1 (pktM .moving) (capPark 0) (parked0 0) (sPark 0) rfl rfl rfl rfl (by decide +kernel)).1 (by decide)),
   runs_of ((H.2.2.1 (pktM .moving) (capPark 256) (parked0 256) (sPark 256) rfl rfl rfl rfl (by decide +kernel)).2 (by decide +kernel)),
   runs_of ((H.2.2.2.1 1 0 5 0 (capPark 0) (parked0 0) (sPark 0) rfl rfl rfl (by decide +kernel) (by decide +kernel)
     (by decide +kernel) (by decide +kernel) (by decide +kernel) (.inl rfl) rfl rfl).2 (by decide +kernel))⟩

/-- The stage of the capsule is completing. -/
def sCompleting : State := { sReady with capsules := [{ cap1 with stage := .completing }] }

theorem test_parkingEvents_firmware (H : Obligations.ParkingEvents) :
    Runs .firmwareRestart sReady ∧ Runs .watchdogExpire (sQueue none) ∧ Runs .watchdogExpire (sQueue (some (.queue 3))) ∧ Runs (.capabilityFault 0 0) (sQueue (some (.queue 3))) ∧
      Runs (.capabilityFault 1 2) (sTaken (capG []) []) ∧ Runs (.capabilityFault 1 1) sReady ∧ Runs (.capabilityFault 1 1) sCompleting ∧
      Runs (.capabilityFault 2 3) (sQueue none) ∧ Runs (.capabilityFault 3 0) sReady :=
  have F := H.2.2.2.2
  ⟨runs_of (F sReady rfl).1, runs_of ((F (sQueue none) rfl).2.1 (.inl (by decide +kernel))),
   runs_of ((F (sQueue (some (.queue 3))) rfl).2.1 (.inr rfl)),
   runs_of ((F (sQueue (some (.queue 3))) rfl).2.2.1 3 rfl),
   runs_of (((F (sTaken (capG []) []) rfl).2.2.2.1 2 (capG []) rfl).1 rfl),
   runs_of2 (((F sReady rfl).2.2.2.1 1 cap1 rfl).2 rfl), runs_of2 (((F sCompleting rfl).2.2.2.1 1 _ rfl).2 rfl),
   runs_of ((F (sQueue none) rfl).2.2.2.2.1 3 (by decide) rfl), runs_of (F sReady rfl).2.2.2.2.2⟩

end
end

