-- ==== Sys2Proof/Tests/Scalar.lean ====
section
/-! SUPPORT. Witnesses of the statements about scalar and memory instructions: each applies a statement to a concrete state and
operands that meet its hypotheses, clause by clause. -/

section

set_option Elab.async false

open Sys2Proof
open Sys2Proof.Machine
open Sys2Proof.Tests

/-- ADD g4, g3, g5. -/
theorem test_integerResults (H : Obligations.IntegerResults) :
    Runs (.add hd ⟨4, 0, 3, 0, 5, 0, 0, 0, 0, 0⟩) s0 :=
  runs_of (H _ _ s0 (x0 8) (.inl rfl) (issues0 8) (.inr (by decide)))

/-- LIW and LMR of mask 7. -/
theorem test_integerResults_moves (H : Obligations.IntegerResults) :
    Runs (.liw hd ⟨4, 0, -1⟩) s0 ∧ Runs (.lmr hd ⟨4, 0, 7, 0, 0, 0, 0, 0, 0, 0⟩) s0 :=
  ⟨runs_of (H _ _ s0 (x0 12) (.inr (.inr rfl)) (issues0 12) (.inr (by decide))),
   runs_of (H _ _ s0 (x0 8) (.inr (.inr rfl)) (issues0 8) (.inr (by decide)))⟩

/-- SHLI by 63, and BFI with pos 63 and len 64, which runs past bit 63. -/
theorem test_shiftAndFieldResults (H : Obligations.ShiftAndFieldResults) :
    Runs (.shli hd ⟨4, 0, 3, 0, 0, 0, 63⟩) s0 ∧ Runs (.bfi hd ⟨4, 0, 3, 0, 0, 0, 63 + 64 * 63⟩) s0 :=
  ⟨runs_of (H _ _ s0 (x0 8) (.inl rfl) (issues0 8) (.inr (by decide))),
   runs_of (H _ _ s0 (x0 8) (.inr rfl) (issues0 8) (.inr (by decide)))⟩

/-- DIV by g0, which holds 0. -/
theorem test_divisionResults (H : Obligations.DivisionResults) : Runs (.div hd ⟨4, 0, 3, 0, 0, 0, 0, 0, 0, 0⟩) s0 :=
  runs_of2 (H _ _ s0 (x0 8) rfl (issues0 8) (.inr (by decide)))

/-- MOV g8.o, g0.o, and a single MOV to g15. -/
theorem test_moveGroup (H : Obligations.MoveGroup) :
    Runs (.mov hd ⟨8, 3, 0, 3, 0, 0, 0, 0, 0, 0⟩) s0 ∧ Runs (.mov hd ⟨15, 0, 3, 0, 0, 0, 0, 0, 0, 0⟩) s0 :=
  ⟨runs_of (H hd _ s0 (x0 8) (issues0 8) rfl rfl rfl (.inr (by decide))),
   runs_of (H hd _ s0 (x0 8) (issues0 8) rfl rfl rfl (.inr (by decide)))⟩

/-- CMP.ge.n p7, PSET, and LMW of mask 7. -/
theorem test_predicateAndMaskResults (H : Obligations.PredicateAndMaskResults) :
    Runs (.cmp hd ⟨0, 0, 3, 0, 5, 0, 0, 0, 7, 0xD⟩) s0 ∧ Runs (.pset hd ⟨2, 0, 7, 15⟩) s0 ∧
      Runs (.lmw hd ⟨7, 0, 3, 0, 0, 0, 0, 0, 0, 0⟩) s0 :=
  ⟨runs_of (H.1 _ _ s0 (x0 8) rfl (issues0 8) (.inr (by decide))),
   runs_of (H.1 _ _ s0 (x0 8) rfl (issues0 8) (.inr (by decide))),
   runs_of (H.2 hd _ s0 (x0 8) (issues0 8) (by decide) (.inr (by decide)))⟩

theorem test_noOperations (H : Obligations.NoOperations) :
    Runs (.nop64 hd ⟨0⟩) s0 ∧ Runs (.nop96 hd ⟨0⟩) s0 ∧ Runs (.nop128 hd ⟨0⟩) s0 :=
  ⟨runs_of ((H hd _ s0 (x0 8)).1 (issues0 8)), runs_of ((H hd _ s0 (x0 12)).2.1 (issues0 12)),
   runs_of ((H hd _ s0 (x0 16)).2.2 (issues0 16))⟩

/-- A target of 56, the last instruction of the code, and of 0. -/
theorem validTarget56 : ValidTarget cap1 56 := by unfold ValidTarget; decide +kernel
theorem validTarget0 : ValidTarget cap1 0 := by unfold ValidTarget; decide +kernel

theorem test_transfers (H : Obligations.Transfers) :
    Runs (.bra hd ⟨0, 0, 0, 14⟩) s0 ∧ Runs (.call hd ⟨15, 0, 0, 14⟩) s0 ∧ Runs (.brx hd ⟨0, 0, 0, 0, 0, 0, 0, 0, 0, 0⟩) s0 ∧
      Runs (.ret hd ⟨0, 0, 0, 0, 0, 0, 0, 0, 0, 0⟩) s0 :=
  let F : FmtB := ⟨15, 0, 0, 14⟩
  ⟨runs_of ((H hd ⟨0, 0, 0, 14⟩ ⟨0, 0, 0, 0, 0, 0, 0, 0, 0, 0⟩ s0 (x0 8) (issues0 8)).1 ⟨by decide, validTarget56⟩).1,
   runs_of (((H hd F ⟨0, 0, 0, 0, 0, 0, 0, 0, 0, 0⟩ s0 (x0 8) (issues0 8)).1 ⟨by decide, validTarget56⟩).2 (.inr (by decide))),
   runs_of ((H hd F ⟨0, 0, 0, 0, 0, 0, 0, 0, 0, 0⟩ s0 (x0 8) (issues0 8)).2.1 validTarget0 (.inr (by decide))).1,
   runs_of ((H hd F ⟨0, 0, 0, 0, 0, 0, 0, 0, 0, 0⟩ s0 (x0 8) (issues0 8)).2.1 validTarget0 (.inr (by decide))).2⟩

/-- LOOP with a counter of 0, which branches, and of 1, which does not. -/
theorem test_transfers_loop (H : Obligations.Transfers) :
    Runs (.loop hd ⟨0, 0, 0, 14⟩) s0 ∧ Runs (.loop hd ⟨5, 0, 0, 14⟩) s0 :=
  ⟨runs_of (((H hd ⟨0, 0, 0, 14⟩ ⟨0, 0, 0, 0, 0, 0, 0, 0, 0, 0⟩ s0 (x0 8) (issues0 8)).2.2 (.inr (by decide))).1
      (by decide) ⟨by decide, validTarget56⟩),
   runs_of (((H hd ⟨5, 0, 0, 14⟩ ⟨0, 0, 0, 0, 0, 0, 0, 0, 0, 0⟩ s0 (x0 8) (issues0 8)).2.2 (.inr (by decide))).2 (by decide))⟩

/-- An offset of 64 = CODELEN and one of -4; register targets 1, 2^32 and 64. -/
def kJump : Core := coreOf (taskOf [1, 2 ^ 32, 64])
def sJump : State := stOf cap1 kJump
theorem issuesJump : Issues sJump hd 8 (curOf cap1 kJump 8) := ⟨rfl, nofun, rfl⟩

theorem test_invalidTargetFaults (H : Obligations.InvalidTargetFaults) :
    Runs (.bra hd ⟨0, 0, 0, 16⟩) s0 ∧ Runs (.bra hd ⟨0, 0, 0, -1⟩) s0 ∧ Runs (.brx hd ⟨0, 0, 0, 0, 0, 0, 0, 0, 0, 0⟩) sJump ∧
      Runs (.ret hd ⟨0, 0, 1, 0, 0, 0, 0, 0, 0, 0⟩) sJump ∧ Runs (.brx hd ⟨0, 0, 2, 0, 0, 0, 0, 0, 0, 0⟩) sJump :=
  let F : FmtB := ⟨0, 0, 0, 16⟩
  ⟨runs_of ((H hd F ⟨0, 0, 0, 0, 0, 0, 0, 0, 0, 0⟩ s0 (x0 8) (issues0 8)).1 3 64
     (.inr ⟨by decide, by decide, .inr (.inl (by decide))⟩)).1,
   runs_of ((H hd ⟨0, 0, 0, -1⟩ ⟨0, 0, 0, 0, 0, 0, 0, 0, 0, 0⟩ s0 (x0 8) (issues0 8)).1 4 (2 ^ 64 - 4) (.inl (by decide))).1,
   runs_of ((H hd F ⟨0, 0, 0, 0, 0, 0, 0, 0, 0, 0⟩ sJump _ issuesJump).2 (.inr (by decide)) 1 (.inl (by decide))).1,
   runs_of ((H hd F ⟨0, 0, 1, 0, 0, 0, 0, 0, 0, 0⟩ sJump _ issuesJump).2 (.inr (by decide)) 2 (.inr (.inl (by decide)))).2,
   runs_of ((H hd F ⟨0, 0, 2, 0, 0, 0, 0, 0, 0, 0⟩ sJump _ issuesJump).2 (.inr (by decide)) 3
     (.inr (.inr (.inl (by decide))))).1⟩

/-- The same with register 3 of the slot pending. -/
def kPend : Core := k0.setSlot 0 { k0.slot 0 with pend := 8 }
def sPend : State := stOf cap1 kPend
theorem issuesPend : Issues sPend hd 8 (curOf cap1 kPend 8) := ⟨rfl, nofun, rfl⟩

theorem test_exitAndTraps (H : Obligations.ExitAndTraps) :
    Runs (.exit hd ⟨0⟩) sPend ∧ Runs (.trap hd ⟨0xFFFF⟩) s0 ∧ Runs (.bkpt hd ⟨0⟩) s0 ∧ Runs (.trap hd ⟨1⟩) sPend ∧
      Runs (.bkpt hd ⟨1⟩) sPend :=
  ⟨runs_of (H hd _ sPend _ issuesPend).1,
   runs_of ((H hd _ s0 (x0 8) (issues0 8)).2.1 (by decide)).1, runs_of ((H hd _ s0 (x0 8) (issues0 8)).2.1 (by decide)).2,
   runs_of ((H hd _ sPend _ issuesPend).2.2 (by decide)).1, runs_of ((H hd _ sPend _ issuesPend).2.2 (by decide)).2⟩

/-- MFS of TSR, of CORE as a pair, and of the reserved number 0x7F. -/
theorem test_stateRegisterRead (H : Obligations.StateRegisterRead) :
    Runs (.mfs hd ⟨4, 0, 0⟩) s0 ∧ Runs (.mfs hd ⟨4, 1, 2⟩) s0 ∧ Runs (.mfs hd ⟨4, 0, 0x7F⟩) s0 :=
  ⟨runs_of ((H hd _ s0 (x0 8) (issues0 8) (.inr (by decide))).1 _ _ rfl rfl rfl),
   runs_of ((H hd _ s0 (x0 8) (issues0 8) (.inr (by decide))).1 _ _ rfl rfl rfl),
   runs_of ((H hd _ s0 (x0 8) (issues0 8) (.inr (by decide))).2 rfl rfl rfl)⟩

/-- A state whose blob lists the code of the capsule as a system capsule's. -/
def sSys : State := { s0 with host := { s0.host with blob := some { s0.host.flashA with system := [cap1.hdr.codeid] } } }
theorem issuesSys : Issues sSys hd 8 (x0 8) := ⟨rfl, nofun, rfl⟩

/-- MTS to BARTO, CLASSM, FMT0, FMT3, HDL0, HDL15, the three selects, TSR, FREC and the reserved number 0x7F. -/
theorem test_stateRegisterWrite (H : Obligations.StateRegisterWrite) :
    Runs (.mts hd ⟨3, 0, 7⟩) s0 ∧ Runs (.mts hd ⟨3, 0, 8⟩) s0 ∧ Runs (.mts hd ⟨3, 0, 0x10⟩) s0 ∧ Runs (.mts hd ⟨3, 0, 0x13⟩) s0 ∧
      Runs (.mts hd ⟨3, 0, 0x20⟩) s0 ∧ Runs (.mts hd ⟨3, 0, 0x2F⟩) s0 ∧ Runs (.mts hd ⟨3, 0, 0x80⟩) sSys ∧
      Runs (.mts hd ⟨3, 0, 0x82⟩) sSys ∧ Runs (.mts hd ⟨3, 0, 0x84⟩) sSys ∧ Runs (.mts hd ⟨3, 0, 0⟩) s0 ∧
      Runs (.mts hd ⟨3, 0, 0x40⟩) s0 ∧ Runs (.mts hd ⟨3, 0, 0x7F⟩) s0 :=
  have u : Unmarked hd (x0 8) [3] := .inr (by decide)
  have sys := fun n => (H hd ⟨3, 0, n⟩ sSys _ issuesSys u).2.2.2.2.1 (by decide)
  have user := fun n => H hd ⟨3, 0, n⟩ s0 (x0 8) (issues0 8) u
  ⟨runs_of_both ((user 7).1 rfl), runs_of_both ((user 8).2.1 rfl),
   runs_of_both ((user 0x10).2.2.1 (by decide)), runs_of_both ((user 0x13).2.2.1 (by decide)),
   runs_of_both ((user 0x20).2.2.2.1 (by decide)), runs_of_both ((user 0x2F).2.2.2.1 (by decide)),
   runs_of_both ((sys 0x80).1 rfl), runs_of_both ((sys 0x82).2.1 rfl), runs_of_both ((sys 0x84).2.2 rfl),
   runs_of ((user 0).2.2.2.2.2.1 (by decide)), runs_of ((user 0x40).2.2.2.2.2.1 (by decide)),
   runs_of ((user 0x7F).2.2.2.2.2.2 rfl)⟩

end
end

