-- ==== Sys2Proof/Tests/Slice0.lean ====
section
/-! SUPPORT. Tests of the decoder and of well-formedness: words from the spec's encoding tables (R229-R245) and from its worked
encodings, and one ill-formed term for each check. -/

section

set_option Elab.async false

open Sys2Proof

/-- Unguarded: GN 0, GP 7, S 0 (R232). -/
abbrev h0 : Head := ⟨false, 7, false⟩

/-- The fixed fields of R232 of an unguarded instruction. -/
abbrev w0 (len op : Nat) : Nat := len + 2 ^ 3 * op + 2 ^ 11 * 7

/-- Format A with every field zero. -/
abbrev zA : FmtA := ⟨0, 0, 0, 0, 0, 0, 0, 0, 0, 0⟩
/-- Format I with every field zero. -/
abbrev zI : FmtI := ⟨0, 0, 0, 0, 0, 0, 0⟩
/-- Format L with every field zero. -/
abbrev zL : FmtL := ⟨0, 0, 0⟩
/-- Format P with every field zero. -/
abbrev zP : FmtP := ⟨0, 0, 0, 0⟩
/-- Format B with every field zero. -/
abbrev zB : FmtB := ⟨0, 0, 0, 0⟩
/-- Format S with every field zero. -/
abbrev zS : FmtS := ⟨0, 0, 0⟩
/-- Format N with every field zero. -/
abbrev zN : FmtN := ⟨0⟩
/-- Format M with every field zero. -/
abbrev zM : FmtM := ⟨0, 0, 0, 0, 0, 0, 0, 0, 0⟩
/-- Format ML with every field zero. -/
abbrev zML : FmtML := ⟨0, 0, 0, 0, 0, 0, 0, 0, 0, 0⟩
/-- Format F with every field zero. -/
abbrev zF : FmtF := ⟨0, 0, 0, 0⟩
/-- Format T with every field zero. -/
abbrev zT : FmtT := ⟨0, 0, 0, 0, 0, 0, 0, 0, 0, 0⟩
/-- Format W with every field zero. -/
abbrev zW : FmtW := ⟨0, 0, 0, 0, 0, 0, 0, 0, 0, 0, 0⟩
/-- Format V with every field zero. -/
abbrev zV : FmtV := ⟨0, 0, 0, 0, 0, 0, 0, 0, 0, 0, 0⟩
/-- Format VX with every field zero. -/
abbrev zVX : FmtVX := ⟨0, 0, 0, 0, 0, 0, 0, 0, 0, 0, 0, 0, 0, 0, 0, 0, 0⟩
/-- Format VM with every field zero. -/
abbrev zVM : FmtVM := ⟨0, 0, 0, 0, 0, 0, 0, 0, 0, 0⟩
/-- Format X with every field zero. -/
abbrev zX : FmtX := ⟨0, 0, 0, 0, 0, 0, 0, 0, 0, 0, 0, 0, 0, 0, 0⟩
/-- Format C with every field zero. -/
abbrev zC : FmtC := ⟨0, 0, 0, 0, 0, 0, 0, 0, 0, 0, 0, 0, 0, 0, 0⟩

/-- Opcodes of format A, first half (R243). -/
theorem test_opcodes_a1 :
    decodeTableWord 64 (w0 0 0x04) = some (.brx h0 zA) ∧
    decodeTableWord 64 (w0 0 0x06) = some (.ret h0 zA) ∧
    decodeTableWord 64 (w0 0 0x0F) = some (.mov h0 zA) ∧
    decodeTableWord 64 (w0 0 0x10) = some (.add h0 zA) ∧
    decodeTableWord 64 (w0 0 0x12) = some (.sub h0 zA) ∧
    decodeTableWord 64 (w0 0 0x13) = some (.neg h0 zA) ∧
    decodeTableWord 64 (w0 0 0x14) = some (.mul h0 zA) ∧
    decodeTableWord 64 (w0 0 0x16) = some (.mulh h0 zA) ∧
    decodeTableWord 64 (w0 0 0x17) = some (.div h0 zA) ∧
    decodeTableWord 64 (w0 0 0x18) = some (.rem h0 zA) ∧
    decodeTableWord 64 (w0 0 0x19) = some (.and h0 zA) ∧
    decodeTableWord 64 (w0 0 0x1B) = some (.or h0 zA) ∧
    decodeTableWord 64 (w0 0 0x1D) = some (.xor h0 zA) ∧
    decodeTableWord 64 (w0 0 0x1F) = some (.andn h0 zA) ∧
    decodeTableWord 64 (w0 0 0x20) = some (.not h0 zA) ∧
    decodeTableWord 64 (w0 0 0x21) = some (.shl h0 zA) ∧
    decodeTableWord 64 (w0 0 0x23) = some (.shr h0 zA) ∧
    decodeTableWord 64 (w0 0 0x25) = some (.sar h0 zA) ∧
    decodeTableWord 64 (w0 0 0x27) = some (.rol h0 zA) ∧
    decodeTableWord 64 (w0 0 0x29) = some (.min h0 zA) ∧
    decodeTableWord 64 (w0 0 0x2A) = some (.max h0 zA) ∧
    decodeTableWord 64 (w0 0 0x2B) = some (.abs h0 zA) ∧
    decodeTableWord 64 (w0 0 0x2C) = some (.clz h0 zA) ∧
    decodeTableWord 64 (w0 0 0x2D) = some (.ctz h0 zA) := by
  decide +kernel

/-- Opcodes of format A, second half. -/
theorem test_opcodes_a2 :
    decodeTableWord 64 (w0 0 0x2E) = some (.popc h0 zA) ∧
    decodeTableWord 64 (w0 0 0x2F) = some (.brev h0 zA) ∧
    decodeTableWord 64 (w0 0 0x30) = some (.bswp h0 zA) ∧
    decodeTableWord 64 (w0 0 0x35) = some (.sel h0 zA) ∧
    decodeTableWord 64 (w0 0 0x36) = some (.cmp h0 zA) ∧
    decodeTableWord 64 (w0 0 0x39) = some (.lmw h0 zA) ∧
    decodeTableWord 64 (w0 0 0x3A) = some (.lmr h0 zA) ∧
    decodeTableWord 64 (w0 0 0x56) = some (.track h0 zA) ∧
    decodeTableWord 64 (w0 0 0x57) = some (.trackt h0 zA) ∧
    decodeTableWord 64 (w0 0 0x58) = some (.untrack h0 zA) ∧
    decodeTableWord 64 (w0 0 0xA5) = some (.chsend h0 zA) ∧
    decodeTableWord 64 (w0 0 0xA6) = some (.chrecv h0 zA) ∧
    decodeTableWord 64 (w0 0 0xB5) = some (.cwait h0 zA) ∧
    decodeTableWord 64 (w0 0 0xB5 + 2 ^ 42 * 1) = some (.cwaitAll h0 { zA with fn := 1 }) ∧
    decodeTableWord 64 (w0 0 0xB6) = some (.ctest h0 zA) := by
  decide +kernel

/-- Opcodes of format I (R243). -/
theorem test_opcodes_i :
    decodeTableWord 64 (w0 0 0x0C) = some (.li h0 zI) ∧
    decodeTableWord 64 (w0 0 0x11) = some (.addi h0 zI) ∧
    decodeTableWord 64 (w0 0 0x15) = some (.muli h0 zI) ∧
    decodeTableWord 64 (w0 0 0x1A) = some (.andi h0 zI) ∧
    decodeTableWord 64 (w0 0 0x1C) = some (.ori h0 zI) ∧
    decodeTableWord 64 (w0 0 0x1E) = some (.xori h0 zI) ∧
    decodeTableWord 64 (w0 0 0x22) = some (.shli h0 zI) ∧
    decodeTableWord 64 (w0 0 0x24) = some (.shri h0 zI) ∧
    decodeTableWord 64 (w0 0 0x26) = some (.sari h0 zI) ∧
    decodeTableWord 64 (w0 0 0x28) = some (.roli h0 zI) ∧
    decodeTableWord 64 (w0 0 0x31) = some (.bfx h0 zI) ∧
    decodeTableWord 64 (w0 0 0x32) = some (.bfxs h0 zI) ∧
    decodeTableWord 64 (w0 0 0x33) = some (.bfi h0 zI) ∧
    decodeTableWord 64 (w0 0 0x34) = some (.sext h0 zI) ∧
    decodeTableWord 64 (w0 0 0x37) = some (.cmpi h0 zI) := by
  decide +kernel

/-- Opcodes of format L (R243). -/
theorem test_opcodes_l :
    decodeTableWord 96 (w0 1 0x0D) = some (.liw h0 zL) := by
  decide +kernel

/-- Opcodes of format P (R243). -/
theorem test_opcodes_p :
    decodeTableWord 64 (w0 0 0x38) = some (.pset h0 zP) := by
  decide +kernel

/-- Opcodes of format B (R243). -/
theorem test_opcodes_b :
    decodeTableWord 64 (w0 0 0x03) = some (.bra h0 zB) ∧
    decodeTableWord 64 (w0 0 0x05) = some (.call h0 zB) ∧
    decodeTableWord 64 (w0 0 0x07) = some (.loop h0 zB) := by
  decide +kernel

/-- Opcodes of format S (R243). -/
theorem test_opcodes_s :
    decodeTableWord 64 (w0 0 0x0A) = some (.mfs h0 zS) ∧
    decodeTableWord 64 (w0 0 0x0B) = some (.mts h0 zS) := by
  decide +kernel

/-- Opcodes of format N (R243). -/
theorem test_opcodes_n :
    decodeTableWord 64 (w0 0 0x01) = some (.nop64 h0 zN) ∧
    decodeTableWord 96 (w0 1 0x01) = some (.nop96 h0 zN) ∧
    decodeTableWord 128 (w0 2 0x01) = some (.nop128 h0 zN) ∧
    decodeTableWord 64 (w0 0 0x02) = some (.exit h0 zN) ∧
    decodeTableWord 64 (w0 0 0x08) = some (.trap h0 zN) ∧
    decodeTableWord 64 (w0 0 0x09) = some (.bkpt h0 zN) ∧
    decodeTableWord 64 (w0 0 0x59) = some (.qfence h0 zN) ∧
    decodeTableWord 64 (w0 0 0xA7) = some (.chmask h0 zN) ∧
    decodeTableWord 64 (w0 0 0xBA) = some (.done h0 zN) := by
  decide +kernel

/-- Opcodes of format M (R243). -/
theorem test_opcodes_m :
    decodeTableWord 64 (w0 0 0x0E) = some (.lea h0 zM) ∧
    decodeTableWord 64 (w0 0 0x40) = some (.ld h0 zM) ∧
    decodeTableWord 64 (w0 0 0x41) = some (.st h0 zM) ∧
    decodeTableWord 64 (w0 0 0x44) = some (.ldf h0 zM) ∧
    decodeTableWord 64 (w0 0 0x45) = some (.ldfe h0 zM) ∧
    decodeTableWord 64 (w0 0 0x46) = some (.ste h0 zM) ∧
    decodeTableWord 64 (w0 0 0x47) = some (.stf h0 zM) ∧
    decodeTableWord 64 (w0 0 0x48) = some (.feset h0 zM) ∧
    decodeTableWord 64 (w0 0 0x49) = some (.feclr h0 zM) ∧
    decodeTableWord 64 (w0 0 0x4A) = some (.fetst h0 zM) ∧
    decodeTableWord 64 (w0 0 0x4B) = some (.pref h0 zM) ∧
    decodeTableWord 64 (w0 0 0x50) = some (.amo h0 zM) ∧
    decodeTableWord 64 (w0 0 0x51) = some (.cas h0 zM) ∧
    decodeTableWord 64 (w0 0 0x52) = some (.red h0 zM) ∧
    decodeTableWord 64 (w0 0 0x53) = some (.amof h0 zM) ∧
    decodeTableWord 64 (w0 0 0x54) = some (.redf h0 zM) := by
  decide +kernel

/-- Opcodes of format ML (R243). -/
theorem test_opcodes_ml :
    decodeTableWord 128 (w0 2 0x42) = some (.lda h0 zML) ∧
    decodeTableWord 128 (w0 2 0x43) = some (.stl h0 zML) := by
  decide +kernel

/-- Opcodes of format F (R243). -/
theorem test_opcodes_f :
    decodeTableWord 96 (w0 1 0x55) = some (.fence h0 zF) := by
  decide +kernel

/-- Opcodes of format T (R243). -/
theorem test_opcodes_t :
    decodeTableWord 64 (w0 0 0x4C) = some (.put h0 zT) ∧
    decodeTableWord 64 (w0 0 0xA2) = some (.send h0 zT) ∧
    decodeTableWord 64 (w0 0 0xA2 + 2 ^ 55 * 3) = some (.sendResume h0 { zT with cls := 3 }) ∧
    decodeTableWord 64 (w0 0 0xA3) = some (.join h0 zT) ∧
    decodeTableWord 64 (w0 0 0xA3 + 2 ^ 59 * 1) = some (.joinRet h0 { zT with fn := 1 }) ∧
    decodeTableWord 64 (w0 0 0xA4) = some (.go h0 zT) ∧
    decodeTableWord 64 (w0 0 0xA8) = some (.bar h0 zT) ∧
    decodeTableWord 64 (w0 0 0xA9) = some (.bara h0 zT) ∧
    decodeTableWord 64 (w0 0 0xAA) = some (.barw h0 zT) ∧
    decodeTableWord 64 (w0 0 0xB8) = some (.cpost h0 zT) ∧
    decodeTableWord 64 (w0 0 0xB9) = some (.handover h0 zT) ∧
    decodeTableWord 64 (w0 0 0xB9 + 2 ^ 59 * 1) = some (.handoverC h0 { zT with fn := 1 }) := by
  decide +kernel

/-- Opcodes of format W (R243). -/
theorem test_opcodes_w :
    decodeTableWord 96 (w0 1 0xA0) = some (.spawn h0 zW) ∧
    decodeTableWord 96 (w0 1 0xA1) = some (.spawnp h0 zW) := by
  decide +kernel

/-- Opcodes of format V (R243). -/
theorem test_opcodes_v :
    decodeTableWord 64 (w0 0 0x66) = some (.vmov h0 zV) ∧
    decodeTableWord 64 (w0 0 0x6A) = some (.viota h0 zV) ∧
    decodeTableWord 64 (w0 0 0x70) = some (.vadd h0 zV) ∧
    decodeTableWord 64 (w0 0 0x71) = some (.vsub h0 zV) ∧
    decodeTableWord 64 (w0 0 0x72) = some (.vmul h0 zV) ∧
    decodeTableWord 64 (w0 0 0x73) = some (.vfma h0 zV) ∧
    decodeTableWord 64 (w0 0 0x74) = some (.vfms h0 zV) ∧
    decodeTableWord 64 (w0 0 0x75) = some (.vfnma h0 zV) ∧
    decodeTableWord 64 (w0 0 0x76) = some (.vmin h0 zV) ∧
    decodeTableWord 64 (w0 0 0x77) = some (.vmax h0 zV) ∧
    decodeTableWord 64 (w0 0 0x78) = some (.vabs h0 zV) ∧
    decodeTableWord 64 (w0 0 0x79) = some (.vneg h0 zV) ∧
    decodeTableWord 64 (w0 0 0x7A) = some (.vand h0 zV) ∧
    decodeTableWord 64 (w0 0 0x7B) = some (.vor h0 zV) ∧
    decodeTableWord 64 (w0 0 0x7C) = some (.vxor h0 zV) ∧
    decodeTableWord 64 (w0 0 0x7D) = some (.vshl h0 zV) ∧
    decodeTableWord 64 (w0 0 0x7E) = some (.vshr h0 zV) ∧
    decodeTableWord 64 (w0 0 0x7F) = some (.vsar h0 zV) ∧
    decodeTableWord 64 (w0 0 0x80) = some (.vcmp h0 zV) ∧
    decodeTableWord 64 (w0 0 0x81) = some (.vsel h0 zV) ∧
    decodeTableWord 64 (w0 0 0x82) = some (.vrcp h0 zV) ∧
    decodeTableWord 64 (w0 0 0x83) = some (.vrsq h0 zV) ∧
    decodeTableWord 64 (w0 0 0x84) = some (.vexp2 h0 zV) ∧
    decodeTableWord 64 (w0 0 0x85) = some (.vlog2 h0 zV) ∧
    decodeTableWord 64 (w0 0 0x8A) = some (.vscan h0 zV) ∧
    decodeTableWord 64 (w0 0 0x8B) = some (.vperm h0 zV) ∧
    decodeTableWord 64 (w0 0 0x8D) = some (.vdot h0 zV) := by
  decide +kernel

/-- Opcodes of format VX (R243). -/
theorem test_opcodes_vx :
    decodeTableWord 96 (w0 1 0x67) = some (.vbcast h0 zVX) ∧
    decodeTableWord 96 (w0 1 0x68) = some (.vext h0 zVX) ∧
    decodeTableWord 96 (w0 1 0x69) = some (.vins h0 zVX) ∧
    decodeTableWord 96 (w0 1 0x86) = some (.vcvt h0 zVX) ∧
    decodeTableWord 96 (w0 1 0x87) = some (.vqnt h0 zVX) ∧
    decodeTableWord 96 (w0 1 0x88) = some (.vdeq h0 zVX) ∧
    decodeTableWord 96 (w0 1 0x89) = some (.vred h0 zVX) ∧
    decodeTableWord 96 (w0 1 0x8C) = some (.vshuf h0 zVX) ∧
    decodeTableWord 96 (w0 1 0x8E) = some (.vmaci h0 zVX) ∧
    decodeTableWord 96 (w0 1 0x9C) = some (.spsend h0 zVX) := by
  decide +kernel

/-- Opcodes of format VM (R243). -/
theorem test_opcodes_vm :
    decodeTableWord 96 (w0 1 0x60) = some (.vld h0 zVM) ∧
    decodeTableWord 96 (w0 1 0x61) = some (.vst h0 zVM) ∧
    decodeTableWord 96 (w0 1 0x62) = some (.vlds h0 zVM) ∧
    decodeTableWord 96 (w0 1 0x63) = some (.vsts h0 zVM) ∧
    decodeTableWord 96 (w0 1 0x64) = some (.vgath h0 zVM) ∧
    decodeTableWord 96 (w0 1 0x65) = some (.vscat h0 zVM) := by
  decide +kernel

/-- Opcodes of format X (R243). -/
theorem test_opcodes_x :
    decodeTableWord 96 (w0 1 0x90) = some (.mzero h0 zX) ∧
    decodeTableWord 96 (w0 1 0x91) = some (.mld h0 zX) ∧
    decodeTableWord 96 (w0 1 0x91 + 2 ^ 85 * 1) = some (.mldSc h0 { zX with fn := 1 }) ∧
    decodeTableWord 96 (w0 1 0x92) = some (.mst h0 zX) ∧
    decodeTableWord 96 (w0 1 0x93) = some (.mma h0 zX) ∧
    decodeTableWord 96 (w0 1 0x94) = some (.mmas h0 zX) ∧
    decodeTableWord 96 (w0 1 0x95) = some (.mmar h0 zX) ∧
    decodeTableWord 96 (w0 1 0x96) = some (.mmat h0 zX) ∧
    decodeTableWord 96 (w0 1 0x97) = some (.macc h0 zX) ∧
    decodeTableWord 96 (w0 1 0x98) = some (.mtrn h0 zX) ∧
    decodeTableWord 96 (w0 1 0x99) = some (.mcode h0 zX) ∧
    decodeTableWord 96 (w0 1 0x9A) = some (.tdef h0 zX) ∧
    decodeTableWord 96 (w0 1 0x9B) = some (.tqry h0 zX) := by
  decide +kernel

/-- Opcodes of format C (R243). -/
theorem test_opcodes_c :
    decodeTableWord 128 (w0 2 0xB0) = some (.copy h0 zC) ∧
    decodeTableWord 128 (w0 2 0xB1) = some (.cgath h0 zC) ∧
    decodeTableWord 128 (w0 2 0xB2) = some (.cscat h0 zC) ∧
    decodeTableWord 128 (w0 2 0xB3) = some (.credc h0 zC) ∧
    decodeTableWord 128 (w0 2 0xB4) = some (.cseal h0 zC) := by
  decide +kernel

/-- R238: ADD g6, g3, g4. -/
theorem test_decode_add_a : decodeTableWord 64 (0x0000000020633880) = some (.add h0 ⟨6, 0, 3, 0, 4, 0, 0, 0, 0, 0⟩) := by
  decide +kernel

/-- R238: ADD+ g6, g3, g4. -/
theorem test_decode_add_marked : decodeTableWord 64 (0x0000000020633884) = some (.add ⟨false, 7, true⟩ ⟨6, 0, 3, 0, 4, 0, 0, 0, 0, 0⟩) := by
  decide +kernel

/-- R267: CMPI.lt p1, g3, -5. -/
theorem test_decode_cmpi_i : decodeTableWord 64 (0xFFFFFFEC906039B8) = some (.cmpi h0 ⟨0, 0, 3, 0, 2, 1, -5⟩) := by
  decide +kernel

/-- R238: LIW g3, 0x0000000100000002. -/
theorem test_decode_liw_l : decodeTableWord 96 (0x00000001000000020001B869) = some (.liw h0 ⟨3, 0, 0x0000000100000002⟩) := by
  decide +kernel

/-- R267: PSET p2, p0, p1, 0b1000. -/
theorem test_decode_pset_p : decodeTableWord 64 (0x00000000082139C0) = some (.pset h0 ⟨2, 0, 1, 8⟩) := by
  decide +kernel

/-- R267: LOOP g5, OFF -2. -/
theorem test_decode_loop_b : decodeTableWord 64 (0xFFFFFFFFFF02B838) = some (.loop h0 ⟨5, 0, 0, -2⟩) := by
  decide +kernel

/-- 19_prog_inbound.md: (!p1) BRA, OFF -6. -/
theorem test_decode_bra_guarded : decodeTableWord 64 (0xFFFFFFFFFD004818) = some (.bra ⟨true, 1, false⟩ ⟨0, 0, 0, -6⟩) := by
  decide +kernel

/-- R267: MFS g4.p, CORE. -/
theorem test_decode_mfs_s : decodeTableWord 64 (0x00000000004A3850) = some (.mfs h0 ⟨4, 1, 2⟩) := by
  decide +kernel

/-- R267: TRAP 0x2A. -/
theorem test_decode_trap_n : decodeTableWord 64 (0x0000000000153840) = some (.trap h0 ⟨0x2A⟩) := by
  decide +kernel

/-- 11_isa_memory.md: AMO.add.d g4, g5, [g8+8]. -/
theorem test_decode_amo_m : decodeTableWord 64 (0x00000800CB023A80) = some (.amo h0 ⟨4, 0, 8, 5, 0, 3, 0, 0, 8⟩) := by
  decide +kernel

/-- R267: LEA.w g7, [g3+g4]. -/
theorem test_decode_lea_m : decodeTableWord 64 (0x00000000A863B870) = some (.lea h0 ⟨7, 0, 3, 4, 1, 2, 0, 0, 0⟩) := by
  decide +kernel

/-- 25_prog_preempt_copy.md: LD.w.sx g9, [g5]. -/
theorem test_decode_ld_sx : decodeTableWord 64 (0x0000001080A4BA00) = some (.ld h0 ⟨9, 0, 5, 0, 0, 2, 0, 1, 0⟩) := by
  decide +kernel

/-- 19_prog_inbound.md: LDA.d.sys g3, [g7]. -/
theorem test_decode_lda_ml : decodeTableWord 128 (0x00000008C0E1BA12) = some (.lda h0 ⟨3, 0, 7, 0, 0, 3, 8, 0, 0, 0⟩) := by
  decide +kernel

/-- R238: FENCE.clu {W}, {R, W}, (tk2). -/
theorem test_decode_fence_f : decodeTableWord 96 (0x0000008818113AA9) = some (.fence h0 ⟨2, 2, 3, 0x11⟩) := by
  decide +kernel

/-- 14_isa_tasks.md: SEND g4.p, G2[7], 6. -/
theorem test_decode_send_t : decodeTableWord 64 (0x03000700100A3D10) = some (.send h0 ⟨4, 1, 0, 0, 2, 0, 0, 7, 6, 0⟩) := by
  decide +kernel

/-- 20_fault_reports.md: SEND g4.p, G0[g5], 3. -/
theorem test_decode_send_resume : decodeTableWord 64 (0x01800058000A3D10) = some (.sendResume h0 ⟨4, 1, 0, 0, 0, 1, 5, 0, 3, 0⟩) := by
  decide +kernel

/-- 14_isa_tasks.md: SPAWN.j g4.p, g9, 0x140. -/
theorem test_decode_spawn_w : decodeTableWord 96 (0x0000014008000000012A3D01) = some (.spawn h0 ⟨4, 1, 9, 0, 0, 0, 0, 0, 0, 1, 0x140⟩) := by
  decide +kernel

/-- 12_isa_vector.md: (lm1) VFMA.bf16.rz v8, v4, v5. -/
theorem test_decode_vfma_v : decodeTableWord 64 (0x0002440A04043B98) = some (.vfma h0 ⟨8, 0, 4, 0, 5, 0, 1, 2, 1, 0, 0⟩) := by
  decide +kernel

/-- 12_isa_vector.md: VQNT.x0.f32 v20, v0.p, g5. -/
theorem test_decode_vqnt_vx : decodeTableWord 96 (0x0000000500012000800A3C39) = some (.vqnt h0 ⟨20, 0, 0, 1, 0, 0, 0, 9, 0, 0, 0, 5, 0, 0, 0, 0, 0⟩) := by
  decide +kernel

/-- 16_prog_mxfp4.md: (p2) (lm1) VST v69, [g10]. -/
theorem test_decode_vst_vm : decodeTableWord 96 (0x00000000000000020A229309) = some (.vst ⟨false, 2, false⟩ ⟨69, 0, 10, 0, 0, 1, 0, 0, 0, 0⟩) := by
  decide +kernel

/-- 16_prog_mxfp4.md: MMAR.x0.x1+ a0, m0, m2, g12.p, v100, v101. -/
theorem test_decode_mmar_x : decodeTableWord 96 (0x0020000000E65C9522003CAD) = some (.mmar ⟨false, 7, true⟩ ⟨0, 0, 2, 9, 10, 100, 101, 12, 1, 0, 0, 0, 0, 0, 1⟩) := by
  decide +kernel

/-- R234, R243: COPY.q1 3, t3, g8.p, t1, g10.p, g12.p (R355). -/
theorem test_decode_copy_c : decodeTableWord 128 (w0 2 0xB0 + 2 ^ 15 * 3 + 2 ^ 19 * 1 + 2 ^ 21 * 3 + 2 ^ 29 * 1 + 2 ^ 37 * 8 + 2 ^ 41 * 1 + 2 ^ 43 * 10 + 2 ^ 47 * 1 + 2 ^ 49 * 12 + 2 ^ 53 * 1) = some (.copy h0 ⟨3, 1, 3, 1, 8, 1, 10, 1, 12, 1, 0, 0, 0, 0, 0⟩) := by
  decide +kernel

/-! What the decoder refuses, by name (R244, R413) -/

/-- R229: LEN 0b11 is DETAIL 1. -/
theorem test_len_reserved : decodeWord 32 (w0 3 0x10) = .error ⟨1, 0x10 + 2 ^ 8 * 3⟩ := by decide +kernel

/-- R230: an instruction that would cross the end of its block is DETAIL 2. -/
theorem test_block_crossing : decodeWord 4 (w0 0 0x10) = .error ⟨2, 0x10⟩ := by decide +kernel

/-- R243: opcode 0x00 is unassigned, DETAIL 3. -/
theorem test_opcode_unassigned : decodeWord 32 0 = .error ⟨3, 0⟩ := by decide +kernel

/-- R244: LEN that is not the format's is DETAIL 4. -/
theorem test_len_of_format : decodeWord 32 (w0 1 0x10) = .error ⟨4, 0x10 + 2 ^ 8⟩ := by decide +kernel

/-- R244: a nonzero bit in a field named 0 of format A is DETAIL 5, with the field's lowest bit, 50. -/
theorem test_zero_field : decodeWord 32 (w0 0 0x10 + 2 ^ 60) = .error ⟨5, 0x10 + 2 ^ 16 * 50⟩ := by decide +kernel

/-- R235, R244: ADD does not use field C, at bit 33. -/
theorem test_unused_field : decodeWord 32 (w0 0 0x10 + 2 ^ 33) = .error ⟨5, 0x10 + 2 ^ 16 * 33⟩ := by decide +kernel

/-- R236: element type 13 is reserved, DETAIL 6; T of format V stands at bit 45. -/
theorem test_reserved_type : decodeWord 32 (w0 0 0x70 + 2 ^ 45 * 13) = .error ⟨6, 0x70 + 2 ^ 16 * 45⟩ := by decide +kernel

/-! Ill-formed terms -/

/-- An unused field that is not zero. -/
theorem test_illformed_unused : (Instr.add h0 { zA with c := 1 }).wellFormed = false := by decide

/-- A reserved value: tracker list length 5 (R237). -/
theorem test_illformed_reserved : (Instr.fence h0 { zF with list := 5 }).wellFormed = false := by decide

/-- A variant whose selecting field says otherwise: JOIN with FN[0] set is JOIN.ret. -/
theorem test_illformed_variant : (Instr.join h0 { zT with fn := 1 }).wellFormed = false := by decide

/-- Encoding then decoding an instruction with every kind of field set. -/
theorem test_round_trip :
    decodeBytes (encodeBytes (.mmar ⟨true, 3, true⟩ ⟨1, 2, 3, 9, 10, 100, 101, 12, 1, 0, 0, 0, 0, 0, 1⟩)) =
      .ok (.mmar ⟨true, 3, true⟩ ⟨1, 2, 3, 9, 10, 100, 101, 12, 1, 0, 0, 0, 0, 0, 1⟩, 12) := by
  decide +kernel

end
end

namespace Sys2Proof.Machine
open Sys2Proof

/-- Every instruction goes through the one issue of R82 and R233, with its own guard, marker and length. -/
theorem exec_eq_issue {i : Instr} {p : Parts} (hp : i.parts = some p) :
    ∃ body, ∀ s, exec i s = issue p.h (lenBytes p.len) body s := by
  cases i
  all_goals simp only [Instr.parts, Option.some.injEq, reduceCtorEq] at hp
  all_goals
    subst hp
    simp only [exec, execVbcast, execVins, execViota, execVrcp, execVrsq, execVexp2, execVlog2, execMld, execMldSc]
    exact ⟨_, fun _ => rfl⟩

/-- A marked instruction that finds results of its task outstanding ends the turn and parks the task (R82). -/
theorem issue_parks {s : State} {h : Head} {len : Nat} {x : Cur} (hc : s.cur? len = some x) (hs : h.s = true)
    (ho : x.k.outstanding x.n = true) (body : Cur → State → Verdict) :
    issue h len body s = .next (s.endTurn x.c x.n .parked) := by
  simp only [issue, hc, hs, ho, Bool.and_self, if_true]

/-- An instruction whose guard does not hold only goes on behind itself, its marker passed (R233, R415). -/
theorem issue_skips {s : State} {h : Head} {len : Nat} {x : Cur} (hc : s.cur? len = some x)
    (ho : h.s = true → x.k.outstanding x.n = false) (hg : guardHolds h x.t = false) (body : Cur → State → Verdict) :
    issue h len body s = .next ((atChecks h s x).transfer x.c x.n (x.pc + len)) := by
  have hp : (h.s && x.k.outstanding x.n) = false := by
    cases hs : h.s
    · rfl
    · exact ho hs
  simp only [issue, hc, hp, hg, Bool.false_eq_true, if_false]
  rfl

/-- The end of a turn changes the slot's state and nothing else of its task. -/
theorem endTurn_slot (s : State) (c n : Nat) (st : SlotState) :
    (s.endTurn c n st).slot c n = { s.slot c n with state := st } := by
  simp only [State.endTurn, State.slot, core_setCore_same]
  exact slot_setSlot_same ..

theorem endTurn_onlyCore (s : State) (c n : Nat) (st : SlotState) : OnlyCore s (s.endTurn c n st) c :=
  ⟨rfl, fun _ hd => core_setCore_other s _ hd, fun _ => rfl⟩

/-- A task that goes on from the checks keeps its registers, predicates and masks. -/
theorem atChecks_transfer_keepsTask {s : State} {h : Head} {len : Nat} {x : Cur} (hc : s.cur? len = some x) (pc : Nat) :
    KeepsTask s ((atChecks h s x).transfer x.c x.n pc) x pc := by
  obtain ⟨hos, hsl, -, -⟩ := atChecks_core (h := h) hc
  have ht : x.t = ((s.core x.c).slot x.n).task := (cur?_eq hc).2.2.2.1
  have htask : (((atChecks h s x).core x.c).slot x.n).task = x.t := by rw [hsl, ht]
  obtain ⟨hgo, htr⟩ := transfer_goesOn hc pc (atChecks_onlyCore h s x) hos (by rw [htask, ht]; exact hsl)
  refine ⟨hgo, ?_, ?_⟩
  all_goals rw [htr, htask]
  · exact ⟨rfl, rfl, rfl, rfl⟩
  · exact fun _ _ _ => ⟨rfl, rfl⟩

/-- Settles O53, through the one issue that every instruction shares. -/
theorem switchMarkerAndGuard : Obligations.SwitchMarkerAndGuard := by
  unfold Obligations.SwitchMarkerAndGuard
  intro i p s x hp hc
  obtain ⟨body, hb⟩ := exec_eq_issue hp
  rw [hb s]
  constructor
  · intro hs ho
    refine ⟨_, issue_parks hc hs ho body, ?_, ?_, endTurn_onlyCore ..⟩
    all_goals rw [endTurn_slot]
    exact (cur?_eq hc).2.2.2.1.symm
  · intro ho hg
    exact ⟨_, issue_skips hc ho hg body, atChecks_transfer_keepsTask hc _⟩

/-- The port at a slot: the core's port names it, and the slot keeps its task. -/
theorem takePort_port (s : State) (c n : Nat) : ((s.takePort c n).core c).port = n := by
  simp only [State.takePort, core_setCore_same]

theorem takePort_task (s : State) (c n : Nat) : (((s.takePort c n).core c).slot n).task = (s.slot c n).task := by
  simp only [State.takePort, core_setCore_same]
  show (((s.core c).setSlot n { (s.core c).slot n with state := .ready }).slot n).task = _
  rw [slot_setSlot_same]
  rfl

theorem takePort_istore (s : State) (c n : Nat) : ((s.takePort c n).core c).istore = (s.core c).istore := by
  simp only [State.takePort, core_setCore_same]
  rfl

/-- The port fetches the instruction at the pc of the slot it has come to (R99, R229, R230). -/
theorem fetch_takePort {s : State} {c n len : Nat} {cap : Capsule} {i : Instr}
    (hpc : (s.slot c n).task.pc.toNat < cap.code.length)
    (hin : (s.core c).istore.contains ((s.slot c n).task.pc.toNat / 32) = true)
    (hd : decodeBytes (cap.codeBytes (s.slot c n).task.pc.toNat (32 - (s.slot c n).task.pc.toNat % 32)) = .ok (i, len)) :
    (s.takePort c n).fetch c cap = .instr i := by
  simp only [State.fetch, takePort_port, takePort_task, takePort_istore, hin, hd, Nat.not_le.2 hpc, if_false, Bool.not_true,
    Bool.false_eq_true]

/-- Settles O59: the agenda's turn by unfolding `step`, the instruction by what the port fetches. -/
theorem stepRunsDecoded : Obligations.StepRunsDecoded := by
  unfold Obligations.StepRunsDecoded
  intro s i
  refine ⟨fun h => ?_, fun clocks c rest h => ?_, fun clocks rest h hi => ?_, fun n len cap hn hcap => ?_⟩
  · simp only [step, h]
  · simp only [step, h]
  · simp only [step, h, hi, if_true]
  · intro pc _ hpc hin hd
    have hf := fetch_takePort hpc hin hd
    simp only [issueStep, hn, hcap]
    rw [show (s.takePort s.actor n).actor = s.actor from rfl, hf]

end Sys2Proof.Machine

/-! # Three statements of the execution family that fail -/

namespace Sys2Proof.Execution

open Sys2Proof Sys2Proof.Machine

/-- The machine with one capsule, and one core of it. -/
def oneCore (cap : Capsule) (k : Core) : State := { State.reset with capsules := [cap], cores := [(0, k)] }

/-- The core of the smallest capsule with its issue port at slot 0, whose task is ready. -/
def portCore : Core := { bootCore with port := 0, portCount := 1 }

/-! ## An issue that draws free values (O54) -/

/-- A sparse extent of one page at capsule address 0; its page vector is the HBM line at 0x100000. -/
def sparseExtent : Extent :=
  { index := 0, allm := true, member := 0, vbase := 0, wrole := 0, len := 2 ^ 21, dbase := 0x100000, sparse := true, ws := false,
    msa := false, guard := true, u := false, x := false, w := true, r := true }
def sparseCapsule : Capsule := { bootCapsule (List.replicate 32 0) with exts := [sparseExtent] }

/-- The line of the page vector stands dirty in its cache slice, where it has an uncorrectable error (level code 6, R409). -/
def vectorInError : State := { oneCore sparseCapsule portCore with bad := [(0x100000 / 64, 6)] }

/-- LD.d g4, [g2]: a load from address 0 of the sparse extent. -/
def loadSparse : Instr := .ld ⟨false, 7, false⟩ ⟨4, 0, 2, 0, 0, 3, 0, 0, 0⟩

/-- The checks of the load read the page vector and meet the error: its line takes 64 free bytes at issue (R437; log 6). -/
theorem loadSparse_overwrites_vector : ∃ t, exec loadSparse vectorInError = .next t ∧
    t.mem = writeBytes vectorInError.mem 0x100000 (freeBytes 0 64) ∧ t.freeCount = vectorInError.freeCount + 1 :=
  ⟨_, rfl, rfl, rfl⟩

/-- Refutes O54: the issue of a load whose translation meets an error in the page vector overwrites the vector's line with free
bytes, and so draws a free value outside a system capsule. -/
theorem not_issueTouchesNoMemory : ¬ Obligations.IssueTouchesNoMemory := by
  unfold Obligations.IssueTouchesNoMemory
  intro h
  obtain ⟨t, ht, -, hfree⟩ := loadSparse_overwrites_vector
  obtain ⟨-, -, -, -, -, -, hsame, -⟩ :=
    h loadSparse vectorInError t ⟨0, 0, portCore, (portCore.slot 0).task, sparseCapsule, 0, 8⟩ 8 rfl rfl ht
  have : t.freeCount = vectorInError.freeCount := hsame rfl
  omega

/-! ## A refused packet at a queue whose lane moves up (O38) -/

/-- A message on class 4 from core 0 to itself, on its way. -/
def message : Packet :=
  { id := 0, inst := 1, src := 0, dest := 0, cls := 4, body := .message 1 0 [], state := .moving, slot := 0, slotSerial := 1
    parks := false, leaves := false, role := 0, order := 0, pc := none }

/-- A queue of 63 packets and an entry reserved for a granted ticket, behind which a packet waits in the overflow lane. -/
def laneCore : Core := { portCore with queue := List.replicate 63 1, tickets := [⟨5, true⟩], lane := [.lane 9] }
def laneWaits : State := { oneCore (bootCapsule []) laneCore with packets := [message], serial := 1 }

theorem message_arrived : Arrived laneWaits message := ⟨rfl, rfl, by decide +kernel, by decide +kernel⟩

/-- As the queue settles behind the refused packet, what waits in the lane takes the entry that holds no packet yet (R98). -/
theorem laneWaits_moves_up : ∃ t, exec (.arrivalQueueEnter 0) laneWaits = .next t ∧ (t.core 0).queue = laneCore.queue ++ [9] :=
  ⟨_, rfl, by decide +kernel⟩

/-- Refutes O38: a packet that takes a ticket of a full queue leaves the queue as it was only when nothing waits in the lane for
an entry that is reserved and still empty. -/
theorem not_networkEvents : ¬ Obligations.NetworkEvents := by
  unfold Obligations.NetworkEvents
  rintro ⟨harrive, -⟩
  obtain ⟨-, hfull, -⟩ := harrive message (bootCapsule []) laneWaits message_arrived rfl rfl (by decide +kernel)
  obtain ⟨t, ht, -, hqueue, -⟩ := hfull (by decide +kernel) (by decide +kernel) (by decide +kernel)
  obtain ⟨u, hu, hmoved⟩ := laneWaits_moves_up
  obtain rfl : t = u := Host.Outcome.next.inj (ht.symm.trans hu)
  have hsame : (t.core 0).queue = laneCore.queue := hqueue
  rw [hmoved] at hsame
  exact absurd hsame (by decide +kernel)

/-! ## A completion under a number that is in use (O39) -/

/-- The report of role 1, which waits under a ticket; its number, 0, is the next that the machine gives out. -/
def report : Packet :=
  { message with cls := 3, body := .barrier 0 1 none, state := .ticketed }

/-- A combining tree of two roles whose phase is due, with the ticket of that report at role 0. -/
def ticketGroup : Group := ⟨3, 1, 1, 1, 0, 0, [0, 1], false, some 0, [], [(1, ⟨0, false⟩)]⟩
def ticketCapsule : Capsule := { bootCapsule [] with groups := [ticketGroup] }
def numberInUse : State := { oneCore ticketCapsule portCore with packets := [report] }

/-- The completion for role 1 is sent under number 0 and is lost: the grant of ticket 0 replaces both packets of that number. -/
theorem numberInUse_loses_completion : ∃ t, exec (.barrierPhaseComplete 1 0) numberInUse = .next t ∧
    t.packets.map (·.body) = [.barrier 0 1 none, .barrier 0 1 none, .grant 0] :=
  ⟨_, rfl, by decide +kernel⟩

/-- Refutes O39: nothing asks that packets are numbered in order, so that the completion which role 0 of a combining tree sends on
may carry the number of a report that waits under a ticket, and be replaced with it. -/
theorem not_barrierEvents : ¬ Obligations.BarrierEvents := by
  unfold Obligations.BarrierEvents
  rintro ⟨-, hphase, -⟩
  obtain ⟨-, htree⟩ := hphase 1 0 0 0 ticketCapsule ticketGroup numberInUse rfl rfl rfl rfl rfl
  obtain ⟨t, ht, -, -, -, hsent⟩ := htree (by decide +kernel)
  obtain ⟨p, hp, -, -, -, -, -, hbody⟩ := hsent 1 (by decide) (by decide) (by decide +kernel)
  obtain ⟨u, hu, hbodies⟩ := numberInUse_loses_completion
  obtain rfl : t = u := Host.Outcome.next.inj (ht.symm.trans hu)
  have hmem := List.mem_map_of_mem (f := (·.body)) hp
  rw [hbodies] at hmem
  simp [hbody] at hmem

end Sys2Proof.Execution

/-! # What the LSU's sending leaves -/

namespace Sys2Proof.Machine

open Sys2Proof

/-- What accesses, packets and fault records that leave their senders do not touch: memory, results, register space, and of the
slots anything but the record of a held task; every access keeps the result that it is due. -/
structure OnlySends (s t : State) : Prop where
  mem : t.mem = s.mem
  results : t.results = s.results
  regs : ∀ c, (t.core c).regs = (s.core c).regs
  slot : ∀ c n, { t.slot c n with hold := (s.slot c n).hold } = s.slot c n
  accesses : ∀ a ∈ t.accesses, ∃ b ∈ s.accesses, b.result = a.result

namespace OnlySends

theorem refl (s : State) : OnlySends s s := ⟨rfl, rfl, fun _ => rfl, fun _ _ => rfl, fun a ha => ⟨a, ha, rfl⟩⟩

theorem trans {s t u : State} (h : OnlySends s t) (g : OnlySends t u) : OnlySends s u where
  mem := g.mem.trans h.mem
  results := g.results.trans h.results
  regs c := (g.regs c).trans (h.regs c)
  slot c n := by rw [← h.slot c n, ← g.slot c n]
  accesses a ha := by
    obtain ⟨b, hb, hba⟩ := g.accesses a ha
    obtain ⟨b', hb', hbb⟩ := h.accesses b hb
    exact ⟨b', hb', hbb.trans hba⟩

theorem foldl {α : Type} {f : State → α → State} (h : ∀ s a, OnlySends s (f s a)) (l : List α) (s : State) :
    OnlySends s (l.foldl f s) := by
  induction l generalizing s with
  | nil => exact refl s
  | cons a l ih => exact (h s a).trans (ih (f s a))

theorem task {s t : State} (h : OnlySends s t) (c n : Nat) : (t.slot c n).task = (s.slot c n).task := by rw [← h.slot c n]

theorem pend {s t : State} (h : OnlySends s t) (c n : Nat) : (t.slot c n).pend = (s.slot c n).pend := by rw [← h.slot c n]

/-- A change outside memory, results, cores and accesses. -/
theorem of_cores_eq {s t : State} (hm : t.mem = s.mem) (hr : t.results = s.results) (hc : t.cores = s.cores)
    (ha : t.accesses = s.accesses) : OnlySends s t := by
  have hcore : ∀ c, t.core c = s.core c := fun c => by simp only [State.core, hc]
  exact ⟨hm, hr, fun c => by rw [hcore], fun c n => by simp only [State.slot, hcore], fun a h => ⟨a, ha ▸ h, rfl⟩⟩

/-- A core that keeps its register space and its slots. -/
theorem setCore {s : State} {c : Nat} {k : Core} (hr : k.regs = (s.core c).regs) (hs : k.slots = (s.core c).slots) :
    OnlySends s (s.setCore c k) := by
  have hcore : ∀ d, ((s.setCore c k).core d).regs = (s.core d).regs ∧ ((s.setCore c k).core d).slots = (s.core d).slots := by
    intro d
    by_cases hd : d = c
    · subst hd; rw [core_setCore_same]; exact ⟨hr, hs⟩
    · rw [core_setCore_other s k hd]; exact ⟨rfl, rfl⟩
  exact ⟨rfl, rfl, fun d => (hcore d).1, fun d n => by simp only [State.slot, Core.slot, (hcore d).2], fun a h => ⟨a, h, rfl⟩⟩

/-- A slot that keeps all but the record of its hold. -/
theorem setHold (s : State) (c n : Nat) (h : Option Hold) : OnlySends s (s.setSlot c n { s.slot c n with hold := h }) := by
  refine ⟨rfl, rfl, fun d => ?_, fun d m => ?_, fun a h => ⟨a, h, rfl⟩⟩
  all_goals by_cases hd : d = c
  · subst hd; rw [State.setSlot, core_setCore_same]; rfl
  · rw [State.setSlot, core_setCore_other _ _ hd]
  · subst hd
    simp only [State.slot, State.setSlot, core_setCore_same]
    by_cases hm : m % 8 = n % 8
    · rw [← slot_mod _ m, ← slot_mod (s.core d) m, hm, slot_mod, slot_mod, slot_setSlot_same]
    · rw [slot_setSlot_other _ _ hm]
  · simp only [State.slot, State.setSlot, core_setCore_other _ _ hd]

/-- Accesses that each keep a result which stands. -/
theorem mapAccesses {s : State} {f : Access → Access} (h : ∀ b ∈ s.accesses, ∃ b' ∈ s.accesses, b'.result = (f b).result) :
    OnlySends s { s with accesses := s.accesses.map f } := by
  refine ⟨rfl, rfl, fun _ => rfl, fun _ _ => rfl, fun a ha => ?_⟩
  obtain ⟨b, hb, rfl⟩ := List.mem_map.1 ha
  exact h b hb

theorem setAccess {s : State} {a : Access} (h : ∃ b ∈ s.accesses, b.result = a.result) : OnlySends s (s.setAccess a) := by
  refine mapAccesses fun b hb => ?_
  split
  · exact h
  · exact ⟨b, hb, rfl⟩

theorem stopFills {s t : State} (h : OnlySends s t) (core line : Nat) : OnlySends s (t.stopFills core line) := by
  refine h.trans (mapAccesses fun b hb => ⟨b, hb, ?_⟩)
  split <;> rfl

theorem dropOwnPort {s t : State} (h : OnlySends s t) (a : Access) : OnlySends s (t.dropOwnPort a) := by
  unfold State.dropOwnPort
  split
  · exact h
  · exact h.trans (of_cores_eq rfl rfl rfl rfl)

/-- A core whose first-level cache alone changes. -/
theorem setL1 (s : State) (c : Nat) (l1 : List L1Line) : OnlySends s (s.setCore c { s.core c with l1 := l1 }) := setCore rfl rfl

theorem leave (s : State) (a : Access) : OnlySends s (s.leave a) := by
  unfold State.leave
  split
  · unfold State.leaveBy
    split
    · exact of_cores_eq rfl rfl rfl rfl
    · exact refl s
  · exact refl s

theorem dropL1Bad (s : State) (core addr : Nat) : OnlySends s (s.dropL1Bad core addr) := by
  unfold State.dropL1Bad
  split
  · have hbad : OnlySends s { s with bad := SMap.put s.bad (addr / 64) 0 } := of_cores_eq rfl rfl rfl rfl
    have hdrop := hbad.trans (setL1 _ core ((s.core core).l1.filter fun l => l.line != addr / 64))
    exact hdrop.trans (of_cores_eq rfl rfl rfl rfl)
  · exact refl s

end OnlySends

/-- What is sent before an access takes its new state: no access changes. -/
def State.departing (s : State) (a : Access) : State :=
  ((if s.cacheable a.addr a.msa && (a.op == .load || a.op == .store) then s.dropL1Bad a.core a.addr else s).leave a).tick

theorem departing_onlySends (s : State) (a : Access) : OnlySends s (s.departing a) := by
  unfold State.departing
  refine .trans ?_ ((OnlySends.leave _ a).trans (.of_cores_eq rfl rfl rfl rfl))
  split
  · exact .dropL1Bad ..
  · exact .refl s

theorem dropL1Bad_accesses (s : State) (core addr : Nat) : (s.dropL1Bad core addr).accesses = s.accesses := by
  unfold State.dropL1Bad
  split <;> rfl

theorem leave_accesses (s : State) (a : Access) : (s.leave a).accesses = s.accesses := by
  unfold State.leave
  split
  · unfold State.leaveBy
    split <;> rfl
  · rfl

theorem departing_accesses (s : State) (a : Access) : (s.departing a).accesses = s.accesses := by
  unfold State.departing
  refine (leave_accesses _ a).trans ?_
  split
  · exact dropL1Bad_accesses ..
  · rfl

/-- An access that is sent (R150, R169). -/
theorem send_onlySends {s : State} {a : Access} (ha : a ∈ s.accesses) : OnlySends s (s.send a) := by
  have hdue : ∃ b ∈ (s.departing a).accesses, b.result = a.result := ⟨a, by rwa [departing_accesses], rfl⟩
  refine (departing_onlySends s a).trans ?_
  simp only [State.send]
  rw [show State.tick _ = s.departing a from rfl]
  generalize s.departing a = d at hdue ⊢
  split
  case h_1 =>
    split
    next l _ => exact (OnlySends.setL1 d a.core (l1Put (d.core a.core).l1 l)).trans (.setAccess hdue)
    next => exact .setAccess hdue
  case h_2 => exact .setAccess hdue
  case h_3 =>
    split
    · refine .dropOwnPort (.stopFills (.trans (.setAccess ?_) (.setCore ?_ ?_)) ..) _
      exacts [hdue, rfl, rfl]
    · exact .setAccess hdue
  case h_4 =>
    split
    · refine .dropOwnPort (.stopFills (.trans (.setAccess ?_) (.setCore ?_ ?_)) ..) _
      exacts [hdue, rfl, rfl]
    · exact .setAccess hdue

/-- What may leave a core's LSU leaves (R169, R175). -/
theorem pump_onlySends (s : State) (c : Nat) : OnlySends s (s.pump c) := by
  unfold State.pump
  refine .foldl (fun s id => ?_) _ s
  split
  next a h =>
    split
    · exact send_onlySends (List.mem_of_find?_eq_some h)
    · exact .refl s
  next p _ _ =>
    split
    · exact .of_cores_eq rfl rfl rfl rfl
    · exact .refl s
  next => exact .refl s

theorem sendRecord_onlySends (s : State) (cap : Capsule) (c : Nat) (r : FaultRec) (late : Bool) :
    OnlySends s (s.sendRecord cap c r late) := .of_cores_eq rfl rfl rfl rfl

/-- The faults that waited for results leave (R401, R411). -/
theorem flushFaults_onlySends (cap : Capsule) (c : Nat) (q : List FaultItem) (s : State) :
    OnlySends s (State.flushFaults cap c q s) := by
  induction q generalizing s with
  | nil => exact .setCore rfl rfl
  | cons i q ih =>
    cases i with
    | record r late => exact (sendRecord_onlySends ..).trans (ih _)
    | held n late =>
      unfold State.flushFaults
      split
      · exact ih s
      · split
        · exact ih s
        · split
          · exact .setCore rfl rfl
          · exact ((OnlySends.setHold ..).trans (sendRecord_onlySends ..)).trans (ih _)

theorem sendHeld_onlySends (s : State) (c : Nat) : OnlySends s (s.sendHeld c) := by
  unfold State.sendHeld
  split
  · split
    · exact .refl s
    · exact flushFaults_onlySends ..
  · exact .refl s

end Sys2Proof.Machine

/-! # What the writing of a result does (R82, R165) -/

namespace Sys2Proof.Machine

open Sys2Proof

/-! ## Registers that take words in order -/

/-- Registers from `d` upward take the words of a list. -/
def Task.setRegs (t : Task) (d : Nat) : List (Word × Bool) → Task
  | [] => t
  | w :: ws => (t.setReg d w.1 w.2).setRegs (d + 1) ws

/-- The words of a result are written in their order. -/
theorem foldl_setReg_eq_setRegs (ws : List (Word × Bool)) (d k : Nat) (t : Task) :
    (ws.zipIdx k).foldl (fun (t : Task) w => t.setReg (d + w.2) w.1.1 w.1.2) t = t.setRegs (d + k) ws := by
  induction ws generalizing k t with
  | nil => rfl
  | cons w ws ih => exact ih (k + 1) _

theorem setRegs_sameStatus (t : Task) (d : Nat) (ws : List (Word × Bool)) : SameStatus t (t.setRegs d ws) := by
  induction ws generalizing t d with
  | nil => exact ⟨rfl, rfl, rfl, rfl⟩
  | cons w ws ih => exact ih (t.setReg d w.1 w.2) (d + 1)

theorem setRegs_other (t : Task) {d r : Nat} {ws : List (Word × Bool)} (hd : d + ws.length ≤ 16) (hr : r < 16)
    (hout : r < d ∨ d + ws.length ≤ r) : (t.setRegs d ws).reg r = t.reg r ∧ (t.setRegs d ws).regGuard r = t.regGuard r := by
  induction ws generalizing t d with
  | nil => exact ⟨rfl, rfl⟩
  | cons w ws ih =>
    rw [List.length_cons] at hd hout
    have hne : r % 16 ≠ d % 16 := by omega
    obtain ⟨hreg, hguard⟩ := ih (t.setReg d w.1 w.2) (d := d + 1) (by omega) (by omega)
    exact ⟨hreg.trans (reg_setReg_other t _ _ hne), hguard.trans (regGuard_setReg_other t _ _ hne)⟩

theorem setRegs_at (t : Task) {d i : Nat} {ws : List (Word × Bool)} (hd : d + ws.length ≤ 16) (hi : i < ws.length) :
    (t.setRegs d ws).reg (d + i) = ws[i].1 ∧ (t.setRegs d ws).regGuard (d + i) = ws[i].2 := by
  induction ws generalizing t d i with
  | nil => exact absurd hi (Nat.not_lt_zero i)
  | cons w ws ih =>
    rw [List.length_cons] at hd hi
    cases i with
    | zero =>
      obtain ⟨hreg, hguard⟩ := setRegs_other (t.setReg d w.1 w.2) (d := d + 1) (r := d) (ws := ws) (by omega) (by omega) (by omega)
      exact ⟨hreg.trans (reg_setReg_same ..), hguard.trans (regGuard_setReg_same ..)⟩
    | succ i =>
      have hat := ih (t.setReg d w.1 w.2) (d := d + 1) (i := i) (by omega) (by omega)
      rw [show d + 1 + i = d + (i + 1) by omega] at hat
      exact hat

/-- The pending bits of a result's registers are clear once it is written. -/
theorem foldl_setBit16_false (v : BitVec 16) {d n i : Nat} (hd : d + n ≤ 16) (hi : i < n) :
    ((List.range n).foldl (fun v i => setBit16 v (d + i) false) v).getLsbD (d + i) = false := by
  induction n with
  | zero => exact absurd hi (Nat.not_lt_zero i)
  | succ n ih =>
    rw [List.range_succ, List.foldl_append, List.foldl_cons, List.foldl_nil]
    by_cases h : i = n
    · subst h; exact setBit16_same _ _ _ (by omega)
    · rw [setBit16_other _ _ (by omega)]; exact ih (by omega) (by omega)

/-- One word of `z` bytes of a part, sign-extended when asked. -/
def partWord (b : List Byte) (z : Nat) (sx : Bool) (i : Nat) : Word :=
  let v := leNat ((b.drop (i * z)).take z)
  BitVec.ofInt 64 (if sx then toSigned (8 * z) v else v)

/-- A single part of `n` words brings these, each with the guard bit of the part. -/
theorem take_regWords_single {b : List Byte} {n z : Nat} (hz : 0 < z) (hb : b.length = n * z) (g sx : Bool) :
    (regWords [(b, g)] z sx).take n = (List.range n).map fun i => (partWord b z sx i, g) := by
  have hlen : b.length / z = n := by rw [hb, Nat.mul_div_cancel _ hz]
  have hw : regWords [(b, g)] z sx = (List.range n).map fun i => (partWord b z sx i, g) := by
    simp only [regWords, List.flatMap_cons, List.flatMap_nil, List.append_nil, hlen]
    rfl
  rw [hw, List.take_of_length_le (by simp)]

/-! ## Bytes of a granule -/

theorem leNat_lt (l : List Byte) : leNat l < 2 ^ (8 * l.length) := by
  induction l with
  | nil => exact Nat.one_pos
  | cons b l ih =>
    have hb := b.isLt
    rw [List.length_cons, show 2 ^ (8 * (l.length + 1)) = 256 * 2 ^ (8 * l.length) by rw [Nat.mul_add, Nat.pow_add]; omega]
    simp only [leNat]
    omega

/-- Byte `i` of a little-endian value is byte `i` of the list (R3). -/
theorem ofNat_leNat_div {l : List Byte} {i : Nat} (hi : i < l.length) : BitVec.ofNat 8 (leNat l / 2 ^ (8 * i)) = l[i] := by
  induction l generalizing i with
  | nil => exact absurd hi (Nat.not_lt_zero i)
  | cons b l ih =>
    have hb := b.isLt
    simp only [leNat]
    cases i with
    | zero => apply BitVec.eq_of_toNat_eq; simp; omega
    | succ i =>
      have hdiv : (b.toNat + 256 * leNat l) / 2 ^ (8 * (i + 1)) = leNat l / 2 ^ (8 * i) := by
        rw [show 2 ^ (8 * (i + 1)) = 256 * 2 ^ (8 * i) by rw [Nat.mul_add, Nat.pow_add]; omega, ← Nat.div_div_eq_div_mul]
        congr 1
        omega
      rw [hdiv]
      exact ih (Nat.lt_of_succ_lt_succ hi)

/-- The bytes of a granule that holds the value of 64 bytes. -/
theorem spaceByte_of_granule {k : Core} {n i : Nat} {l : List Byte} {g : Bool} (hl : l.length = 64) (hi : i < 64)
    (hk : k.granule n = ⟨BitVec.ofNat 512 (leNat l), g⟩) : k.spaceByte (64 * n + i) = l[i] := by
  have hlt := leNat_lt l
  rw [hl] at hlt
  simp only [Core.spaceByte, show (64 * n + i) / 64 = n by omega, show (64 * n + i) % 64 = i by omega, hk,
    BitVec.toNat_ofNat, Nat.mod_eq_of_lt hlt]
  exact ofNat_leNat_div (by omega)

/-- The 64 bytes that a granule holds after a masked write. -/
def Core.mergedBytes (k : Core) (n : Nat) (bytes : List (Option Byte)) : List Byte :=
  (List.range 64).map fun i => (bytes.getD i none).getD (k.spaceByte (64 * n + i))

/-- A masked write of any byte puts one granule: its bytes, and the guard bit of the write alone where it is whole (R117). -/
theorem writeMasked_regs (k : Core) (n : Nat) {bytes : List (Option Byte)} (g half : Bool) (h : bytes.any (·.isSome) = true) :
    (k.writeMasked n bytes g half).regs = SMap.put k.regs n ⟨BitVec.ofNat 512 (leNat (k.mergedBytes n bytes)),
      if ((List.range 64).all fun i => (bytes.getD i none).isSome) && !half then g else (k.granule n).guard || g⟩ := by
  have hold : k.mergedBytes n bytes = (List.range 64).map fun i =>
      (bytes.getD i none).getD (BitVec.ofNat 8 ((k.granule n).data.toNat / 2 ^ (8 * i))) := by
    refine List.map_congr_left fun i hi => ?_
    rw [List.mem_range] at hi
    simp only [Core.spaceByte, show (64 * n + i) / 64 = n by omega, show (64 * n + i) % 64 = i by omega, BitVec.natCast_eq_ofNat]
  rw [hold]
  simp only [Core.writeMasked, h, if_true]

theorem writeMasked_none (k : Core) (n : Nat) {bytes : List (Option Byte)} (g half : Bool) (h : bytes.any (·.isSome) = false) :
    k.writeMasked n bytes g half = k := by
  simp only [Core.writeMasked, h, Bool.false_eq_true, if_false]

theorem writeMasked_granule_other (k : Core) {n m : Nat} (bytes : List (Option Byte)) (g half : Bool) (h : m ≠ n) :
    (k.writeMasked n bytes g half).granule m = k.granule m := by
  cases hany : bytes.any (·.isSome)
  · rw [writeMasked_none k n g half hany]
  · rw [Core.granule, writeMasked_regs k n g half hany, SMap.get_put_other _ _ _ h, Core.granule]

theorem getD_none_of_any_false {bytes : List (Option Byte)} (h : bytes.any (·.isSome) = false) (i : Nat) :
    bytes.getD i none = none := by
  rw [List.getD_eq_getElem?_getD]
  cases hb : bytes[i]? with
  | none => rfl
  | some b => simpa using List.any_eq_false.1 h b (List.mem_of_getElem? hb)

theorem writeMasked_spaceByte (k : Core) (n : Nat) (bytes : List (Option Byte)) (g half : Bool) {i : Nat} (hi : i < 64) :
    (k.writeMasked n bytes g half).spaceByte (64 * n + i) = (bytes.getD i none).getD (k.spaceByte (64 * n + i)) := by
  cases hany : bytes.any (·.isSome)
  · rw [writeMasked_none k n g half hany, getD_none_of_any_false hany]
    rfl
  · have hlen : (k.mergedBytes n bytes).length = 64 := by simp [Core.mergedBytes]
    rw [spaceByte_of_granule hlen hi (by rw [Core.granule, writeMasked_regs k n g half hany, SMap.get_put_same])]
    simp only [Core.mergedBytes, List.getElem_map, List.getElem_range]

theorem writeMasked_guard_whole (k : Core) (n : Nat) (bytes : List (Option Byte)) (g : Bool)
    (hw : ∀ i, i < 64 → (bytes.getD i none).isSome = true) : ((k.writeMasked n bytes g).granule n).guard = g := by
  have hany : bytes.any (·.isSome) = true := by
    by_contra hnot
    have h0 := hw 0 (by decide)
    rw [getD_none_of_any_false (Bool.eq_false_of_not_eq_true hnot)] at h0
    exact absurd h0 (by decide)
  have hall : ((List.range 64).all fun i => (bytes.getD i none).isSome) = true :=
    List.all_eq_true.2 fun i hi => hw i (List.mem_range.1 hi)
  rw [Core.granule, writeMasked_regs k n g false hany, SMap.get_put_same, hall]
  rfl

/-- The bytes of a line that its mask names. -/
def maskedLine (m : BitVec 64) (b : List Byte) : List (Option Byte) :=
  (List.range 64).map fun i => if m.getLsbD i then b[i]? else none

theorem maskedLine_getD (m : BitVec 64) {b : List Byte} {i : Nat} (hb : b.length = 64) (hi : i < 64) :
    (maskedLine m b).getD i none = if m.getLsbD i then some (b.getD i 0) else none := by
  simp [maskedLine, hi, hb]

/-- The line of a part that fills one granule, under its mask. -/
theorem granuleParts_single (n : Nat) (m : BitVec 64) (b : List Byte) (g : Bool) :
    granuleParts [(64 * n, m)] [(b, g)] n = (maskedLine m b, g) := by
  have hdiv : 64 * n / 64 = n := by omega
  have hmod : 64 * n % 64 = 0 := by omega
  simp only [granuleParts, List.zip_cons_cons, List.zip_nil_right, List.filter_cons, hdiv, decide_true, if_true, List.filter_nil,
    List.find?_cons, List.find?_nil, hmod, Nat.zero_le, Bool.true_and, Nat.sub_zero, List.any_cons, List.any_nil, Bool.or_false]
  congr 1
  refine List.map_congr_left fun i _ => ?_
  cases m.getLsbD i
  · rfl
  · simp only [Option.bind_some, hmod, Nat.sub_zero, if_true]

end Sys2Proof.Machine

/-! # A result is written when its value is in (O36) -/

namespace Sys2Proof.Machine

open Sys2Proof

/-- The writing of a result touches nothing but the results and the cores. -/
theorem writeResult_eq (s : State) (r : Result) : s.writeResult r =
    { s with results := s.results.filter fun q => q.id != r.id, cores := (s.writeResult r).cores } := by
  unfold State.writeResult
  cases r.dst with
  | regs d n z sx => dsimp only; split <;> rfl
  | space cells => rfl
  | none => rfl

/-- The slot of a task whose result goes to registers, once it is written. -/
theorem slot_writeResult_regs {s : State} {r : Result} {d n z : Nat} {sx g : Bool} {b : List Byte} (hd : r.dst = .regs d n z sx)
    (hp : r.parts = [some (b, g)]) (hs : (s.slot r.core r.slot).serial = r.slotSerial) (hr : r.dropped = false) :
    (s.writeResult r).slot r.core r.slot = { s.slot r.core r.slot with
      task := (s.slot r.core r.slot).task.setRegs d ((regWords [(b, g)] z sx).take n)
      pend := (List.range n).foldl (fun v i => setBit16 v (d + i) false) (s.slot r.core r.slot).pend } := by
  have hs' : ((s.core r.core).slot r.slot).serial = r.slotSerial ∧ r.dropped = false := ⟨hs, hr⟩
  have hset (u : State) (k : Core) (sl : Slot) : (u.setCore r.core (k.setSlot r.slot sl)).slot r.core r.slot = sl := by
    rw [State.slot, core_setCore_same, slot_setSlot_same]
  simp only [State.writeResult, hd]
  split
  · rw [hset, foldl_setReg_eq_setRegs, hp]
    rfl
  · next hno => exact absurd hs' hno

/-- Register space of the core whose result is the line of one granule, once it is written. -/
theorem regs_writeResult_space {s : State} {r : Result} {n : Nat} {m : BitVec 64} {g : Bool} {b : List Byte}
    (hd : r.dst = .space [(64 * n, m)]) (hp : r.parts = [some (b, g)]) (hg : r.grans = [n]) :
    ((s.writeResult r).core r.core).regs =
      ((s.core r.core).writeMasked n (maskedLine m b) g).regs := by
  simp only [State.writeResult, hd, hg, core_setCore_same, List.foldl_cons, List.foldl_nil, Core.unpendGranules, hp]
  rw [show List.filterMap id [some (b, g)] = [(b, g)] from rfl, granuleParts_single]
  rfl

/-- The access brings a part of result `id`. -/
def Access.bringsTo (id : Nat) (a : Access) : Bool := match a.result with
  | some (q, _) => q == id
  | none => false

/-- A result written and its accesses gone, before anything leaves the core's LSU. -/
def State.resultWritten (s : State) (id : Nat) (r : Result) : State :=
  { s.writeResult r with accesses := (s.writeResult r).accesses.filter fun a => !a.bringsTo id }

/-- The writing of a result whose parts are in: what leaves the core's LSU behind it touches neither memory nor what the result wrote. -/
theorem exec_pendingResultWrite {id : Nat} {r : Result} {s : State} (hf : s.results.find? (fun q => q.id == id) = some r)
    (hp : r.parts.all (·.isSome) = true) :
    ∃ t, exec (.pendingResultWrite id) s = .next t ∧ OnlySends (s.resultWritten id r) t := by
  refine ⟨_, ?_, (pump_onlySends _ r.core).trans (sendHeld_onlySends _ r.core)⟩
  simp only [exec, execPendingResultWrite, hf, event, hp, if_true]
  rfl

section
variable {id : Nat} {r : Result} {s t : State} (hf : s.results.find? (fun q => q.id == id) = some r)
  (ht : OnlySends (s.resultWritten id r) t)
include ht

theorem sameMemory_of_written : SameMemory s t := fun a => by
  have hmem : (s.writeResult r).mem = s.mem := by rw [writeResult_eq]
  rw [show t.mem = s.mem from ht.mem.trans hmem]

include hf in
theorem results_of_written : ∀ q ∈ t.results, q.id ≠ id := by
  have hid : r.id = id := by simpa using List.find?_some hf
  have hres : (s.resultWritten id r).results = s.results.filter fun q => q.id != r.id :=
    congrArg State.results (writeResult_eq s r)
  intro q hq
  rw [ht.results, hres, hid] at hq
  simpa using (List.mem_filter.1 hq).2

theorem accesses_of_written : ∀ a ∈ t.accesses, ∀ j, a.result ≠ some (id, j) := by
  intro a ha j hj
  obtain ⟨b, hb, hba⟩ := ht.accesses a ha
  have hmine := (List.mem_filter.1 hb).2
  simp [Access.bringsTo, hba, hj] at hmine

end

/-- Settles O36: the writing sets the registers of the part or merges its line into the granule, and what leaves the LSU afterwards
keeps memory, registers and register space. -/
theorem resultWrites : Obligations.ResultWrites := by
  unfold Obligations.ResultWrites
  constructor
  · intro id d n z sx g b r s hf hd hp hz hb hn hs hr
    obtain ⟨t, hexec, ht⟩ := exec_pendingResultWrite hf (by rw [hp]; rfl)
    have hslot := slot_writeResult_regs hd hp hs hr
    rw [take_regWords_single hz hb] at hslot
    have htask := (ht.task r.core r.slot).trans (congrArg Slot.task hslot)
    have hpend := (ht.pend r.core r.slot).trans (congrArg Slot.pend hslot)
    refine ⟨t, hexec, sameMemory_of_written ht, results_of_written hf ht, ⟨?_, ?_, ?_⟩, accesses_of_written ht⟩
    · rw [htask]; exact setRegs_sameStatus ..
    · intro q hq hout
      rw [htask]
      refine setRegs_other _ (by simpa using hn) hq ?_
      simp only [List.length_map, List.length_range]
      by_contra hin
      exact hout (List.mem_map.2 ⟨q - d, List.mem_range.2 (by omega), by omega⟩)
    · intro i hi
      have hat := setRegs_at (s.slot r.core r.slot).task (d := d) (i := i)
        (ws := (List.range n).map fun i => (partWord b z sx i, g)) (by simpa using hn) (by simpa using hi)
      rw [List.getElem_map, List.getElem_range] at hat
      obtain ⟨hreg, hguard⟩ := hat
      rw [htask, hpend]
      exact ⟨hreg, hguard, foldl_setBit16_false _ hn hi⟩
  · intro id n m g b r s hf hd hp hb hg
    obtain ⟨t, hexec, ht⟩ := exec_pendingResultWrite hf (by rw [hp]; rfl)
    have hregs := (ht.regs r.core).trans (regs_writeResult_space hd hp hg)
    have hgran : ∀ k, (t.core r.core).granule k = ((s.core r.core).writeMasked n (maskedLine m b) g).granule k := fun k => by
      rw [Core.granule, hregs, Core.granule]
    refine ⟨t, hexec, sameMemory_of_written ht, results_of_written hf ht, ?_, ?_, ?_⟩
    · intro i hi
      rw [Core.spaceByte, hgran, ← Core.spaceByte, writeMasked_spaceByte _ _ _ _ _ hi, maskedLine_getD m hb hi]
      cases m.getLsbD i <;> rfl
    · intro hm
      rw [hgran]
      refine writeMasked_guard_whole _ _ _ _ fun i hi => ?_
      rw [maskedLine_getD m hb hi, hm, BitVec.getLsbD_allOnes, decide_eq_true hi]
      rfl
    · intro k hk
      rw [hgran, writeMasked_granule_other _ _ _ _ hk]

end Sys2Proof.Machine

/-! # A commit starts every core of the gang with its seeds (O46) -/

namespace Sys2Proof.Machine

open Sys2Proof

/-! ## What a fold over a state keeps and what it reaches -/

/-- What no step of a fold changes, the fold does not change. -/
theorem foldl_keeps {α β : Type} (g : State → β) {f : State → α → State} (h : ∀ s a, g (f s a) = g s) (l : List α)
    (s : State) : g (l.foldl f s) = g s := by
  induction l generalizing s with
  | nil => rfl
  | cons a l ih => exact (ih (f s a)).trans (h s a)

/-- What one step of a fold brings about and every step keeps holds behind the fold. -/
theorem foldl_reaches {α : Type} {P : State → Prop} {f : State → α → State} (keep : ∀ s a, P s → P (f s a)) {l : List α}
    {a : α} (ha : a ∈ l) (reach : ∀ s, P (f s a)) (s : State) : P (l.foldl f s) := by
  induction l generalizing s with
  | nil => simp at ha
  | cons b l ih =>
    rcases List.mem_cons.1 ha with rfl | hl
    · exact List.foldlRecOn l f (reach s) fun t ht b _ => keep t b ht
    · exact ih hl (f s b)

/-! ## Capsules -/

theorem capsule?_inst {s : State} {inst : Nat} {cap : Capsule} (h : s.capsule? inst = some cap) : cap.inst = inst := by
  simpa using List.find?_some h

theorem capsule?_setCapsule {s : State} {inst : Nat} {cap c : Capsule} (h : s.capsule? inst = some cap) (hc : c.inst = inst) :
    (s.setCapsule c).capsule? inst = some c := by
  have hsame : ((fun d : Capsule => d.inst == inst) ∘ fun d => if d.inst = c.inst then c else d) = fun d => d.inst == inst := by
    funext d
    by_cases hd : d.inst = inst <;> simp [hd, hc]
  have hfind : s.capsules.find? (fun d => d.inst == inst) = some cap := h
  rw [State.capsule?, State.setCapsule, List.find?_map, hsame, hfind, Option.map_some, if_pos ((capsule?_inst h).trans hc.symm)]

/-! ## Cores set one after another -/

theorem core_foldl_setCore_other (f : Nat × Nat → Core) {l : List (Nat × Nat)} {c : Nat} (hc : c ∉ l.map Prod.fst) (s : State) :
    (l.foldl (fun s e => s.setCore e.1 (f e)) s).core c = s.core c :=
  List.foldlRecOn (motive := fun t : State => t.core c = s.core c) l _ rfl fun t ht e he =>
    (core_setCore_other t _ fun h : c = e.1 => hc (h ▸ List.mem_map_of_mem he)).trans ht

theorem core_foldl_setCore (f : Nat × Nat → Core) {l : List (Nat × Nat)} (hl : (l.map Prod.fst).Nodup) {e : Nat × Nat} (he : e ∈ l)
    (s : State) : (l.foldl (fun s e => s.setCore e.1 (f e)) s).core e.1 = f e := by
  induction l generalizing s with
  | nil => simp at he
  | cons d l ih =>
    obtain ⟨hd, hl⟩ := List.nodup_cons.1 hl
    rcases List.mem_cons.1 he with rfl | he
    · exact (core_foldl_setCore_other f hd _).trans (core_setCore_same ..)
    · exact ih hl he _

/-! ## Seeds -/

/-- The packet is the seed of member `m` on core `c`, which has role `role` (R111, R212). -/
structure Packet.IsSeed (p : Packet) (h : Header) (role c m : Nat) : Prop where
  dest : p.dest = c
  cls : p.cls = 2
  moving : p.state = .moving
  body : p.body = .task (seedTask h role m) none false

theorem mem_packets_sendSeeds {s : State} {p : Packet} (hp : p ∈ s.packets) (cap : Capsule) (role c : Nat) :
    p ∈ (s.sendSeeds cap role c).packets :=
  List.foldlRecOn (motive := fun t : State => p ∈ t.packets) _ _ hp fun _ ht _ _ => List.mem_append_left _ ht

theorem sendSeeds_sends (s : State) (cap : Capsule) (role c : Nat) {m : Nat} (hm : m < cap.members.length) :
    ∃ p ∈ (s.sendSeeds cap role c).packets, p.IsSeed cap.hdr role c m :=
  foldl_reaches (P := fun t => ∃ p ∈ t.packets, p.IsSeed cap.hdr role c m)
    (fun _ _ ⟨p, hp, hseed⟩ => ⟨p, List.mem_append_left _ hp, hseed⟩) (List.mem_range.2 hm)
    (fun _ => ⟨_, List.mem_append_right _ (List.mem_singleton_self _), ⟨rfl, rfl, rfl, rfl⟩⟩) s

/-- What no packet changes, the seeds of a core do not change. -/
theorem sendSeeds_keeps {β : Type} (g : State → β) (h : ∀ s p, g (s.sendPacket p) = g s) (s : State) (cap : Capsule) (role c : Nat) :
    g (s.sendSeeds cap role c) = g s :=
  foldl_keeps g (fun s _ => h s _) (List.range cap.members.length) s

theorem seedTask_regs (h : Header) (role m : Nat) :
    (seedTask h role m).reg 0 = BitVec.ofNat 64 role ∧ (seedTask h role m).reg 1 = BitVec.ofNat 64 (argWindow + 2048 * m) ∧
      (seedTask h role m).reg 2 = BitVec.ofNat 64 m := by
  simp only [seedTask]
  refine ⟨?_, ?_, reg_setReg_same ..⟩
  · rw [reg_setReg_other _ _ _ (by decide), reg_setReg_other _ _ _ (by decide), reg_setReg_same]
  · rw [reg_setReg_other _ _ _ (by decide), reg_setReg_same]

/-! ## The commit -/

/-- A state without the fields that a commit writes beside its capsule: two states that agree here differ in those alone. -/
def State.besideCommit (s : State) : State :=
  { s with serial := 0, cores := [], mem := [], bad := [], cross := [], stock := [], packets := [], plaza := Plaza.reset }

/-- The capsule as its commit leaves it. -/
def State.committed (s : State) (cap : Capsule) (groups : List Group) : Capsule :=
  { cap with groups := groups, stage := .running, holders := s.launchHolders cap, onzId := s.host.onzId }

/-- The commit up to the weight store: the capsule runs, and the banks that it stocks are cleared. -/
def State.stocked (s : State) (cap : Capsule) (groups : List Group) : State :=
  (cap.stockBanks s.pkgId).foldl (fun s b => s.stockBank cap.hdr.owner b.1 b.2) (s.setCapsule (s.committed cap groups)).tick

/-- The cores of a gang with their roles. -/
def gangOf (groups : List Group) : List (Nat × Nat) := (groups.headD (groupAt [] 0)).cores.zipIdx

/-- The commit up to the cores: each is set for its role. -/
def State.gangSet (s : State) (cap : Capsule) (groups : List Group) : State :=
  (gangOf groups).foldl
    (fun (t : State) e => t.setCore e.1 (launchCore (s.committed cap groups) groups (s.serial + 1) e.2 e.1)) (s.stocked cap groups)

section
variable (s : State) (cap : Capsule) (groups : List Group)

/-- The commit sends the seeds behind the setting of the cores. -/
theorem commit_eq : s.commit cap groups =
    ((gangOf groups).foldl (fun t e => t.sendSeeds (s.committed cap groups) e.2 e.1) (s.gangSet cap groups)).prunePosts := rfl

theorem commit_cores : (s.commit cap groups).cores = (s.gangSet cap groups).cores := by
  rw [commit_eq]
  exact foldl_keeps State.cores (fun t _ => sendSeeds_keeps State.cores (fun _ _ => rfl) t ..) _ _

theorem commit_besideCommit : (s.commit cap groups).besideCommit = (s.setCapsule (s.committed cap groups)).besideCommit := by
  have hbanks : (s.stocked cap groups).besideCommit = (s.setCapsule (s.committed cap groups)).besideCommit :=
    foldl_keeps State.besideCommit (by intros; rfl) _ _
  have hset : (s.gangSet cap groups).besideCommit = (s.stocked cap groups).besideCommit :=
    foldl_keeps State.besideCommit (by intros; rfl) _ _
  rw [← hbanks, ← hset, commit_eq]
  exact foldl_keeps State.besideCommit (fun t _ => sendSeeds_keeps State.besideCommit (fun _ _ => rfl) t ..) _ _

theorem commit_host : (s.commit cap groups).host = s.host := (congrArg State.host (commit_besideCommit s cap groups) :)

theorem commit_stag : (s.commit cap groups).stag = s.stag := (congrArg State.stag (commit_besideCommit s cap groups) :)

theorem commit_capsules : (s.commit cap groups).capsules = (s.setCapsule (s.committed cap groups)).capsules :=
  (congrArg State.capsules (commit_besideCommit s cap groups) :)

variable {s cap groups}

theorem commit_capsule? {inst : Nat} (h : s.capsule? inst = some cap) :
    (s.commit cap groups).capsule? inst = some (s.committed cap groups) := by
  rw [State.capsule?, commit_capsules]
  exact capsule?_setCapsule h (capsule?_inst h :)

/-- Only a stocking launch clears memory (R156). -/
theorem commit_mem (h : cap.hdr.stock = false) : (s.commit cap groups).mem = s.mem := by
  have hbanks : (s.stocked cap groups).mem = s.mem := by simp [State.stocked, Capsule.stockBanks, h]
  have hset : (s.gangSet cap groups).mem = (s.stocked cap groups).mem := foldl_keeps State.mem (by intros; rfl) _ _
  rw [← hbanks, ← hset, commit_eq]
  exact foldl_keeps State.mem (fun t _ => sendSeeds_keeps State.mem (fun _ _ => rfl) t ..) _ _

/-- A scratchpad line of this package under another residency tag reads zeros behind the commit too (R160). -/
theorem commit_readDev_foreign {b : Bearer} {a : Nat} (hspace : devSpace a = 2) (hpkg : devPkg a = s.pkgId)
    (hres : s.resident b a = false) (n : Nat) : (s.commit cap groups).readDev b a n = List.replicate n 0 := by
  have hpkg' : devPkg a = (s.commit cap groups).pkgId := by rw [State.pkgId, commit_host]; exact hpkg
  have hres' : (s.commit cap groups).resident b a = false := by rw [State.resident, commit_stag]; exact hres
  simp [State.readDev, State.foreign, State.isHbm, State.hidden, hspace, ← hpkg', hres']

theorem mem_gangOf {r c : Nat} (hc : (groups.headD (groupAt [] 0)).cores[r]? = some c) : (c, r) ∈ gangOf groups :=
  List.mk_mem_zipIdx_iff_getElem?.2 hc

/-- A core of the gang is the capsule's, in its role, where no other role has the same core (R86, R113). -/
theorem commit_core {r c : Nat} (hnodup : (groups.headD (groupAt [] 0)).cores.Nodup)
    (hc : (groups.headD (groupAt [] 0)).cores[r]? = some c) :
    (s.commit cap groups).core c = launchCore (s.committed cap groups) groups (s.serial + 1) r c := by
  have honce : ((gangOf groups).map Prod.fst).Nodup := by rwa [gangOf, List.zipIdx_map_fst]
  rw [State.core, commit_cores]
  exact core_foldl_setCore (fun e => launchCore (s.committed cap groups) groups (s.serial + 1) e.2 e.1) honce (mem_gangOf hc) _

/-- Every member has its seed on every core of the gang (R111, R212). -/
theorem commit_sends_seed {r c m : Nat} (hc : (groups.headD (groupAt [] 0)).cores[r]? = some c) (hm : m < cap.members.length) :
    ∃ p ∈ (s.commit cap groups).packets, p.IsSeed cap.hdr r c m := by
  rw [commit_eq]
  exact foldl_reaches (P := fun t => ∃ p ∈ t.packets, p.IsSeed cap.hdr r c m)
    (f := fun t e => t.sendSeeds (s.committed cap groups) e.2 e.1)
    (fun _ _ ⟨p, hp, hseed⟩ => ⟨p, mem_packets_sendSeeds hp _ _ _, hseed⟩) (mem_gangOf hc)
    (fun t => sendSeeds_sends t (s.committed cap groups) r c hm) (s.gangSet cap groups)

end

theorem launchCore_slot (cap : Capsule) (groups : List Group) (serial role c n : Nat) :
    (launchCore cap groups serial role c).slot n = Slot.fresh := by
  show (Vector.replicate 8 Slot.fresh)[n % 8]'_ = _
  exact Vector.getElem_replicate ..

/-! ## The two events that commit -/

/-- What a commit of a capsule with its groups makes of a state. -/
def Commits (inst : Nat) (cap : Capsule) (groups : List Group) (s t : State) : Prop :=
  (∃ cap', t.capsule? inst = some cap' ∧ cap'.stage = .running ∧ cap'.groups = groups) ∧
  (cap.hdr.stock = false → SameMemory s t) ∧
  (∀ a n, devSpace a = 2 → devPkg a = s.pkgId → s.resident cap.bearer a = false → t.readDev cap.bearer a n = List.replicate n 0) ∧
  ∀ (r c : Nat), (groups.headD (groupAt [] 0)).cores[r]? = some c → (t.core c).inst = some inst ∧ (t.core c).role = r ∧
    (∀ n, (t.slot c n).state = .empty) ∧
    ∀ m, m < cap.members.length → ∃ p ∈ t.packets, p.dest = c ∧ p.cls = 2 ∧ p.state = .moving ∧
      ∃ k, p.body = .task k none false ∧ k.pc = BitVec.ofNat 64 cap.hdr.entry ∧ k.reg 0 = BitVec.ofNat 64 r ∧
      k.reg 1 = BitVec.ofNat 64 (argWindow + 2048 * m) ∧ k.reg 2 = BitVec.ofNat 64 m ∧ k.tid = mix 0 r

theorem commit_commits {inst : Nat} {cap : Capsule} {groups : List Group} {s : State} (hcap : s.capsule? inst = some cap)
    (hnodup : (groups.headD (groupAt [] 0)).cores.Nodup) : Commits inst cap groups s (s.commit cap groups) := by
  refine ⟨⟨_, commit_capsule? hcap, rfl, rfl⟩, fun hstock a => by rw [commit_mem hstock],
    fun a n hspace hpkg hres => commit_readDev_foreign hspace hpkg hres n, fun r c hc => ?_⟩
  have hcore := commit_core (s := s) (cap := cap) hnodup hc
  refine ⟨?_, by rw [hcore]; rfl, fun n => ?_, fun m hm => ?_⟩
  · rw [hcore]
    exact (congrArg some (capsule?_inst hcap) :)
  · rw [State.slot, hcore, launchCore_slot]
    rfl
  · obtain ⟨p, hp, hseed⟩ := commit_sends_seed (s := s) hc hm
    obtain ⟨hg0, hg1, hg2⟩ := seedTask_regs cap.hdr r m
    exact ⟨p, hp, hseed.dest, hseed.cls, hseed.moving, _, hseed.body, rfl, hg0, hg1, hg2, rfl⟩

section
variable {inst : Nat} {ready : List (Nat × List Nat)} {groups : List Group} {cap : Capsule} {s : State}
  (hcap : s.capsule? inst = some cap) (hbind : s.bindings cap ready = some groups) (hws : s.wsBlocked cap = false)
  (hclock : s.clocked = true) (hrank : s.outranked cap = false) (hstand : groupsStand groups = true)
include hcap hbind hws hclock hrank hstand

theorem exec_gangCommit (hstage : cap.stage = .placing ready) : exec (.gangCommit inst) s = .next
    (if s.slowChiplets cap (groups.headD (groupAt [] 0)).cores = [] then s.commit cap groups
      else s.setCapsule { cap with stage := .pointWait ready }) := by
  simp [exec, execGangCommit, event, hcap, hstage, hbind, hws, hclock, hrank, hstand]

theorem exec_operatingPointReached (hstage : cap.stage = .pointWait ready) : exec (.operatingPointReached inst) s = .next
    ((s.setPoints (s.slowChiplets cap (groups.headD (groupAt [] 0)).cores) (s.classPoint cap.hdr.fclass)).commit cap groups) := by
  simp [exec, execOperatingPointReached, event, hcap, hstage, hbind, hws, hclock, hrank, hstand]

end

/-- Settles O46: both events end in one commit, which sets the cores one after another, sends the seeds behind them, and leaves the
residency tags and the package number as they are. The points that the second event sets first change nothing that is claimed. -/
theorem commitEvents : Obligations.CommitEvents := by
  unfold Obligations.CommitEvents
  intro inst ready groups cap s hcap hbind hws hclock hrank hstand cs commits hnodup
  have hinst := capsule?_inst hcap
  refine ⟨fun hstage hslow => ⟨s.commit cap groups, ?_, commit_commits hcap hnodup⟩, fun hstage hslow => ?_, fun hstage => ?_⟩
  · rw [exec_gangCommit hcap hbind hws hclock hrank hstand hstage, if_pos hslow]
  · refine ⟨s.setCapsule { cap with stage := .pointWait ready }, _, ?_, fun _ => rfl, capsule?_setCapsule hcap hinst, rfl⟩
    rw [exec_gangCommit hcap hbind hws hclock hrank hstand hstage, if_neg hslow]
  · have hset : (s.setPoints (s.slowChiplets cap cs) (s.classPoint cap.hdr.fclass)).capsule? inst = some cap := hcap
    exact ⟨_, exec_operatingPointReached hcap hbind hws hclock hrank hstand hstage, commit_commits hset hnodup⟩

end Sys2Proof.Machine

/-! # A scatter whose box has an eighth size (O41) -/

namespace Sys2Proof.Scatter

open Sys2Proof Sys2Proof.Machine Sys2Proof.Execution

/-- One dense HBM extent of 2 MiB at capsule address 0, which stands at 0x100000. -/
def denseCapsule : Capsule := { bootCapsule [] with exts := [{ sparseExtent with sparse := false }] }

/-- A tensor of three pages of 256 bytes from an address on (R312). -/
def pageTensor (base : Nat) : BitVec 1024 :=
  BitVec.ofNat 1024 (base + 0xD0000000 * 2 ^ 128 + 2 * 2 ^ 160 + 256 * 2 ^ 192 + 3 * 2 ^ 224 + 256 * 2 ^ 448)

/-- Three indexes at 0x1000. -/
def indexTensor : BitVec 1024 := BitVec.ofNat 1024 (0x1000 + 0xA0000000 * 2 ^ 128 + 1 * 2 ^ 160 + 3 * 2 ^ 192)

/-- A scatter of the three pages at 0, whose first and last go to one page at 0x800. An eighth box size, 2, which the checks of the
issue do not look at and the coordinates do not use, has it name every page twice. Chunk 0 is written. -/
def scatter : CopyEntry :=
  { id := 0, kind := .cscat, queue := 0, map := 0, slot := 0, slotSerial := 1, member := 0, pc := 0, insn := []
    td := pageTensor 0x800, ts := pageTensor 0, ti := indexTensor, dc := [0], sc := [0], box := [256, 3, 1, 1, 1, 1, 1, 2]
    fn := 0, rm := 0, sat := false, ge := 0, begun := true, indexes := [0, 1, 0], chunks := 3, done := [0], kept := []
    waitPage := none, handler := false }

/-- The scatter at the head of q0; of its source pages only the last one holds a byte that is not 0, its first. -/
def scatterState : State :=
  { oneCore denseCapsule { portCore with q0 := [scatter], maps := [(0, 1)] } with serial := 1, mem := [(0x100200, 1)] }

/-- The device line of a line of the extent. -/
def lineOf (l : Nat) : Nat := l + 0x100000 / 64

theorem scatter_issued : CopyIssued scatter := by
  unfold CopyIssued
  decide +kernel

theorem lineOf_apart (ws : List Run) : LinesApart lineOf ws := fun _ _ _ _ _ _ _ _ h => Nat.add_right_cancel h

/-- Every byte of the extent stands where `lineOf` says. -/
theorem extent_stands (ws : List Run) {rs : List Run} (h : ∀ r ∈ rs, r.1 + r.2 ≤ 2 ^ 21) :
    Stands scatterState denseCapsule 0 lineOf ws rs := by
  intro r hr i hi ca a plain
  have hca : ca < 2 ^ 21 := by have := h r hr; omega
  have ha : a = 0x100000 + ca := by simp only [a, lineOf]; omega
  have hspace : devSpace a = 0 := by simp only [devSpace, bits]; omega
  have hpkg : devPkg a = 0 := by simp only [devPkg, bits]; omega
  have hat : scatterState.engAt denseCapsule 0 ca = .at a (some { sparseExtent with sparse := false }) := by
    have hwin : windowOf ca = .extent := if_pos (by simp only [scratchWindow]; omega)
    have hext : denseCapsule.extentAt? 0 ca = some { sparseExtent with sparse := false } := by
      simpa [Capsule.extentAt?, denseCapsule, sparseExtent, Extent.seen] using hca
    simp [State.engAt, hwin, hext, State.translate, sparseExtent, ha]
  refine ⟨_, hat, by omega, ?_, ⟨?_, ?_, ?_⟩, ?_⟩
  · simp [State.onPeer, State.leaves, hspace, hpkg, scatterState, oneCore, State.pkgId, State.reset, HostRegs.reset, bits]
  · simp [State.foreign, scatterState, oneCore, State.reset, SMap.get]
  · simp [State.hidden, hspace]
  · simp [hspace]
  · rintro e ⟨rfl⟩ hs
    cases hs

/-- Element 512, the first of the last page, remains: the one that follows it to the same place is of a lower page (R352). -/
theorem last_page_remains : 512 ∈ chunkElems scatter 1 ∧ Remains scatter 1 512 := by
  unfold Remains
  decide +kernel

/-- Memory behind a step. -/
def memoryOf : Host.Outcome State Fault Refusal → List Host.Cell
  | .next t => t.mem
  | _ => []

/-- The first page, named again in the same chunk, is written behind the last. -/
theorem first_page_written_last {t : State} (ht : exec (.copyChunkWrite 0 0 1) scatterState = .next t) :
    readByte t.mem 0x100800 = 0 := by
  have hbyte : readByte (memoryOf (exec (.copyChunkWrite 0 0 1) scatterState)) 0x100800 = 0 := by decide +kernel
  rwa [ht] at hbyte

/-- The code of a byte that is 0. -/
theorem codeAt_zero {f : Bytes} {o : Nat} (h : f o = 0) : codeAt f (8 * o) 8 = 0 := by
  refine List.sum_eq_zero fun x hx => ?_
  obtain ⟨i, hi, rfl⟩ := List.mem_map.1 hx
  rw [List.mem_range] at hi
  rw [show (8 * o + i) / 8 = o by omega, h]
  simp

/-- Refutes O41: nothing bounds the number of box sizes, so that a scatter with an eighth one names its pages twice, and in one chunk a
lower page is written behind a higher one that goes to the same place. -/
theorem not_copyEvents : ¬ Obligations.CopyEvents := by
  unfold Obligations.CopyEvents
  intro h
  obtain ⟨-, -, hchunk⟩ := h 0 0 denseCapsule scatter scatterState rfl (by decide) rfl rfl
  obtain ⟨t, ht, -, -, -, hline⟩ := hchunk 1 (by decide) rfl (by decide +kernel) rfl (by decide +kernel) (by decide +kernel)
    (by decide +kernel) (by decide +kernel) (by decide +kernel) (fun _ => by decide +kernel)
  obtain ⟨-, hcopied, -⟩ := hline lineOf rfl rfl scatter_issued (lineOf_apart _) (extent_stands _ (by decide +kernel))
  obtain ⟨helems, -⟩ := hcopied nofun
  obtain ⟨hmem, hremains⟩ := last_page_remains
  obtain ⟨-, hnew, -⟩ := helems 512 hmem hremains
  have hsrc : copiedElem scatter (elemOf (memView scatterState lineOf) scatter.ts (srcElem scatter 512)) % 2 ^ tBits scatter.td = 1 := by
    decide +kernel
  have hdst : elemSpan scatter.td (dstElem scatter 512) = (8 * 0x800, 8) := by decide +kernel
  have hzero : elemOf (memView t lineOf) scatter.td (dstElem scatter 512) = 0 := by
    rw [elemOf, hdst]
    exact codeAt_zero (first_page_written_last ht)
  exact absurd (hzero.symm.trans ((hnew nofun rfl).trans hsrc)) (by decide)

end Sys2Proof.Scatter

/-! # What the events of an LSU move (O37, O47) -/

namespace Sys2Proof.Machine

open Sys2Proof

/-- How an access moves along at its LSU: one that was held is sent, or performed by a line of the first-level cache. -/
structure Access.MovesTo (a b : Access) : Prop where
  id : b.id = a.id
  stl : b.stl = a.stl
  state : b.state = a.state ∨ (a.state = .held ∧ (b.state = .sent ∨ b.state = .performed))

theorem Access.MovesTo.refl (a : Access) : a.MovesTo a := ⟨rfl, rfl, .inl rfl⟩

theorem Access.MovesTo.trans {a b c : Access} (h : a.MovesTo b) (g : b.MovesTo c) : a.MovesTo c := by
  refine ⟨g.id.trans h.id, g.stl.trans h.stl, ?_⟩
  rcases h.state with hab | ⟨ha, hb⟩
  · rw [← hab]
    exact g.state
  · rcases g.state with hbc | ⟨hheld, -⟩
    · rw [hbc]
      exact .inr ⟨ha, hb⟩
    · rcases hb with hb | hb <;> simp [hb] at hheld

/-- A state without the fields that an LSU writes as it sends: two states that agree here differ in those alone. -/
def State.besideLsu (s : State) : State :=
  { s with serial := 0, cores := [], accesses := [], packets := [], bad := [], cross := [], host := HostRegs.reset
           plaza := { s.plaza with msixDue := [] } }

/-- Accesses and packets move along at LSUs, each under its number, and nothing else changes but lines that first-level caches
hold already, copies on their way, and what is logged and leaves the package. -/
structure LsuMoves (s t : State) : Prop where
  beside : t.besideLsu = s.besideLsu
  acquired : ∀ c, (t.core c).acquired = (s.core c).acquired
  accessIds : t.accesses.map (·.id) = s.accesses.map (·.id)
  access : ∀ b ∈ t.accesses, ∃ a ∈ s.accesses, a.MovesTo b
  packetIds : t.packets.map (·.id) = s.packets.map (·.id)
  serial : s.serial ≤ t.serial
  l1 : ∀ c, (s.core c).l1 = [] → (t.core c).l1 = []

namespace LsuMoves

theorem refl (s : State) : LsuMoves s s := ⟨rfl, fun _ => rfl, rfl, fun b hb => ⟨b, hb, .refl b⟩, rfl, le_rfl, fun _ h => h⟩

theorem trans {s t u : State} (h : LsuMoves s t) (g : LsuMoves t u) : LsuMoves s u where
  beside := g.beside.trans h.beside
  acquired c := (g.acquired c).trans (h.acquired c)
  accessIds := g.accessIds.trans h.accessIds
  access c hc := by
    obtain ⟨b, hb, hbc⟩ := g.access c hc
    obtain ⟨a, ha, hab⟩ := h.access b hb
    exact ⟨a, ha, hab.trans hbc⟩
  packetIds := g.packetIds.trans h.packetIds
  serial := h.serial.trans g.serial
  l1 c hc := g.l1 c (h.l1 c hc)

theorem foldl {α : Type} {f : State → α → State} (h : ∀ s a, LsuMoves s (f s a)) (l : List α) (s : State) :
    LsuMoves s (l.foldl f s) :=
  List.foldlRecOn (motive := LsuMoves s) l f (refl s) fun t ht a _ => ht.trans (h t a)

theorem mem {s t : State} (h : LsuMoves s t) : t.mem = s.mem := (congrArg State.mem h.beside :)

theorem results {s t : State} (h : LsuMoves s t) : t.results = s.results := (congrArg State.results h.beside :)

theorem fences {s t : State} (h : LsuMoves s t) : t.fences = s.fences := (congrArg State.fences h.beside :)

theorem capMoves {s t : State} (h : LsuMoves s t) : t.capMoves = s.capMoves := (congrArg State.capMoves h.beside :)

theorem capsules {s t : State} (h : LsuMoves s t) : t.capsules = s.capsules := (congrArg State.capsules h.beside :)

/-- A number that an access has, an access keeps. -/
theorem exists_access {s t : State} (h : LsuMoves s t) {a : Access} (ha : a ∈ s.accesses) : ∃ b ∈ t.accesses, b.id = a.id := by
  have hid : a.id ∈ t.accesses.map (·.id) := h.accessIds ▸ List.mem_map_of_mem ha
  simpa using hid

/-- A change outside what the relation speaks of. -/
theorem of_cores_eq {s t : State} (hb : t.besideLsu = s.besideLsu) (hc : t.cores = s.cores) (ha : t.accesses = s.accesses)
    (hp : t.packets = s.packets) (hs : s.serial ≤ t.serial) : LsuMoves s t :=
  ⟨hb, fun c => by rw [State.core, hc, State.core], by rw [ha], fun b hb => ⟨b, ha ▸ hb, .refl b⟩, by rw [hp], hs,
    fun c h => by rw [State.core, hc]; exact h⟩

theorem tick (s : State) : LsuMoves s s.tick := of_cores_eq rfl rfl rfl rfl (Nat.le_succ _)

/-- A core whose first-level cache alone changes. -/
theorem setL1 {s t : State} (h : LsuMoves s t) (c : Nat) {l1 : List L1Line}
    (hl1 : (t.core c).l1 = [] → l1 = []) :
    LsuMoves s (t.setCore c { t.core c with l1 := l1 }) := by
  refine h.trans ⟨rfl, fun d => ?_, rfl, fun b hb => ⟨b, hb, .refl b⟩, rfl, le_rfl, fun d hd => ?_⟩
  · by_cases hc : d = c
    · rw [hc, core_setCore_same]
    · rw [core_setCore_other t _ hc]
  · by_cases hc : d = c
    · subst hc
      rw [core_setCore_same]
      exact hl1 hd
    · rwa [core_setCore_other t _ hc]

/-- Accesses that each keep their number. -/
theorem mapAccesses {s t : State} (h : LsuMoves s t) {f : Access → Access} (hid : ∀ b ∈ t.accesses, (f b).id = b.id)
    (hmove : ∀ b ∈ t.accesses, ∃ a ∈ t.accesses, a.MovesTo (f b)) : LsuMoves s { t with accesses := t.accesses.map f } := by
  refine h.trans ⟨rfl, fun _ => rfl, ?_, fun b hb => ?_, rfl, le_rfl, fun _ h => h⟩
  · rw [List.map_map]
    exact List.map_congr_left hid
  · obtain ⟨a, ha, rfl⟩ := List.mem_map.1 hb
    exact hmove a ha

theorem setAccess {s t : State} (h : LsuMoves s t) {a b : Access} (ha : a ∈ t.accesses) (hab : a.MovesTo b) :
    LsuMoves s (t.setAccess b) := by
  refine h.mapAccesses (fun c _ => ?_) fun c hc => ?_
  · split
    · next hid => exact hid.symm
    · rfl
  · split
    · exact ⟨a, ha, hab⟩
    · exact ⟨c, hc, .refl c⟩

theorem stopFills {s t : State} (h : LsuMoves s t) (core line : Nat) : LsuMoves s (t.stopFills core line) := by
  refine h.mapAccesses (fun b _ => ?_) fun b hb => ⟨b, hb, ?_⟩
  · split <;> rfl
  · split
    · exact ⟨rfl, rfl, .inl rfl⟩
    · exact .refl b

theorem dropOwnPort {s t : State} (h : LsuMoves s t) (a : Access) : LsuMoves s (t.dropOwnPort a) := by
  unfold State.dropOwnPort
  split
  · exact h
  · exact h.trans (of_cores_eq rfl rfl rfl rfl le_rfl)

theorem leave (s : State) (a : Access) : LsuMoves s (s.leave a) := by
  unfold State.leave
  split
  · unfold State.leaveBy
    split
    · exact of_cores_eq rfl rfl rfl rfl le_rfl
    · exact refl s
  · exact refl s

theorem l1Drop {s t : State} (h : LsuMoves s t) (core line : Nat) : LsuMoves s (t.l1Drop core line) :=
  h.setL1 core fun hnil => by rw [hnil]; rfl

theorem dropL1Bad (s : State) (core addr : Nat) : LsuMoves s (s.dropL1Bad core addr) := by
  unfold State.dropL1Bad
  split
  · have hbad : LsuMoves s { s with bad := SMap.put s.bad (addr / 64) 0 } := of_cores_eq rfl rfl rfl rfl le_rfl
    have hdrop := hbad.setL1 core (l1 := (s.core core).l1.filter fun l => l.line != addr / 64) fun hnil => by
      rw [show (s.core core).l1 = [] from hnil]
      rfl
    exact hdrop.trans (of_cores_eq rfl rfl rfl rfl le_rfl)
  · exact refl s

end LsuMoves

theorem departing_lsuMoves (s : State) (a : Access) : LsuMoves s (s.departing a) := by
  unfold State.departing
  refine .trans ?_ ((LsuMoves.leave _ a).trans (.tick _))
  split
  · exact .dropL1Bad ..
  · exact .refl s

/-- An access that was held is sent (R150, R169). -/
theorem send_lsuMoves {s : State} {a : Access} (ha : a ∈ s.accesses) (hheld : a.state = .held) : LsuMoves s (s.send a) := by
  have hdue : a ∈ (s.departing a).accesses := by rwa [departing_accesses]
  refine (departing_lsuMoves s a).trans ?_
  simp only [State.send]
  rw [show State.tick _ = s.departing a from rfl]
  generalize s.departing a = d at hdue ⊢
  have hsent : LsuMoves d (d.setAccess { a with state := .sent, order := d.serial - 1 }) :=
    (LsuMoves.refl d).setAccess hdue ⟨rfl, rfl, .inr ⟨hheld, .inl rfl⟩⟩
  split
  case h_1 =>
    split
    next l hl =>
      have hline (hnil : (d.core a.core).l1 = []) : l1Put (d.core a.core).l1 l = [] := by simp [hnil] at hl
      exact ((LsuMoves.refl d).setL1 a.core hline).setAccess hdue ⟨rfl, rfl, .inr ⟨hheld, .inr rfl⟩⟩
    next => exact (LsuMoves.refl d).setAccess hdue ⟨rfl, rfl, .inr ⟨hheld, .inl rfl⟩⟩
  case h_2 => exact (LsuMoves.refl d).setAccess hdue ⟨rfl, rfl, .inr ⟨hheld, .inl rfl⟩⟩
  case h_3 =>
    split
    · refine ((hsent.setL1 a.core fun hnil => ?_).stopFills ..).dropOwnPort _
      rw [show (d.core a.core).l1 = [] from hnil]
      rfl
    · exact hsent
  case h_4 =>
    split
    · exact ((hsent.l1Drop ..).stopFills ..).dropOwnPort _
    · exact hsent

theorem held_of_canSend {s : State} {a : Access} (h : s.canSend a = true) : a.state = .held := by
  simp only [State.canSend, Bool.and_eq_true, beq_iff_eq] at h
  exact h.1.1.1.1.1.1.1

theorem setPacket_packetIds (s : State) (p : Packet) : (s.setPacket p).packets.map (·.id) = s.packets.map (·.id) := by
  rw [State.setPacket, List.map_map]
  refine List.map_congr_left fun q _ => ?_
  simp only [Function.comp]
  split
  · next hid => exact hid.symm
  · rfl

/-- What may leave a core's LSU leaves (R169, R175). -/
theorem pump_lsuMoves (s : State) (c : Nat) : LsuMoves s (s.pump c) := by
  unfold State.pump
  refine .foldl (fun s id => ?_) _ s
  split
  next a h =>
    split
    next hsend => exact send_lsuMoves (List.mem_of_find?_eq_some h) (held_of_canSend hsend)
    next => exact .refl s
  next p _ _ =>
    split
    · exact ⟨rfl, fun _ => rfl, rfl, fun b hb => ⟨b, hb, .refl b⟩, setPacket_packetIds s _, Nat.le_succ _, fun _ h => h⟩
    · exact .refl s
  next => exact .refl s

namespace LsuMoves

/-- An access that is not held stays as it is at its LSU. -/
theorem state_of_not_held {s t : State} (h : LsuMoves s t) {id : Nat} {st : AccState} (hst : st ≠ .held)
    (hs : ∀ a ∈ s.accesses, a.id = id → a.state = st) {b : Access} (hb : b ∈ t.accesses) (hid : b.id = id) : b.state = st := by
  obtain ⟨a, ha, hab⟩ := h.access b hb
  have hast := hs a ha (hab.id.symm.trans hid)
  rcases hab.state with heq | ⟨hheld, -⟩
  · rw [heq, hast]
  · exact absurd (hast.symm.trans hheld) hst

/-- A number that no access has, no access takes. -/
theorem fresh {s t : State} (h : LsuMoves s t) {id : Nat} (hs : ∀ a ∈ s.accesses, a.id ≠ id) : ∀ b ∈ t.accesses, b.id ≠ id := by
  intro b hb hid
  obtain ⟨a, ha, hab⟩ := h.access b hb
  exact hs a ha (hab.id.symm.trans hid)

theorem sameMemory {s t : State} (h : LsuMoves s t) : SameMemory s t := fun a => by rw [h.mem]

end LsuMoves

/-! # The events of the LSUs (O37) -/

theorem access?_mem {s : State} {id : Nat} {a : Access} (h : s.access? id = some a) : a ∈ s.accesses ∧ a.id = id :=
  ⟨List.mem_of_find?_eq_some h, by simpa using List.find?_some h⟩

theorem mem_setAccess_self {s : State} {a b : Access} (ha : a ∈ s.accesses) (hid : b.id = a.id) : b ∈ (s.setAccess b).accesses :=
  List.mem_map.2 ⟨a, ha, if_pos hid.symm⟩

theorem setAccess_eq_of_id {s : State} {a b : Access} (hb : b ∈ (s.setAccess a).accesses) (hid : b.id = a.id) : b = a := by
  obtain ⟨c, -, rfl⟩ := List.mem_map.1 hb
  by_cases hc : c.id = a.id
  · exact if_pos hc
  · exact absurd hid (by rwa [if_neg hc])

theorem dropAccess_ids (s : State) (id : Nat) : ∀ b ∈ (s.dropAccess id).accesses, b.id ≠ id := by
  intro b hb
  simpa using (List.mem_filter.1 hb).2

/-- A line that fills the first-level cache leaves memory, results and the numbers of accesses as they are (R150). -/
theorem fillL1_keeps (s : State) (a : Access) : (s.fillL1 a).mem = s.mem ∧ (s.fillL1 a).results = s.results ∧
    (s.fillL1 a).accesses.map (·.id) = s.accesses.map (·.id) := by
  simp only [State.fillL1]
  split
  · have hids (s : State) (c l : Nat) : (s.stopFills c l).accesses.map (·.id) = s.accesses.map (·.id) := by
      simp only [State.stopFills, List.map_map]
      refine List.map_congr_left fun b _ => ?_
      simp only [Function.comp]
      split <;> rfl
    unfold State.l1Filled
    split <;> exact ⟨rfl, rfl, hids ..⟩
  · exact ⟨rfl, rfl, rfl⟩

/-- A state behind the acknowledged invalidations of a write, or with the line of a load or PREF in the first-level cache (R150, R167). -/
def State.filled (s : State) (a : Access) : State := (if a.op.writes then s.dropDying (s.placeOf a) else s).fillL1 a

theorem filled_keeps (s : State) (a : Access) : (s.filled a).mem = s.mem ∧ (s.filled a).results = s.results ∧
    (s.filled a).accesses.map (·.id) = s.accesses.map (·.id) := by
  unfold State.filled
  split
  · exact fillL1_keeps (s.dropDying _) a
  · exact fillL1_keeps s a

theorem exists_filled {s : State} {a : Access} (ha : a ∈ s.accesses) : ∃ b ∈ (s.filled a).accesses, b.id = a.id := by
  have hid : a.id ∈ (s.filled a).accesses.map (·.id) := (filled_keeps s a).2.2 ▸ List.mem_map_of_mem ha
  simpa using hid

theorem execAccessReplyArrive_eq {s : State} {id : Nat} {a : Access} (ha : s.access? id = some a) (hp : a.state = .performed)
    (hf : a.op ≠ .fetch) (ho : s.replyOvertakes a = false) : exec (.accessReplyArrive id) s = .next (s.answer a) := by
  change execAccessReplyArrive id s = _
  simp [execAccessReplyArrive, ha, event, hp, hf, ho]

theorem answer_returning {s : State} {a : Access} {r part : Nat} (hr : a.op.returns = true) (ha : a.result = some (r, part)) :
    s.answer a = (((s.filled a).setAccess { a with state := .replied }).fillPart r part a.reply
      (a.replyGuard || (a.ext.isSome && a.extGuard))).pump a.core := by
  simp only [State.answer, State.replyArrive, hr, ha, if_true]
  rfl

theorem answer_silent {s : State} {a : Access} (hr : a.op.returns = false) :
    s.answer a = ((s.filled a).dropAccess a.id).pump a.core := by
  simp only [State.answer, State.replyArrive, hr, Bool.false_eq_true, if_false]
  rfl

/-- A reply brings its bytes to its part of the result (R165). -/
theorem reply_spec {s : State} {id rid part : Nat} {a : Access} (ha : s.access? id = some a) (hp : a.state = .performed)
    (hf : a.op ≠ .fetch) (hr : a.op.returns = true) (hres : a.result = some (rid, part)) (ho : s.replyOvertakes a = false) :
    ∃ t, exec (.accessReplyArrive id) s = .next t ∧ SameMemory s t ∧ (∃ b ∈ t.accesses, b.id = id ∧ b.state = .replied) ∧
      ∀ q ∈ s.results, q.id = rid → ∃ w ∈ t.results, w.id = rid ∧ w.dst = q.dst ∧
        w.parts = q.parts.set part (some (a.reply, a.replyGuard || (a.ext.isSome && a.extGuard))) := by
  obtain ⟨hmem, rfl⟩ := access?_mem ha
  obtain ⟨hkmem, hkres, -⟩ := filled_keeps s a
  refine ⟨_, execAccessReplyArrive_eq ha hp hf ho, ?_⟩
  rw [answer_returning hr hres]
  generalize hd : ((s.filled a).setAccess { a with state := .replied }).fillPart rid part a.reply _ = d
  have hpump := pump_lsuMoves d a.core
  have hdmem : d.mem = s.mem := by rw [← hkmem, ← hd]; rfl
  refine ⟨fun x => by rw [hpump.mem, hdmem], ?_, fun q hq hid => ?_⟩
  · obtain ⟨b, hb, hbid⟩ := exists_filled hmem
    have hset : { a with state := .replied } ∈ d.accesses := by
      rw [← hd]
      exact mem_setAccess_self (b := { a with state := .replied }) hb hbid.symm
    obtain ⟨c, hc, hcid⟩ := hpump.exists_access hset
    refine ⟨c, hc, hcid, hpump.state_of_not_held (by simp) (fun e he hid => ?_) hc hcid⟩
    rw [← hd] at he
    rw [setAccess_eq_of_id he hid]
  · rw [hpump.results, ← hd]
    refine ⟨_, List.mem_map_of_mem (hkres ▸ hq), ?_⟩
    rw [if_pos hid]
    exact ⟨hid, rfl, rfl⟩

/-- An access without a reply is complete (R165). -/
theorem silent_reply_spec {s : State} {id : Nat} {a : Access} (ha : s.access? id = some a) (hp : a.state = .performed)
    (hr : a.op.returns = false) (ho : s.replyOvertakes a = false) :
    ∃ t, exec (.accessReplyArrive id) s = .next t ∧ SameMemory s t ∧ ∀ b ∈ t.accesses, b.id ≠ id := by
  obtain ⟨-, rfl⟩ := access?_mem ha
  have hf : a.op ≠ .fetch := fun h => by simp [h, AccOp.returns] at hr
  refine ⟨_, execAccessReplyArrive_eq ha hp hf ho, ?_⟩
  rw [answer_silent hr]
  have hpump := pump_lsuMoves ((s.filled a).dropAccess a.id) a.core
  refine ⟨fun x => ?_, hpump.fresh (dropAccess_ids _ _)⟩
  rw [hpump.mem, show ((s.filled a).dropAccess a.id).mem = s.mem from (filled_keeps s a).1]

/-- A freed place goes to an element access that has waited longest (R172). -/
theorem element_place_spec {s : State} {core : Nat} {a : Access} (ha : (s.unplacedOf core).head? = some a)
    (hroom : s.lsuPlaces core < 256) (hfirst : ∀ u, (s.core core).placeTickets.head? = some u → a.id < u.issued) :
    ∃ t, exec (.lsuPlaceGrant core) s = .next t ∧ SameMemory s t ∧ ∀ b ∈ t.accesses, b.id = a.id → b.state ≠ .unplaced := by
  have hexec : exec (.lsuPlaceGrant core) s = .next (s.placeElement core a) := by
    change execLsuPlaceGrant core s = _
    have hleft : 1 ≤ 256 - s.lsuPlaces core := by omega
    simp only [execLsuPlaceGrant, ha]
    cases hu : (s.core core).placeTickets.head? with
    | none => simp [event, hleft]
    | some u => simp [event, hleft, hfirst u hu]
  have hpump := pump_lsuMoves (s.setAccess { a with state := .held }) core
  refine ⟨_, hexec, hpump.sameMemory, fun b hb hid => ?_⟩
  obtain ⟨c, hc, hcb⟩ := hpump.access b hb
  have hheld : c.state = .held := by rw [setAccess_eq_of_id hc (hcb.id.symm.trans hid)]
  rcases hcb.state with heq | ⟨-, hsent | hperformed⟩ <;> simp [*]

theorem setCore_onlyCore (s : State) (c : Nat) (k : Core) : OnlyCore s (s.setCore c k) c :=
  ⟨rfl, fun _ hd => core_setCore_other s k hd, fun _ => rfl⟩

/-- Freed places go to a ticket that has waited longest (R172). -/
theorem ticket_place_spec {s : State} {core : Nat} {u : LsuTicket} (hu : (s.core core).placeTickets.head? = some u)
    (hroom : s.lsuPlaces core + u.need ≤ 256) (hfirst : ∀ a, (s.unplacedOf core).head? = some a → u.issued ≤ a.id) :
    ∃ t, exec (.lsuPlaceGrant core) s = .next t ∧ OnlyCore s t core ∧
      (t.core core).lsuTickets = (s.core core).lsuTickets.map fun v => if v = u then { v with granted := true } else v := by
  have hexec : exec (.lsuPlaceGrant core) s = .next (s.placeTicket core u) := by
    change execLsuPlaceGrant core s = _
    have hleft : u.need ≤ 256 - s.lsuPlaces core := by omega
    simp only [execLsuPlaceGrant, hu]
    cases ha : (s.unplacedOf core).head? with
    | none => simp [event, hleft]
    | some a => simp [event, hleft, hfirst a ha]
  exact ⟨_, hexec, setCore_onlyCore .., by simp [State.placeTicket]⟩

/-! Lookaside fills -/

/-- A lookaside without the fill that ends. -/
def Core.endFill (k : Core) (l : Lookaside) : Core := { k with fills := k.fills.filter fun o => o != l }

theorem lookUp_head? (k : Core) (l : Lookaside) : (k.lookUp l).lookaside.head? = some l := by simp [Core.lookUp]

theorem lookUp_length (k : Core) (l : Lookaside) : (k.lookUp l).lookaside.length ≤ 16 := by
  simp only [Core.lookUp, List.length_take]
  exact Nat.min_le_left ..

section LookasideFill

variable {s : State} {core member ext page : Nat} {l : Lookaside} {cap : Capsule} {e : Extent}

/-- The first byte of a page translates to the page's own address, that of a dense extent to the extent's (R142). -/
theorem translate_page (b : Bearer) (hl : l.page = if e.sparse then some page else none) :
    s.translate b e (e.vbase + l.page.getD 0 * 2 ^ 21) =
      if e.sparse = true ∧ entryPresent (s.pageEntry b e page) = false then none
      else some (if e.sparse then entryPage (s.pageEntry b e page) else e.dbase) := by
  rw [State.translate, Nat.add_sub_cancel_left]
  cases hs : e.sparse with
  | true =>
    have hpage : l.page.getD 0 = page := by rw [hl, hs]; rfl
    rw [hpage, Nat.mul_div_cancel _ (by decide), Nat.mul_mod_left]
    cases hp : entryPresent (s.pageEntry b e page) <;> simp [hp]
  | false =>
    have hpage : l.page.getD 0 = 0 := by rw [hl, hs]; rfl
    simp [hpage]

variable (hcap : s.capsuleOf? core = some cap) (hfill : (s.core core).fill? member ext page = some l)
  (hl : l.page = if e.sparse then some page else none)
  (herr : s.resolveError? core member e (e.vbase + l.page.getD 0 * 2 ^ 21) = none)
  (hext : cap.exts.find? (fun e => e.seen member && e.index == ext) = some e)
include hcap hfill hl herr hext

theorem execLookasideFill_eq : exec (.lookasideFill core member ext page) s = .next (s.setCore core
    (if e.sparse = true ∧ entryPresent (s.pageEntry cap.bearer e page) = false then (s.core core).endFill l
      else ((s.core core).endFill l).lookUp
        { l with base := if e.sparse then entryPage (s.pageEntry cap.bearer e page) else e.dbase })) := by
  change execLookasideFill core member ext page s = _
  simp only [execLookasideFill, hcap, hfill, hext, herr, translate_page cap.bearer hl]
  by_cases habsent : e.sparse = true ∧ entryPresent (s.pageEntry cap.bearer e page) = false
  · simp only [if_pos habsent]
    rfl
  · simp only [if_neg habsent]
    rfl

/-- A fill of a dense extent or of a present page ends with its entry held (R143). -/
theorem present_fill_spec (hpresent : e.sparse = true → entryPresent (s.pageEntry cap.bearer e page) = true) :
    ∃ t, exec (.lookasideFill core member ext page) s = .next t ∧
      (OnlyCore s t core ∧ (t.core core).fills = (s.core core).fills.filter (fun o => o != l)) ∧
      (t.core core).lookaside.head? = some { l with base := if e.sparse then entryPage (s.pageEntry cap.bearer e page) else e.dbase } ∧
      (t.core core).lookaside.length ≤ 16 := by
  have hexec := execLookasideFill_eq hcap hfill hl herr hext
  rw [if_neg fun h => by simp [hpresent h.1] at h] at hexec
  refine ⟨_, hexec, ⟨setCore_onlyCore .., ?_⟩, ?_, ?_⟩ <;> rw [core_setCore_same]
  · rfl
  · exact lookUp_head? ..
  · exact lookUp_length ..

/-- A fill of an absent page ends without an entry (R143). -/
theorem absent_fill_spec (hs : e.sparse = true) (habsent : entryPresent (s.pageEntry cap.bearer e page) = false) :
    ∃ t, exec (.lookasideFill core member ext page) s = .next t ∧
      (OnlyCore s t core ∧ (t.core core).fills = (s.core core).fills.filter (fun o => o != l)) ∧
      (t.core core).lookaside = (s.core core).lookaside := by
  have hexec := execLookasideFill_eq hcap hfill hl herr hext
  rw [if_pos ⟨hs, habsent⟩] at hexec
  refine ⟨_, hexec, ⟨setCore_onlyCore .., ?_⟩, ?_⟩ <;> rw [core_setCore_same] <;> rfl

end LookasideFill

/-! Fences and releases -/

theorem fence?_mem {s : State} {c id : Nat} {fe : Fence} (h : s.fence? c id = some fe) : fe ∈ s.fences ∧ fe.core = c ∧ fe.id = id := by
  have hfe := List.find?_some h
  simp only [Bool.and_eq_true, beq_iff_eq] at hfe
  exact ⟨List.mem_of_find?_eq_some h, hfe⟩

theorem acquire_mem (s : State) (c scope : Nat) : (s.acquire c scope).mem = s.mem := by
  unfold State.acquire
  split <;> rfl

theorem acquire_fences (s : State) (c scope : Nat) : (s.acquire c scope).fences = s.fences := by
  unfold State.acquire
  split <;> rfl

/-- An acquire action at cluster scope or above empties the first-level cache (R176). -/
theorem acquire_l1 (s : State) {c scope : Nat} (h : 2 ≤ scope) : ((s.acquire c scope).core c).l1 = [] := by
  simp only [State.acquire, if_neg (Nat.not_lt.2 h)]
  exact congrArg Core.l1 (core_setCore_same s c _)

/-- An acquire action at package scope or above names the accesses that it precedes by the next number (R176). -/
theorem acquire_acquired (s : State) {c scope : Nat} (h : 4 ≤ scope) : ((s.acquire c scope).core c).acquired = s.serial + 1 := by
  simp only [State.acquire, if_neg (Nat.not_lt.2 (show 2 ≤ scope by omega)), if_pos h]
  exact congrArg Core.acquired (core_setCore_same s c _)

/-- A fence that ends is gone, with its acquire action performed (R175, R178). -/
theorem endFence_spec (s : State) (fe : Fence) :
    SameMemory s (s.endFence fe) ∧ (∀ o ∈ (s.endFence fe).fences, o.id ≠ fe.id) ∧
      (2 ≤ fe.scope → ((s.endFence fe).core fe.core).l1 = []) ∧
      (4 ≤ fe.scope → ((s.endFence fe).core fe.core).acquired = s.serial + 1) := by
  unfold State.endFence
  generalize hd : { s with fences := s.fences.filter fun o => o.id != fe.id } = d
  have hpump := pump_lsuMoves (d.acquire fe.core fe.scope) fe.core
  have hserial : d.serial = s.serial := by rw [← hd]
  refine ⟨fun x => ?_, fun o ho => ?_, fun h => hpump.l1 _ (acquire_l1 d h), fun h => ?_⟩
  · rw [hpump.mem, acquire_mem, ← hd]
  · rw [hpump.fences, acquire_fences, ← hd] at ho
    simpa using (List.mem_filter.1 ho).2
  · rw [hpump.acquired, acquire_acquired d h, hserial]

section Fences

variable {s : State} {core id : Nat} {fe : Fence} (hfe : s.fence? core id = some fe) (hhere : s.fenceHere fe = true)
include hfe hhere

theorem execLdaComplete_eq (hlda : fe.isLda = true) (hw : ∀ w ∈ fe.waits, s.completeAt core fe.scope w = true) :
    exec (.ldaComplete core id) s = .next (s.endFence fe) := by
  change execLdaComplete core id s = _
  have hall : (fe.waits.all fun id => s.completeAt core fe.scope id) = true := List.all_eq_true.2 hw
  simp only [execLdaComplete, hfe, event, hlda, hhere, hall, Bool.and_self, if_true]

theorem execFenceComplete_eq (hlda : fe.isLda = false) (hw : ∀ w ∈ fe.waits ++ fe.entries, s.completeAt core fe.scope w = true)
    (hfirst : ∀ o ∈ s.fences, o.isLda = false → o.core = core → o.slot = fe.slot → o.slotSerial = fe.slotSerial → fe.id ≤ o.id) :
    exec (.fenceComplete core id) s = .next (s.endFence fe) := by
  change execFenceComplete core id s = _
  have hwaits : (fe.waits.all fun id => s.completeAt core fe.scope id) = true :=
    List.all_eq_true.2 fun w h => hw w (List.mem_append_left _ h)
  have hentries : (fe.entries.all fun id => s.completeAt core fe.scope id) = true :=
    List.all_eq_true.2 fun w h => hw w (List.mem_append_right _ h)
  obtain ⟨-, hcore, -⟩ := fence?_mem hfe
  have hbefore : s.fencesBefore fe = [] := by
    refine List.filter_eq_nil_iff.2 fun o ho h => ?_
    simp only [Bool.and_eq_true, Bool.not_eq_true', beq_iff_eq, decide_eq_true_eq] at h
    obtain ⟨⟨⟨⟨holda, hocore⟩, hslot⟩, hserial⟩, hid⟩ := h
    exact absurd (hfirst o ho holda (hocore.trans hcore) hslot hserial) (by omega)
  simp only [execFenceComplete, hfe, hlda, hhere, hwaits, hentries, hbefore, List.isEmpty_nil, Bool.not_false, Bool.and_self, if_true]

end Fences

theorem execStlRelease_eq {s : State} {id scope : Nat} {waits : List Nat} {a : Access} (ha : s.access? id = some a)
    (hstl : a.stl = some (scope, waits)) (hw : ∀ w ∈ waits, s.completeAt a.core scope w = true) :
    exec (.stlRelease id) s = .next ((s.setAccess { a with stl := none }).pump a.core) := by
  change execStlRelease id s = _
  have hall : (waits.all fun id => s.completeAt a.core scope id) = true := List.all_eq_true.2 hw
  simp only [execStlRelease, ha, hstl, event, hall, if_true]

/-- An STL whose accesses are complete is released (R179). -/
theorem stl_release_spec {s : State} {id scope : Nat} {waits : List Nat} {a : Access} (ha : s.access? id = some a)
    (hstl : a.stl = some (scope, waits)) (hw : ∀ w ∈ waits, s.completeAt a.core scope w = true) :
    ∃ t, exec (.stlRelease id) s = .next t ∧ SameMemory s t ∧ ∃ b ∈ t.accesses, b.id = id ∧ b.stl = none := by
  obtain ⟨hmem, rfl⟩ := access?_mem ha
  have hpump := pump_lsuMoves (s.setAccess { a with stl := none }) a.core
  obtain ⟨b, hb, hid⟩ := hpump.exists_access (mem_setAccess_self (b := { a with stl := none }) hmem rfl)
  obtain ⟨c, hc, hcb⟩ := hpump.access b hb
  have hc' : c = { a with stl := none } := setAccess_eq_of_id hc (hcb.id.symm.trans hid)
  exact ⟨_, execStlRelease_eq ha hstl hw, hpump.sameMemory, b, hb, hid, by rw [hcb.stl, hc']⟩

/-- Settles O37: each clause by the law of its event, over what `pump` may change. -/
theorem lsuEvents : Obligations.LsuEvents := by
  unfold Obligations.LsuEvents
  refine ⟨?_, ?_, ?_, ?_, ?_, ?_⟩
  · exact fun id rid part a s => reply_spec
  · exact fun id a s => silent_reply_spec
  · exact fun core s => ⟨fun a => element_place_spec, fun u => ticket_place_spec⟩
  · intro core member ext page l cap e s hcap hfill hl herr hext
    exact ⟨present_fill_spec hcap hfill hl herr hext, absent_fill_spec hcap hfill hl herr hext⟩
  · intro core id fe s hfe hhere
    obtain ⟨-, rfl, -⟩ := fence?_mem hfe
    exact ⟨fun hlda hw => ⟨_, execLdaComplete_eq hfe hhere hlda hw, endFence_spec s fe⟩,
      fun hlda hw hfirst => ⟨_, execFenceComplete_eq hfe hhere hlda hw hfirst, endFence_spec s fe⟩⟩
  · exact fun id scope waits a s => stl_release_spec

end Sys2Proof.Machine

/-! # Children and capabilities (O47) -/

namespace Sys2Proof.Machine

open Sys2Proof

/-- A state without the fields that a read by an engine writes: two states that agree here differ in those alone. -/
def State.besideReads (s : State) : State :=
  { s with freeCount := 0, slice := [], cross := [], bad := [], mem := [], host := HostRegs.reset
           plaza := { s.plaza with msixDue := [] } }

/-- An engine reads: what stands in caches, lines in error, unspecified bytes and what is logged and leaves the package alone change. -/
def OnlyReads (s t : State) : Prop := t.besideReads = s.besideReads

namespace OnlyReads

theorem refl (s : State) : OnlyReads s s := rfl

theorem trans {s t u : State} (h : OnlyReads s t) (g : OnlyReads t u) : OnlyReads s u := Eq.trans g h

theorem posts {s t : State} (h : OnlyReads s t) : t.plaza.posts = s.plaza.posts := (congrArg (·.plaza.posts) h :)

theorem capsules {s t : State} (h : OnlyReads s t) : t.capsules = s.capsules := (congrArg State.capsules h :)

theorem serial {s t : State} (h : OnlyReads s t) : t.serial = s.serial := (congrArg State.serial h :)

theorem capsule? {s t : State} (h : OnlyReads s t) (inst : Nat) : t.capsule? inst = s.capsule? inst := by
  rw [State.capsule?, h.capsules, State.capsule?]

theorem logError (s : State) (e : LogEntry) : OnlyReads s (s.logError e) := rfl

theorem afterError (s : State) (addr n core : Nat) (store : Bool) : OnlyReads s (s.afterError addr n core store) := by
  simp only [State.afterError]
  split
  case h_3 => split <;> rfl
  case h_6 => split <;> rfl
  all_goals rfl

theorem drawRead (s : State) (key addr : Nat) : OnlyReads s (s.drawRead key addr) := by
  unfold State.drawRead
  split <;> rfl

theorem touchSlice (s : State) (lane addr n : Nat) (store guard : Bool) : OnlyReads s (s.touchSlice lane addr n store guard) := by
  unfold State.touchSlice
  split <;> rfl

theorem fillCross (s : State) (core : Nat) (b : Bearer) (addr : Nat) (msa : Bool) (data : List Byte) :
    OnlyReads s (s.fillCross core b addr msa data) := by
  unfold State.fillCross
  split
  · rfl
  · simp only
    split <;> rfl

theorem fetchLine (s : State) (core : Nat) (b : Bearer) (addr : Nat) (msa : Bool) : OnlyReads s (s.fetchLine core b addr msa).2.2 := by
  have hhome := ((drawRead s b.key addr).trans (touchSlice _ b.lane addr 0 false false)).trans
    (fillCross _ core b addr msa (s.readDev b (addr / 64 * 64) 64))
  simp only [State.fetchLine]
  split
  · exact drawRead ..
  · split
    · split
      · rfl
      · exact hhome
    · exact hhome

theorem engReadUnit (s : State) (cap : Capsule) (core member : Nat) (u : Run) : OnlyReads s (s.engReadUnit cap core member u).s := by
  unfold State.engReadUnit
  split
  · split
    · rfl
    · exact (afterError ..).trans (fetchLine ..)
  · rfl

theorem engRead (s : State) (cap : Capsule) (core member : Nat) (runs : List Run) : OnlyReads s (s.engRead cap core member runs).s := by
  unfold State.engRead
  exact List.foldlRecOn (motive := fun r : EngRead => OnlyReads s r.s) _ _ (refl s) fun r hr u _ => hr.trans (engReadUnit ..)

end OnlyReads

/-! ## Records -/

/-- A fault of a core of a capsule that stands is recorded (R398, R401, R406). -/
theorem sendFault_records {s : State} {inst : Nat} {cap : Capsule} (hcap : s.capsule? inst = some cap) (core : Nat) (r : FaultRec) :
    Records s (s.sendFault inst core r) inst r.disp r.info := by
  simp only [State.sendFault, hcap]
  generalize hd : (if r.disp = 1 ∧ cap.ending = true then s.setCapsule cap.drainFault else s) = d
  have hserial : d.serial = s.serial := by
    rw [← hd]
    split <;> rfl
  split
  next hq =>
    refine ⟨r, cap.ending, rfl, rfl, .inr ⟨core, ?_⟩⟩
    rw [core_setCore_same]
    exact ⟨hq.1, by simp⟩
  next =>
    refine ⟨r, cap.ending, rfl, rfl, .inl ⟨_, List.mem_append_right _ (List.mem_singleton_self _), ?_⟩⟩
    exact ⟨hserial.ge, capsule?_inst hcap, rfl, rfl⟩

theorem chainRefuse_records {s : State} {inst : Nat} {cap : Capsule} (hcap : s.capsule? inst = some cap)
    (core member pc : Nat) (insn : List Byte) (detail aux addr : Nat) (handler : Bool) :
    Records s (s.chainRefuse inst core member pc insn detail aux addr handler) inst 1 ⟨18, detail, aux, addr, false⟩ :=
  sendFault_records hcap ..

/-- A fault that is recorded leaves the posts as they are. -/
theorem sendFault_posts (s : State) (inst core : Nat) (r : FaultRec) : (s.sendFault inst core r).plaza.posts = s.plaza.posts := by
  unfold State.sendFault
  split
  · rfl
  · simp only
    split <;> split <;> rfl

/-! ## Children -/

theorem dropPost_ids (s : State) (id : Nat) : ∀ q ∈ (s.dropPost id).plaza.posts, q.id ≠ id := by
  intro q hq
  simpa using (List.mem_filter.1 hq).2

theorem mem_setPost_self {s : State} {p q : Post} (hp : p ∈ s.plaza.posts) (hid : q.id = p.id) : q ∈ (s.setPost q).plaza.posts :=
  List.mem_map.2 ⟨p, hp, if_pos hid.symm⟩

section ChildQueue

variable {s : State} {id : Nat} {p : Post} {cap : Capsule} (hp : s.plaza.posts.find? (fun p => p.id == id) = some p)
  (hcap : s.capsule? p.inst = some cap) (hqueued : p.queued = false) (hparked : cap.coreParked p.core = false)
  (hstays : (s.core p.core).evicting = false) (hfence : s.fenced p.core p.slot p.slotSerial p.id .w [] = false)
  (hw : ∀ w ∈ p.waits, s.completeAt p.core 6 w = true)

include hp hcap hqueued hparked hstays hfence hw in
/-- The posting core has drained: the Plaza takes the template (R184). -/
theorem execChildQueue_eq : exec (.childQueue id) s = .next (s.queueChild cap p) := by
  change execChildQueue id s = _
  have hall : (p.waits.all fun id => s.completeAt p.core 6 id) = true := List.all_eq_true.2 hw
  simp only [execChildQueue, hp, hcap, event, hqueued, hparked, hstays, hfence, hall, Bool.not_false, Bool.and_self, if_true]

variable (hread : s.obstacle? cap p.member false [(p.addr, s.templateLength cap p.member p.addr)] = none)
include hp hread

/-- A template that passes its checks is sealed and queued (R215). -/
theorem queueChild_queues (hgood : s.templateFault cap p (s.templateRead cap p.core p.member p.addr) = none) :
    ∃ q ∈ (s.queueChild cap p).plaza.posts, q.id = id ∧ q.queued = true ∧
      q.prio = (headerOf (s.templateRead cap p.core p.member p.addr).bytes).prio ∧
      q.image = sealed cap.hdr.owner (s.templateRead cap p.core p.member p.addr).bytes := by
  have hid : p.id = id := by simpa using List.find?_some hp
  have hposts : p ∈ (s.templateRead cap p.core p.member p.addr).s.plaza.posts := by
    rw [State.templateRead, (OnlyReads.engRead ..).posts]
    exact List.mem_of_find?_eq_some hp
  simp only [State.queueChild, hread, hgood]
  refine ⟨_, mem_setPost_self hposts ?_, hid, rfl, rfl, rfl⟩
  rfl

include hcap in
/-- A template that fails its checks is refused with a record of class 18 (R462). -/
theorem queueChild_refuses {detail aux : Nat}
    (hbad : s.templateFault cap p (s.templateRead cap p.core p.member p.addr) = some (detail, aux)) :
    (∀ q ∈ (s.queueChild cap p).plaza.posts, q.id ≠ id) ∧
      Records s (s.queueChild cap p) cap.inst 1 ⟨18, detail, aux, p.addr, false⟩ := by
  have hid : p.id = id := by simpa using List.find?_some hp
  have hreads : OnlyReads s (s.templateRead cap p.core p.member p.addr).s := OnlyReads.engRead ..
  have hcap' : ((s.templateRead cap p.core p.member p.addr).s.dropPost p.id).capsule? cap.inst = some cap := by
    rw [capsule?_inst hcap, ← hcap, ← hreads.capsule?]
    rfl
  simp only [State.queueChild, hread, hbad]
  refine ⟨fun q hq => ?_, ?_⟩
  · rw [State.chainRefuse, State.reportFault, sendFault_posts] at hq
    exact hid ▸ dropPost_ids _ _ q hq
  · have hrec := chainRefuse_records hcap' p.core p.member p.pc p.insn detail aux p.addr p.handler
    unfold Records at hrec ⊢
    rwa [show ((s.templateRead cap p.core p.member p.addr).s.dropPost p.id).serial = s.serial from hreads.serial] at hrec

end ChildQueue

/-! ## Capabilities -/

theorem acquire_capMoves (s : State) (c scope : Nat) : (s.acquire c scope).capMoves = s.capMoves := by
  unfold State.acquire
  split <;> rfl

theorem acquire_capsules (s : State) (c scope : Nat) : (s.acquire c scope).capsules = s.capsules := by
  unfold State.acquire
  split <;> rfl

theorem mapHolderOf_holders {cap : Capsule} {member ext : Nat} {f : Holder → Holder} {r : Option Nat}
    {h : Holder} (hh : h ∈ (cap.mapHolderOf member ext f).holders) (hf : ∀ h, (f h).role = r) (hm : h.member = member)
    (he : h.ext = ext) : h.role = r := by
  obtain ⟨g, -, rfl⟩ := List.mem_map.1 hh
  by_cases hg : g.member = member ∧ g.ext = ext
  · rw [if_pos hg, hf]
  · rw [if_neg hg] at hm he
    exact absurd ⟨hm, he⟩ hg

/-- A capability that arrives has its new role, and the new core has acquired (R357). -/
theorem arriveCap_spec {s : State} {m : CapMove} {cap : Capsule} (hcap : s.capsule? m.inst = some cap) :
    SameMemory s (s.arriveCap cap m) ∧ (∀ o ∈ (s.arriveCap cap m).capMoves, o.id ≠ m.id) ∧
      ∃ cap', (s.arriveCap cap m).capsule? m.inst = some cap' ∧
        (∀ h ∈ cap'.holders, h.member = m.member → h.ext = m.ext → h.role = some (s.core m.toCore).role) ∧
        (2 ≤ scopeOf m.fromCore m.toCore → ((s.arriveCap cap m).core m.toCore).l1 = []) := by
  unfold State.arriveCap
  generalize hcap' : (cap.mapHolderOf m.member m.ext fun h => { h with role := some (s.core m.toCore).role }) = cap'
  have hset : (s.setCapsule cap').capsule? m.inst = some cap' := by
    have hinst : cap.inst = m.inst := capsule?_inst hcap
    exact capsule?_setCapsule hcap (by rw [← hcap', ← hinst]; rfl)
  simp only
  generalize hd : { s.setCapsule cap' with capMoves := (s.setCapsule cap').capMoves.filter fun o => o.id != m.id } = d
  have hpump := pump_lsuMoves (d.acquire m.toCore (scopeOf m.fromCore m.toCore)) m.toCore
  refine ⟨fun x => ?_, fun o ho => ?_, cap', ?_, fun h hh hm he => ?_, fun hs => hpump.l1 _ (acquire_l1 d hs)⟩
  · rw [hpump.mem, acquire_mem, ← hd]
    rfl
  · rw [hpump.capMoves, acquire_capMoves, ← hd] at ho
    simpa using (List.mem_filter.1 ho).2
  · rw [State.capsule?, hpump.capsules, acquire_capsules, ← hd]
    exact hset
  · rw [← hcap'] at hh
    exact mapHolderOf_holders hh (fun _ => rfl) hm he

theorem execCapabilityArrive_eq {s : State} {id : Nat} {m : CapMove} {cap : Capsule}
    (hm : s.capMoves.find? (fun m => m.id == id) = some m) (hcap : s.capsule? m.inst = some cap)
    (hfrom : cap.coreParked m.fromCore = false) (hto : cap.coreParked m.toCore = false) (hstays : (s.core m.toCore).evicting = false)
    (hw : ∀ w ∈ m.waits, s.completeAt m.fromCore (scopeOf m.fromCore m.toCore) w = true) :
    exec (.capabilityArrive id) s = .next (s.arriveCap cap m) := by
  change execCapabilityArrive id s = _
  have hall : (m.waits.all fun id => s.completeAt m.fromCore (scopeOf m.fromCore m.toCore) id) = true := List.all_eq_true.2 hw
  simp only [execCapabilityArrive, hm, hcap, event, hfrom, hto, hstays, hall, Bool.not_false, Bool.and_self, if_true]

/-- Settles O47: what an engine reads leaves posts and capsules, and what a core then sends leaves capabilities and capsules. -/
theorem chainEvents : Obligations.ChainEvents := by
  unfold Obligations.ChainEvents
  refine ⟨fun id p cap s hp hcap hqueued hparked hstays hfence hw hread => ?_,
    fun id m cap s hm hcap hfrom hto hstays hw => ?_⟩
  · have hexec := execChildQueue_eq hp hcap hqueued hparked hstays hfence hw
    refine ⟨fun hgood => ?_, fun detail aux hbad => ⟨_, hexec, queueChild_refuses hp hcap hread hbad⟩⟩
    obtain ⟨q, hq⟩ := queueChild_queues hp hread hgood
    exact ⟨_, q, hexec, hq⟩
  · obtain ⟨hmem, hgone, cap', hspec⟩ := arriveCap_spec hcap
    have hid : m.id = id := by simpa using List.find?_some hm
    exact ⟨_, cap', execCapabilityArrive_eq hm hcap hfrom hto hstays hw, hmem, hid ▸ hgone, hspec⟩

end Sys2Proof.Machine

/-! # Numbers of accesses and packets (O57)

Each lemma of this section carries `NumbersFrom` through one function of the model. Its proof has the shape of the function's body: one
step for each function that the body applies, the innermost state first, and one case for each of its branches. A change outside
accesses, packets and the next number is a step by definition. -/

namespace Sys2Proof.Machine

open Sys2Proof

/-- Accesses and packets have numbers of their own below the next one, which is `k` or above. -/
def NumbersFrom (k : Nat) (s : State) : Prop := Numbered s ∧ k ≤ s.serial

/-- The state that a verdict comes to, if it does, keeps the numbers. -/
inductive VerdictNumbers (k : Nat) : Verdict → Prop
  | next {s : State} (h : NumbersFrom k s) : VerdictNumbers k (.next s)
  | jump {s : State} {target : Nat} (h : NumbersFrom k s) : VerdictNumbers k (.jump s target)
  | leave {s : State} (h : NumbersFrom k s) : VerdictNumbers k (.leave s)
  | block {why : BlockWhy} : VerdictNumbers k (.block why)
  | raise {i : FaultInfo} : VerdictNumbers k (.raise i)

/-- The state that an outcome comes to, if it does, keeps the numbers. -/
inductive OutcomeNumbers (k : Nat) : Host.Outcome State Fault Refusal → Prop
  | next {s : State} (h : NumbersFrom k s) : OutcomeNumbers k (.next s)
  | fault {r : Fault} : OutcomeNumbers k (.fault r)
  | refused {r : Refusal} : OutcomeNumbers k (.refused r)

/-- The numbers of a list are its own, below `b`. -/
def IdsBelow (b : Nat) (l : List Nat) : Prop := l.Nodup ∧ ∀ i ∈ l, i < b

theorem numbered_iff (s : State) :
    Numbered s ↔ IdsBelow s.serial (s.accesses.map (·.id)) ∧ IdsBelow s.serial (s.packets.map (·.id)) := by
  simp [Numbered, IdsBelow, and_assoc]

namespace IdsBelow

variable {b c : Nat} {l m : List Nat}

theorem sublist (h : IdsBelow b l) (hm : m.Sublist l) (hb : b ≤ c) : IdsBelow c m :=
  ⟨h.1.sublist hm, fun i hi => (h.2 i (hm.subset hi)).trans_le hb⟩

/-- The next number is a new one. -/
theorem concat (h : IdsBelow b l) : IdsBelow (b + 1) (l ++ [b]) := by
  obtain ⟨hnodup, hlt⟩ := h
  refine ⟨List.nodup_append.2 ⟨hnodup, List.nodup_singleton b, ?_⟩, fun i hi => ?_⟩
  · intro i hi j hj
    have := hlt i hi
    simp at hj
    omega
  · rcases List.mem_append.1 hi with hi | hi
    · exact Nat.lt_succ_of_lt (hlt i hi)
    · simp at hi
      omega

end IdsBelow

namespace NumbersFrom

variable {k : Nat} {s t : State}

/-- Accesses and packets go or stay, each under its number. -/
theorem of_sublist (h : NumbersFrom k s) (ha : (t.accesses.map (·.id)).Sublist (s.accesses.map (·.id)))
    (hp : (t.packets.map (·.id)).Sublist (s.packets.map (·.id))) (hs : s.serial ≤ t.serial) : NumbersFrom k t := by
  obtain ⟨hnum, hk⟩ := h
  rw [numbered_iff] at hnum
  obtain ⟨hacc, hpkt⟩ := hnum
  exact ⟨(numbered_iff t).2 ⟨hacc.sublist ha hs, hpkt.sublist hp hs⟩, hk.trans hs⟩

theorem onlyReads (h : NumbersFrom k s) (hr : OnlyReads s t) : NumbersFrom k t := by
  have hacc : t.accesses = s.accesses := (congrArg State.accesses hr :)
  have hpkt : t.packets = s.packets := (congrArg State.packets hr :)
  exact h.of_sublist (by rw [hacc]) (by rw [hpkt]) hr.serial.ge

theorem lsuMoves (h : NumbersFrom k s) (hm : LsuMoves s t) : NumbersFrom k t :=
  h.of_sublist (by rw [hm.accessIds]) (by rw [hm.packetIds]) hm.serial

/-- A change outside accesses, packets and the next number. -/
theorem update (h : NumbersFrom k s) {agenda actor freeCount cores mem hbmKeys full sguard stag slice cross stock bad failedHomes results
    fences capMoves layers capsules plaza host} :
    NumbersFrom k { s with
      agenda := agenda, actor := actor, freeCount := freeCount, cores := cores, mem := mem, hbmKeys := hbmKeys, full := full
      sguard := sguard, stag := stag, slice := slice, cross := cross, stock := stock, bad := bad, failedHomes := failedHomes
      results := results, fences := fences, capMoves := capMoves, layers := layers, capsules := capsules, plaza := plaza, host := host } :=
  h

/-- Numbers that nothing keeps. -/
theorem skip (h : NumbersFrom k s) {n : Nat} {agenda actor freeCount cores mem hbmKeys full sguard stag slice cross stock bad failedHomes
    results fences capMoves layers capsules plaza host} :
    NumbersFrom k { s with
      serial := s.serial + n
      agenda := agenda, actor := actor, freeCount := freeCount, cores := cores, mem := mem, hbmKeys := hbmKeys, full := full
      sguard := sguard, stag := stag, slice := slice, cross := cross, stock := stock, bad := bad, failedHomes := failedHomes
      results := results, fences := fences, capMoves := capMoves, layers := layers, capsules := capsules, plaza := plaza, host := host } :=
  h.of_sublist (List.Sublist.refl _) (List.Sublist.refl _) (Nat.le_add_right _ _)

/-- Accesses that change, each under its number. -/
theorem mapAccesses (h : NumbersFrom k s) {f : Access → Access} (hf : ∀ a, (f a).id = a.id) :
    NumbersFrom k { s with accesses := s.accesses.map f } := by
  refine h.of_sublist ?_ (List.Sublist.refl _) le_rfl
  rw [List.map_map, show (Access.id ∘ f) = Access.id from funext hf]

/-- Packets that change, each under its number. -/
theorem mapPackets (h : NumbersFrom k s) {f : Packet → Packet} (hf : ∀ p, (f p).id = p.id) :
    NumbersFrom k { s with packets := s.packets.map f } := by
  refine h.of_sublist (List.Sublist.refl _) ?_ le_rfl
  rw [List.map_map, show (Packet.id ∘ f) = Packet.id from funext hf]

theorem filterAccesses (h : NumbersFrom k s) {p : Access → Bool} : NumbersFrom k { s with accesses := s.accesses.filter p } :=
  h.of_sublist (List.filter_sublist.map _) (List.Sublist.refl _) le_rfl

theorem filterPackets (h : NumbersFrom k s) {p : Packet → Bool} : NumbersFrom k { s with packets := s.packets.filter p } :=
  h.of_sublist (List.Sublist.refl _) (List.filter_sublist.map _) le_rfl

/-- A new access takes the next number. -/
theorem pushAccess (h : NumbersFrom k s) {a : Access} (ha : a.id = s.serial) :
    NumbersFrom k { s with serial := s.serial + 1, accesses := s.accesses ++ [a] } := by
  obtain ⟨hnum, hk⟩ := h
  rw [numbered_iff] at hnum
  obtain ⟨hacc, hpkt⟩ := hnum
  refine ⟨(numbered_iff _).2 ⟨?_, hpkt.sublist (List.Sublist.refl _) (Nat.le_succ _)⟩, Nat.le_succ_of_le hk⟩
  simpa [ha] using hacc.concat

/-- A new packet takes the next number. -/
theorem pushPacket (h : NumbersFrom k s) {p : Packet} (hp : p.id = s.serial) :
    NumbersFrom k { s with serial := s.serial + 1, packets := s.packets ++ [p] } := by
  obtain ⟨hnum, hk⟩ := h
  rw [numbered_iff] at hnum
  obtain ⟨hacc, hpkt⟩ := hnum
  refine ⟨(numbered_iff _).2 ⟨hacc.sublist (List.Sublist.refl _) (Nat.le_succ _), ?_⟩, Nat.le_succ_of_le hk⟩
  simpa [hp] using hpkt.concat

theorem branch {c : Prop} [Decidable c] (hs : NumbersFrom k s) (ht : NumbersFrom k t) : NumbersFrom k (if c then s else t) := by
  split
  · exact hs
  · exact ht

/-- The same where the state is the second of a pair. -/
theorem branchSnd {α : Type} {c : Prop} [Decidable c] {a b : α × State} (ha : NumbersFrom k a.2) (hb : NumbersFrom k b.2) :
    NumbersFrom k (if c then a else b).2 := by
  split
  · exact ha
  · exact hb

theorem foldl {α : Type} {f : State → α → State} {l : List α} (hf : ∀ s a, NumbersFrom k s → NumbersFrom k (f s a))
    (h : NumbersFrom k s) : NumbersFrom k (l.foldl f s) :=
  List.foldlRecOn l f h fun s hs a _ => hf s a hs

end NumbersFrom

section Walk

variable {k : Nat} {s : State}

/-! ## Functions of Machine/Ops -/

theorem NumbersFrom.setCore {c : Nat} {kc : Core} (h : NumbersFrom k s) : NumbersFrom k (s.setCore c kc) := h

theorem NumbersFrom.setSlot {c n : Nat} {sl : Slot} (h : NumbersFrom k s) : NumbersFrom k (s.setSlot c n sl) := h

theorem NumbersFrom.setTask {c n : Nat} {t : Task} (h : NumbersFrom k s) : NumbersFrom k (s.setTask c n t) := h

theorem NumbersFrom.setCapsule {c : Capsule} (h : NumbersFrom k s) : NumbersFrom k (s.setCapsule c) := h

theorem NumbersFrom.tick (h : NumbersFrom k s) : NumbersFrom k s.tick := .skip h

theorem NumbersFrom.setPacket {p : Packet} (h : NumbersFrom k s) : NumbersFrom k (s.setPacket p) :=
  h.mapPackets fun q => by
    split
    · next hid => exact hid.symm
    · rfl

theorem NumbersFrom.dropPacket {id : Nat} (h : NumbersFrom k s) : NumbersFrom k (s.dropPacket id) := h.filterPackets

theorem NumbersFrom.sendPacket {p : Packet} (h : NumbersFrom k s) : NumbersFrom k (s.sendPacket p) := h.pushPacket rfl

theorem NumbersFrom.sendClass3 {inst core dest role : Nat} {body : PktBody} (h : NumbersFrom k s) :
    NumbersFrom k (s.sendClass3 inst core dest role body) := .sendPacket h

theorem NumbersFrom.sendTicketGrant {inst core holder ticket : Nat} (h : NumbersFrom k s) :
    NumbersFrom k (s.sendTicketGrant inst core holder ticket) := .sendClass3 h

theorem NumbersFrom.sendRecord {cap : Capsule} {core : Nat} {r : FaultRec} {late : Bool} (h : NumbersFrom k s) :
    NumbersFrom k (s.sendRecord cap core r late) := .sendClass3 h

theorem NumbersFrom.sendFault {inst core : Nat} {r : FaultRec} (h : NumbersFrom k s) : NumbersFrom k (s.sendFault inst core r) := by
  simp only [State.sendFault]
  split
  · exact h
  · split
    · split
      · exact h
      · exact .sendRecord h
    · split
      · exact h
      · exact .sendRecord h

theorem NumbersFrom.reportFault {inst core member pc : Nat} {insn : List Byte} {disp : Nat} {i : FaultInfo} {handler : Bool}
    (h : NumbersFrom k s) : NumbersFrom k (s.reportFault inst core member pc insn disp i handler) := .sendFault h

theorem NumbersFrom.sendFrame {cap : Capsule} {c n : Nat} {hold : Hold} {late : Bool} (h : NumbersFrom k s) :
    NumbersFrom k (s.sendFrame cap c n hold late) := .sendRecord h

theorem NumbersFrom.flushFaults {cap : Capsule} {c : Nat} {l : List FaultItem} (h : NumbersFrom k s) :
    NumbersFrom k (State.flushFaults cap c l s) := by
  induction l generalizing s with
  | nil => exact h
  | cons i l ih =>
    cases i with
    | record r late => exact ih (.sendRecord h)
    | held n late =>
      unfold State.flushFaults
      split
      · exact ih h
      · split
        · exact ih h
        · split
          · exact h
          · exact ih (.sendFrame h)

theorem NumbersFrom.sendHeld {c : Nat} (h : NumbersFrom k s) : NumbersFrom k (s.sendHeld c) := by
  unfold State.sendHeld
  split
  · split
    · exact h
    · exact .flushFaults h
  · exact h

theorem NumbersFrom.takeFault {c n : Nat} {i : FaultInfo} {pc len : Nat} {insn : List Byte} (h : NumbersFrom k s) :
    NumbersFrom k (s.takeFault c n i pc len insn) := .sendHeld h

theorem NumbersFrom.releaseTask {c n pc : Nat} (h : NumbersFrom k s) : NumbersFrom k (s.releaseTask c n pc) := h

theorem NumbersFrom.transfer {c n pc : Nat} (h : NumbersFrom k s) : NumbersFrom k (s.transfer c n pc) := by
  simp only [State.transfer]
  split <;> exact h

theorem NumbersFrom.endTurn {c n : Nat} {st : SlotState} (h : NumbersFrom k s) : NumbersFrom k (s.endTurn c n st) := h

theorem NumbersFrom.finish {x : Cur} {v : Verdict} (h : NumbersFrom k s) (hv : VerdictNumbers k v) : NumbersFrom k (finish s x v) := by
  cases hv with
  | next ht => exact .transfer ht
  | jump ht => exact .transfer ht
  | leave ht => exact ht
  | block => exact .endTurn h
  | raise => exact .takeFault h

theorem OutcomeNumbers.issue {hd : Head} {len : Nat} {body : Cur → State → Verdict} (h : NumbersFrom k s)
    (hbody : ∀ y t, NumbersFrom k t → VerdictNumbers k (body y t)) : OutcomeNumbers k (issue hd len body s) := by
  simp only [Machine.issue]
  split
  · exact .fault
  · split
    · exact .next h
    · split
      · refine .next (.finish ?_ ?_)
        · split <;> exact h
        · refine hbody _ _ ?_
          split <;> exact h
      · refine .next (.transfer ?_)
        split <;> exact h

theorem VerdictNumbers.checked {l : List (Option FaultInfo)} {v : Verdict} (hv : VerdictNumbers k v) :
    VerdictNumbers k (checked l v) := by
  unfold Machine.checked
  split
  · exact .raise
  · exact hv

theorem OutcomeNumbers.event {enabled : Bool} {eff : State → State} (h : NumbersFrom k s) (heff : NumbersFrom k (eff s)) :
    OutcomeNumbers k (event enabled eff s) := by
  refine .next ?_
  split
  · exact heff
  · exact h

theorem OutcomeNumbers.eventAt {enabled exists_ : Bool} {eff : State → State} (h : NumbersFrom k s) (heff : NumbersFrom k (eff s)) :
    OutcomeNumbers k (eventAt enabled exists_ eff s) := by
  unfold Machine.eventAt
  split
  · exact .fault
  · exact .event h heff

/-! ## Functions of Machine/Fetch -/

theorem NumbersFrom.advance {clocks : List (Nat × Nat)} (h : NumbersFrom k s) : NumbersFrom k (s.advance clocks) :=
  .foldl (fun _ _ ht => ht) h

/-! ## Functions of Machine/Home -/

theorem NumbersFrom.drawRead {key addr : Nat} (h : NumbersFrom k s) : NumbersFrom k (s.drawRead key addr) := by
  unfold State.drawRead
  split <;> exact h

theorem NumbersFrom.claim {b : Bearer} {addr : Nat} (h : NumbersFrom k s) : NumbersFrom k (s.claim b addr) := by
  simp only [State.claim]
  split
  · refine .update ?_
    split <;> exact h
  · exact h

theorem NumbersFrom.writeDev {b : Bearer} {addr : Nat} {data : List Byte} (h : NumbersFrom k s) :
    NumbersFrom k (s.writeDev b addr data) := by
  simp only [State.writeDev]
  split
  · exact h
  · exact .update (.claim h)

theorem NumbersFrom.touchSlice {lane addr n : Nat} {store guard : Bool} (h : NumbersFrom k s) :
    NumbersFrom k (s.touchSlice lane addr n store guard) := by
  simp only [State.touchSlice]
  split <;> exact h

theorem NumbersFrom.markLine {b : Bearer} {addr n : Nat} {msa guard : Bool} (h : NumbersFrom k s) :
    NumbersFrom k (s.markLine b addr n msa guard) := by
  unfold State.markLine
  split
  · exact h
  · split
    · exact h
    · exact .touchSlice h

theorem NumbersFrom.dropCross {addr : Nat} (h : NumbersFrom k s) : NumbersFrom k (s.dropCross addr) := h

theorem NumbersFrom.invalidate {addr : Nat} (h : NumbersFrom k s) : NumbersFrom k (s.invalidate addr) := h

theorem NumbersFrom.fillCross {core : Nat} {b : Bearer} {addr : Nat} {msa : Bool} {data : List Byte} (h : NumbersFrom k s) :
    NumbersFrom k (s.fillCross core b addr msa data) := by
  simp only [State.fillCross]
  split
  · exact h
  · split <;> exact h

theorem NumbersFrom.fetchLine {core : Nat} {b : Bearer} {addr : Nat} {msa : Bool} (h : NumbersFrom k s) :
    NumbersFrom k (s.fetchLine core b addr msa).2.2 := h.onlyReads (.fetchLine ..)

theorem NumbersFrom.setFull {b : Bearer} {addr : Nat} {v : Bool} (h : NumbersFrom k s) : NumbersFrom k (s.setFull b addr v) :=
  .update (.claim h)

theorem NumbersFrom.setAccess {a : Access} (h : NumbersFrom k s) : NumbersFrom k (s.setAccess a) :=
  h.mapAccesses fun b => by
    split
    · next hid => exact hid.symm
    · rfl

theorem NumbersFrom.dropAccess {id : Nat} (h : NumbersFrom k s) : NumbersFrom k (s.dropAccess id) := h.filterAccesses

theorem NumbersFrom.acknowledge {a : Access} (h : NumbersFrom k s) : NumbersFrom k (s.acknowledge a) := .tick (.setAccess h)

theorem NumbersFrom.replyWith {a : Access} {data : List Byte} {guard : Bool} (h : NumbersFrom k s) :
    NumbersFrom k (s.replyWith a data guard) := .acknowledge h

theorem NumbersFrom.storeAt {a : Access} {addr : Nat} {data : List Byte} {guard : Bool} (h : NumbersFrom k s) :
    NumbersFrom k (s.storeAt a addr data guard) := by
  simp only [State.storeAt]
  split
  · exact .markLine (.writeDev h)
  · exact .markLine (.writeDev (.invalidate (.drawRead h)))

theorem NumbersFrom.forwarded {addr number inst : Nat} (h : NumbersFrom k s) : NumbersFrom k (s.forwarded addr number inst) := by
  simp only [State.forwarded]
  split <;> exact h

theorem NumbersFrom.effect {a : Access} (h : NumbersFrom k s) : NumbersFrom k (s.effect a) := by
  simp only [State.effect]
  split
  · split
    · exact .acknowledge h
    · exact .acknowledge (.fetchLine h)
  · exact .replyWith h
  · exact .acknowledge (.forwarded (.storeAt h))
  · exact .acknowledge (.forwarded (.storeAt h))
  · split
    · exact .acknowledge h
    · split
      · exact .acknowledge (.fetchLine h)
      · split
        · exact .fillCross (.touchSlice (.drawRead (.acknowledge h)))
        · exact .touchSlice (.drawRead (.acknowledge h))
  · exact .replyWith h
  · exact .replyWith (.setFull h)
  · exact .acknowledge (.setFull (.storeAt h))
  · exact .acknowledge (.setFull (.storeAt h))
  · exact .acknowledge (.setFull h)
  · exact .acknowledge (.setFull h)
  · exact .replyWith h
  · split
    · refine .replyWith ?_
      split
      · exact .storeAt (.drawRead h)
      · exact .drawRead h
    · refine .acknowledge ?_
      split
      · exact .storeAt (.drawRead h)
      · exact .drawRead h

theorem NumbersFrom.grantHome {c : Nat} (h : NumbersFrom k s) : NumbersFrom k (s.grantHome c) := by
  simp only [State.grantHome]
  refine .foldl (fun _ _ ht => ?_) h
  split
  · exact ht
  · split
    · exact .sendTicketGrant (.setAccess ht)
    · exact ht

theorem NumbersFrom.useTicket {c id : Nat} (h : NumbersFrom k s) : NumbersFrom k (s.useTicket c id) := h

theorem NumbersFrom.multicast {a : Access} (h : NumbersFrom k s) : NumbersFrom k (s.multicast a) := .foldl (fun _ _ ht => .effect ht) h

theorem NumbersFrom.foldlFst {α β : Type} {f : State × β → α → State × β} {l : List α} {r : State × β}
    (hf : ∀ r a, NumbersFrom k r.1 → NumbersFrom k (f r a).1) (h : NumbersFrom k r.1) : NumbersFrom k (l.foldl f r).1 :=
  List.foldlRecOn (motive := fun r => NumbersFrom k r.1) l f h fun r hr a _ => hf r a hr

theorem NumbersFrom.servePass {c word : Nat} (h : NumbersFrom k s) : NumbersFrom k (s.servePass c word).1 := by
  refine .foldlFst (fun r b hr => ?_) h
  simp only
  split
  · exact hr
  · split
    · exact hr
    · split
      · simp only
        split
        · exact .multicast (.effect hr)
        · exact .effect hr
      · split
        · exact .tick (.setAccess hr)
        · exact hr

theorem NumbersFrom.serveWord {c word n : Nat} (h : NumbersFrom k s) : NumbersFrom k (State.serveWord c word n s) := by
  induction n generalizing s with
  | zero => exact h
  | succ n ih =>
    simp only [State.serveWord]
    split
    · exact ih (.servePass h)
    · exact .servePass h

theorem NumbersFrom.afterChange {b : Bearer} {c addr : Nat} {before : Bool} (h : NumbersFrom k s) :
    NumbersFrom k (s.afterChange b c addr before) := by
  unfold State.afterChange
  split
  · exact h
  · exact .grantHome (.foldl (fun _ _ ht => .serveWord ht) h)

theorem NumbersFrom.cancelAccess {a : Access} (h : NumbersFrom k s) : NumbersFrom k (s.cancelAccess a) := .update (.dropAccess h)

theorem NumbersFrom.endCapsule {inst status : Nat} (h : NumbersFrom k s) : NumbersFrom k (s.endCapsule inst status) := by
  unfold State.endCapsule
  split <;> exact h

theorem NumbersFrom.engineError {inst c member pc : Nat} {insn : List Byte} {code ca : Nat} {handler : Bool}
    (h : NumbersFrom k s) : NumbersFrom k (s.engineError inst c member pc insn code ca handler) := .endCapsule (.reportFault h)

theorem NumbersFrom.spaceError {inst c member pc : Nat} {insn : List Byte} {handler : Bool} (h : NumbersFrom k s) :
    NumbersFrom k (s.spaceError inst c member pc insn handler) := .engineError h

theorem VerdictNumbers.readingSpace {x : Cur} {gs : List Nat} {v : Verdict} (h : NumbersFrom k s) (hv : VerdictNumbers k v) :
    VerdictNumbers k (s.readingSpace x gs v) := by
  unfold State.readingSpace
  split
  · exact .next (.spaceError h)
  · exact hv

theorem NumbersFrom.logError {e : LogEntry} (h : NumbersFrom k s) : NumbersFrom k (s.logError e) := h

theorem NumbersFrom.signalEvent (h : NumbersFrom k s) : NumbersFrom k s.signalEvent := by
  simp only [State.signalEvent]
  split <;> exact h

theorem NumbersFrom.afterError {addr n core : Nat} {store : Bool} (h : NumbersFrom k s) :
    NumbersFrom k (s.afterError addr n core store) := by
  simp only [State.afterError]
  split
  · exact h
  · exact h
  · split <;> exact h
  · exact h
  · exact h
  · split <;> exact h

theorem NumbersFrom.memFault {a : Access} {code : Nat} (h : NumbersFrom k s) : NumbersFrom k (s.memFault a code) :=
  .dropAccess (.engineError h)

/-! ## Functions of Machine/Operands -/

theorem NumbersFrom.pendValue {x : Cur} {d : Nat} {v : Word} {guard : Bool} (h : NumbersFrom k s) :
    NumbersFrom k (s.pendValue x d v guard) := .skip h

/-! ## Functions of Machine/Access -/

theorem NumbersFrom.stopFills {core line : Nat} (h : NumbersFrom k s) : NumbersFrom k (s.stopFills core line) :=
  h.mapAccesses fun b => by split <;> rfl

theorem NumbersFrom.l1DropRun {core lo n : Nat} (h : NumbersFrom k s) : NumbersFrom k (s.l1DropRun core lo n) :=
  .mapAccesses (.setCore h) fun b => by split <;> rfl

theorem NumbersFrom.leaveBy {owner core id pkg addr : Nat} {spread : Option Nat} (h : NumbersFrom k s) :
    NumbersFrom k (s.leaveBy owner core id pkg addr spread) := by
  simp only [State.leaveBy]
  split <;> exact h

theorem NumbersFrom.leave {a : Access} (h : NumbersFrom k s) : NumbersFrom k (s.leave a) := by
  unfold State.leave
  split
  · exact .leaveBy h
  · exact h

theorem NumbersFrom.pump {c : Nat} (h : NumbersFrom k s) : NumbersFrom k (s.pump c) := h.lsuMoves (pump_lsuMoves s c)

theorem VerdictNumbers.withPlace {x : Cur} {need : Nat} {go : State → Verdict} (h : NumbersFrom k s)
    (hgo : ∀ t, NumbersFrom k t → VerdictNumbers k (go t)) : VerdictNumbers k (withPlace x s need go) := by
  simp only [Machine.withPlace]
  split
  · split
    · exact hgo _ h
    · exact .block
  · split
    · exact hgo _ h
    · exact .leave (.endTurn (.tick h))

theorem NumbersFrom.addAccess {a : Access} (h : NumbersFrom k s) : NumbersFrom k (s.addAccess a) := h.pushAccess rfl

theorem NumbersFrom.addResult {r : Result} (h : NumbersFrom k s) : NumbersFrom k (s.addResult r) := .skip h

theorem NumbersFrom.lookHit {x : Cur} {tgt : Target} {ca : Nat} (h : NumbersFrom k s) : NumbersFrom k (s.lookHit x tgt ca) := by
  simp only [State.lookHit]
  split
  · split
    · exact h
    · split <;> exact h
  · exact h

theorem VerdictNumbers.accessFault {x : Cur} {f : FaultInfo} (h : NumbersFrom k s) : VerdictNumbers k (s.accessFault x f) := by
  simp only [State.accessFault]
  split
  · refine .next (.engineError ?_)
    split
    · exact .afterError h
    · exact h
  · exact .raise

theorem NumbersFrom.acquire {c scope : Nat} (h : NumbersFrom k s) : NumbersFrom k (s.acquire c scope) := by
  unfold State.acquire
  split
  · exact h
  · exact .mapAccesses (.tick h) fun b => by split <;> rfl

theorem NumbersFrom.fillPart {r part : Nat} {data : List Byte} {guard : Bool} (h : NumbersFrom k s) :
    NumbersFrom k (s.fillPart r part data guard) := h

theorem NumbersFrom.writeResult {r : Result} (h : NumbersFrom k s) : NumbersFrom k (s.writeResult r) := by
  simp only [State.writeResult]
  split
  · split <;> exact h
  · exact h
  · exact h

theorem NumbersFrom.refuseWrite {a : Access} (h : NumbersFrom k s) : NumbersFrom k (s.refuseWrite a) := .replyWith (.reportFault h)

theorem NumbersFrom.takeBack {a : Access} (h : NumbersFrom k s) : NumbersFrom k (s.takeBack a) := by
  simp only [State.takeBack]
  split
  · exact .dropAccess h
  · exact .setAccess h

theorem NumbersFrom.arriveHome {a : Access} {served : Bool} (h : NumbersFrom k s) :
    NumbersFrom k (s.arriveHome a served) := by
  simp only [State.arriveHome]
  split
  · split
    · exact .dropAccess h
    · exact .memFault (.afterError h)
  · split
    · exact .tick (.setAccess h)
    · split
      · exact .refuseWrite h
      · split
        · split
          · exact .grantHome (.afterChange (.useTicket (.effect (.afterError h))))
          · exact .effect (.afterError h)
        · split
          · split
            · exact .takeBack h
            · split
              · exact .grantHome (.cancelAccess h)
              · split
                · exact .tick (.setAccess h)
                · split
                  · exact .tick (.setAccess h)
                  · split <;> exact .setAccess h
          · exact h

theorem NumbersFrom.remoteWrite {q : RemoteReq} {data : List Byte} (h : NumbersFrom k s) : NumbersFrom k (s.remoteWrite q data) := by
  simp only [State.remoteWrite]
  split
  · exact h
  · split
    · exact h
    · exact .markLine (.writeDev h)

theorem NumbersFrom.remoteDone {q : RemoteReq} {reply : List Byte × Nat} (h : NumbersFrom k s) : NumbersFrom k (s.remoteDone q reply) := h

theorem NumbersFrom.performRemote {q : RemoteReq} (h : NumbersFrom k s) : NumbersFrom k (s.performRemote q) := by
  simp only [State.performRemote]
  split
  · exact .remoteDone (.afterError h)
  · split
    · refine .remoteDone ?_
      split
      · exact .drawRead (.afterError h)
      · exact .touchSlice (.drawRead (.afterError h))
    · exact .remoteDone (.remoteWrite (.afterError h))
    · refine .remoteDone ?_
      split
      · exact .remoteWrite (.drawRead (.afterError h))
      · exact .drawRead (.afterError h)

theorem NumbersFrom.setPiece {p : LinePiece} (h : NumbersFrom k s) : NumbersFrom k (s.setPiece p) := h

theorem NumbersFrom.performPiece {w : Inbound} {p : LinePiece} (h : NumbersFrom k s) : NumbersFrom k (s.performPiece w p) := by
  simp only [State.performPiece]
  split
  · exact .setPiece (.logError (.afterError h))
  · split
    · exact .setPiece (.touchSlice (.drawRead (.afterError h)))
    · exact .setPiece (.touchSlice (.writeDev (.invalidate (.afterError h))))

theorem OutcomeNumbers.performOther {id : Nat} (h : NumbersFrom k s) : OutcomeNumbers k (performOther id s) := by
  unfold Machine.performOther
  split
  · exact .eventAt h (.performPiece h)
  · split
    · exact .eventAt h (.performRemote h)
    · exact .next h

theorem OutcomeNumbers.execHomeAccessPerform {acc : Nat} (h : NumbersFrom k s) : OutcomeNumbers k (execHomeAccessPerform acc s) := by
  unfold Machine.execHomeAccessPerform
  split
  · exact .eventAt h (.arriveHome h)
  · exact .performOther h

theorem NumbersFrom.l1Filled {line core : Nat} (h : NumbersFrom k s) : NumbersFrom k (s.l1Filled line core) := by
  unfold State.l1Filled
  split <;> exact h

theorem NumbersFrom.fillL1 {a : Access} (h : NumbersFrom k s) : NumbersFrom k (s.fillL1 a) := by
  simp only [State.fillL1]
  split
  · exact .l1Filled (.stopFills h)
  · exact h

theorem NumbersFrom.freeLane {owner : Nat} (h : NumbersFrom k s) : NumbersFrom k (s.freeLane owner) := by
  simp only [State.freeLane]
  split
  · exact h
  · split <;> exact h

theorem NumbersFrom.replyArrive {a : Access} (h : NumbersFrom k s) : NumbersFrom k (s.replyArrive a) := by
  unfold State.replyArrive
  split
  · split
    · exact .pump (.fillPart (.setAccess (.fillL1 h)))
    · exact .pump (.dropAccess (.fillL1 h))
  · exact .pump (.dropAccess (.fillL1 h))

theorem NumbersFrom.answer {a : Access} (h : NumbersFrom k s) : NumbersFrom k (s.answer a) := by
  unfold State.answer
  refine .replyArrive ?_
  split <;> exact h

theorem NumbersFrom.ackPiece {w : Inbound} {p : LinePiece} (h : NumbersFrom k s) : NumbersFrom k (s.ackPiece w p) := by
  simp only [State.ackPiece]
  split
  · refine .freeLane (.update ?_)
    split <;> exact h
  · refine .setPiece ?_
    split <;> exact h

theorem OutcomeNumbers.replyOther {id : Nat} (h : NumbersFrom k s) : OutcomeNumbers k (replyOther id s) := by
  simp only [Machine.replyOther]
  split
  · exact .event h (.ackPiece h)
  · split
    · split
      · exact .next h
      · refine .next (.freeLane (.update ?_))
        split <;> exact h
    · exact .next h

theorem OutcomeNumbers.execAccessReplyArrive {acc : Nat} (h : NumbersFrom k s) : OutcomeNumbers k (execAccessReplyArrive acc s) := by
  unfold Machine.execAccessReplyArrive
  split
  · exact .event h (.answer h)
  · exact .replyOther h

theorem OutcomeNumbers.execPendingResultWrite {id : Nat} (h : NumbersFrom k s) : OutcomeNumbers k (execPendingResultWrite id s) := by
  unfold Machine.execPendingResultWrite
  split
  · exact .next h
  · exact .event h (.sendHeld (.pump (NumbersFrom.filterAccesses (.writeResult h))))

theorem NumbersFrom.placeElement {core : Nat} {a : Access} (h : NumbersFrom k s) : NumbersFrom k (s.placeElement core a) :=
  .pump (.setAccess h)

theorem OutcomeNumbers.execLsuPlaceGrant {core : Nat} (h : NumbersFrom k s) : OutcomeNumbers k (execLsuPlaceGrant core s) := by
  simp only [Machine.execLsuPlaceGrant]
  split
  · exact .next h
  · exact .event h (.placeElement h)
  · exact .event h h
  · split
    · exact .event h (.placeElement h)
    · exact .event h h

theorem OutcomeNumbers.execLookasideFill {core member ext page : Nat} (h : NumbersFrom k s) :
    OutcomeNumbers k (execLookasideFill core member ext page s) := by
  simp only [Machine.execLookasideFill]
  split
  · split
    · exact .next h
    · split <;> exact .next h
  · exact .next h

theorem NumbersFrom.freeEntries {fe : Fence} (h : NumbersFrom k s) : NumbersFrom k (s.freeEntries fe) := .acquire h

theorem NumbersFrom.endFence {fe : Fence} (h : NumbersFrom k s) : NumbersFrom k (s.endFence fe) := .pump (.acquire h)

theorem OutcomeNumbers.execFenceComplete {core fence : Nat} (h : NumbersFrom k s) :
    OutcomeNumbers k (execFenceComplete core fence s) := by
  simp only [Machine.execFenceComplete]
  split
  · exact .next h
  · split
    · exact .next (.endFence h)
    · exact .event h (.freeEntries h)

theorem OutcomeNumbers.execLdaComplete {core fence : Nat} (h : NumbersFrom k s) : OutcomeNumbers k (execLdaComplete core fence s) := by
  unfold Machine.execLdaComplete
  split
  · exact .next h
  · exact .event h (.endFence h)

theorem OutcomeNumbers.execStlRelease {acc : Nat} (h : NumbersFrom k s) : OutcomeNumbers k (execStlRelease acc s) := by
  unfold Machine.execStlRelease
  split
  · exact .next h
  · split
    · exact .next h
    · exact .event h (.pump (.setAccess h))

theorem OutcomeNumbers.execWsRefreshStart {layer : Nat} (h : NumbersFrom k s) : OutcomeNumbers k (execWsRefreshStart layer s) := by
  unfold Machine.execWsRefreshStart
  refine .event h ?_
  exact h

theorem OutcomeNumbers.execWsRefreshEnd {layer : Nat} (h : NumbersFrom k s) : OutcomeNumbers k (execWsRefreshEnd layer s) := by
  simp only [Machine.execWsRefreshEnd]
  refine .event h (.foldl (fun _ _ ht => ?_) h)
  split
  · exact ht
  · exact .arriveHome ht

/-! ## Functions of Machine/Engine -/

theorem NumbersFrom.afterEngError {cap : Capsule} {core member ca : Nat} (h : NumbersFrom k s) :
    NumbersFrom k (s.afterEngError cap core member ca) := by
  unfold State.afterEngError
  split
  · exact .afterError h
  · exact h

theorem NumbersFrom.engLeave {owner core id addr : Nat} (h : NumbersFrom k s) : NumbersFrom k (s.engLeave owner core id addr) := by
  unfold State.engLeave
  split
  · exact .leaveBy h
  · exact h

theorem NumbersFrom.engReadUnit {cap : Capsule} {core member : Nat} {u : Run} (h : NumbersFrom k s) :
    NumbersFrom k (s.engReadUnit cap core member u).s := h.onlyReads (.engReadUnit ..)

theorem NumbersFrom.engRead {cap : Capsule} {core member : Nat} {runs : List Run} (h : NumbersFrom k s) :
    NumbersFrom k (s.engRead cap core member runs).s := h.onlyReads (.engRead ..)

/-- What a fold over reads keeps. -/
theorem NumbersFrom.foldlReads {α : Type} {f : EngRead → α → EngRead} {l : List α} {r : EngRead}
    (hf : ∀ r a, NumbersFrom k r.s → NumbersFrom k (f r a).s) (h : NumbersFrom k r.s) : NumbersFrom k (l.foldl f r).s :=
  List.foldlRecOn (motive := fun r => NumbersFrom k r.s) l f h fun r hr a _ => hf r a hr

/-- What a fold keeps whose state is the second of a pair. -/
theorem NumbersFrom.foldlSnd {α β : Type} {f : β × State → α → β × State} {l : List α} {r : β × State}
    (hf : ∀ r a, NumbersFrom k r.2 → NumbersFrom k (f r a).2) (h : NumbersFrom k r.2) : NumbersFrom k (l.foldl f r).2 :=
  List.foldlRecOn (motive := fun r => NumbersFrom k r.2) l f h fun r hr a _ => hf r a hr

theorem NumbersFrom.engPut {cap : Capsule} {core id addr : Nat} {ext : Option Extent} {data : List Byte} {whole : Nat} {guard : Bool}
    (h : NumbersFrom k s) : NumbersFrom k (s.engPut cap core id addr ext data whole guard) :=
  .forwarded (.markLine (.writeDev (.invalidate (.afterError (.engLeave h)))))

theorem NumbersFrom.engWrite {cap : Capsule} {core id member ca : Nat} {data : List Byte} {guard : Nat → Bool} (h : NumbersFrom k s) :
    NumbersFrom k (s.engWrite cap core id member ca data guard) := by
  unfold State.engWrite
  refine .foldl (fun _ _ ht => ?_) h
  split
  · exact .engPut ht
  · exact ht

theorem NumbersFrom.dropDyings {cap : Capsule} {member : Nat} {runs : List Run} (h : NumbersFrom k s) :
    NumbersFrom k (s.dropDyings cap member runs) := .foldl (fun _ _ ht => ht) h

theorem NumbersFrom.dropRuns {cap : Capsule} {core member : Nat} {runs : List Run} (h : NumbersFrom k s) :
    NumbersFrom k (s.dropRuns cap core member runs) := by
  unfold State.dropRuns
  refine .foldl (fun _ _ ht => ?_) h
  split
  · exact .l1DropRun ht
  · exact ht

theorem NumbersFrom.afterEntry {c : Nat} (h : NumbersFrom k s) : NumbersFrom k (s.afterEntry c) := .sendHeld (.pump h)

theorem NumbersFrom.pageRecord {inst c member pc : Nat} {insn : List Byte} {queue step page : Nat} {handler : Bool} (h :
    NumbersFrom k s) :
    NumbersFrom k (s.pageRecord inst c member pc insn queue step page handler) := .reportFault h

theorem NumbersFrom.drainRecord {inst c member pc : Nat} {insn : List Byte} {queue step page : Nat} {handler : Bool} (h :
    NumbersFrom k s) :
    NumbersFrom k (s.drainRecord inst c member pc insn queue step page handler) := .reportFault h

/-! ## Functions of Machine/Memory -/

theorem VerdictNumbers.withPlaces {x : Cur} {places : Nat} {l : List (Option FaultInfo)} {ea size : Nat} {use : Use} {word guard : Bool}
    {go : State → Target → Verdict} (h : NumbersFrom k s)
    (hgo : ∀ t tgt, NumbersFrom k t → VerdictNumbers k (go t tgt)) :
    VerdictNumbers k (withPlaces x s places l ea size use word guard go) := by
  unfold Machine.withPlaces
  split
  · exact .raise
  · split
    · exact .accessFault h
    · exact .withPlace h fun _ ht => hgo _ _ ht

theorem VerdictNumbers.withTarget {x : Cur} {l : List (Option FaultInfo)} {ea size : Nat} {use : Use} {word guard : Bool}
    {go : State → Target → Verdict} (h : NumbersFrom k s)
    (hgo : ∀ t tgt, NumbersFrom k t → VerdictNumbers k (go t tgt)) :
    VerdictNumbers k (withTarget x s l ea size use word guard go) := .withPlaces h fun _ _ ht => hgo _ _ ht

theorem NumbersFrom.issueAccess {x : Cur} {tgt : Target} {a : Access} (h : NumbersFrom k s) : NumbersFrom k (s.issueAccess x tgt a) :=
  .pump (.addAccess (.lookHit h))

theorem NumbersFrom.loadRegs {x : Cur} {op : AccOp} {kind : Kind} {ea size : Nat} {tgt : Target} {d count rsize : Nat} {sx : Bool}
    {data : List Byte} {guard : Bool} (h : NumbersFrom k s) :
    NumbersFrom k (loadRegs x s op kind ea size tgt d count rsize sx data guard) := .issueAccess (.addResult h)

theorem NumbersFrom.sendAccess {x : Cur} {op : AccOp} {kind : Kind} {ea size : Nat} {tgt : Target} {data : List Byte} {guard : Bool}
    (h : NumbersFrom k s) : NumbersFrom k (sendAccess x s op kind ea size tgt data guard) := .issueAccess h

theorem OutcomeNumbers.execLd {hd : Head} {f : FmtM} (h : NumbersFrom k s) : OutcomeNumbers k (execLd hd f s) :=
  .issue h fun _ _ ht => .withTarget ht fun _ _ hu => .next (.loadRegs hu)

theorem OutcomeNumbers.execSt {hd : Head} {f : FmtM} (h : NumbersFrom k s) : OutcomeNumbers k (execSt hd f s) :=
  .issue h fun _ _ ht => .withTarget ht fun _ _ hu => .next (.sendAccess hu)

theorem OutcomeNumbers.execLda {hd : Head} {f : FmtML} (h : NumbersFrom k s) : OutcomeNumbers k (execLda hd f s) :=
  .issue h fun _ _ ht => .withTarget ht fun _ _ hu => .next (.skip (.loadRegs hu))

theorem OutcomeNumbers.execStl {hd : Head} {f : FmtML} (h : NumbersFrom k s) : OutcomeNumbers k (execStl hd f s) :=
  .issue h fun _ _ ht => .withTarget ht fun _ _ hu => .next (.issueAccess hu)

theorem VerdictNumbers.tagged {op : AccOp} {f : FmtM} {load data : Bool} {x : Cur} (h : NumbersFrom k s) :
    VerdictNumbers k (tagged op f load data x s) := by
  simp only [Machine.tagged]
  refine .withTarget h fun _ _ ht => ?_
  split
  · exact .next (.loadRegs ht)
  · exact .next (.sendAccess ht)

theorem OutcomeNumbers.execLdf {hd : Head} {f : FmtM} (h : NumbersFrom k s) : OutcomeNumbers k (execLdf hd f s) :=
  .issue h fun _ _ ht => .tagged ht

theorem OutcomeNumbers.execLdfe {hd : Head} {f : FmtM} (h : NumbersFrom k s) : OutcomeNumbers k (execLdfe hd f s) :=
  .issue h fun _ _ ht => .tagged ht

theorem OutcomeNumbers.execSte {hd : Head} {f : FmtM} (h : NumbersFrom k s) : OutcomeNumbers k (execSte hd f s) :=
  .issue h fun _ _ ht => .tagged ht

theorem OutcomeNumbers.execStf {hd : Head} {f : FmtM} (h : NumbersFrom k s) : OutcomeNumbers k (execStf hd f s) :=
  .issue h fun _ _ ht => .tagged ht

theorem OutcomeNumbers.execFeset {hd : Head} {f : FmtM} (h : NumbersFrom k s) : OutcomeNumbers k (execFeset hd f s) :=
  .issue h fun _ _ ht => .tagged ht

theorem OutcomeNumbers.execFeclr {hd : Head} {f : FmtM} (h : NumbersFrom k s) : OutcomeNumbers k (execFeclr hd f s) :=
  .issue h fun _ _ ht => .tagged ht

theorem OutcomeNumbers.execFetst {hd : Head} {f : FmtM} (h : NumbersFrom k s) : OutcomeNumbers k (execFetst hd f s) :=
  .issue h fun _ _ ht => .tagged ht

theorem OutcomeNumbers.execPref {hd : Head} {f : FmtM} (h : NumbersFrom k s) : OutcomeNumbers k (execPref hd f s) := by
  unfold Machine.execPref
  refine .issue h fun _ _ ht => .checked ?_
  split
  · exact .next ht
  · split
    · exact .next (.sendAccess ht)
    · exact .next ht

theorem OutcomeNumbers.execPut {hd : Head} {f : FmtT} (h : NumbersFrom k s) : OutcomeNumbers k (execPut hd f s) := by
  simp only [Machine.execPut]
  refine .issue h fun _ _ ht => .checked (.withPlace ht (fun _ hu => ?_))
  split
  · exact .next hu
  · exact .next (.issueAccess hu)

theorem VerdictNumbers.atomic {op : AccOp} {f : FmtM} {returns : Bool} {src : Nat} {guard : Cur → Bool}
    {l : Cur → List (Option FaultInfo)} {x : Cur} (h : NumbersFrom k s) : VerdictNumbers k (atomic op f returns src guard l x s) := by
  simp only [Machine.atomic]
  refine .withTarget h fun _ _ ht => ?_
  split
  · exact .next (.loadRegs ht)
  · exact .next (.sendAccess ht)

theorem OutcomeNumbers.execAmo {hd : Head} {f : FmtM} (h : NumbersFrom k s) : OutcomeNumbers k (execAmo hd f s) :=
  .issue h fun _ _ ht => .atomic ht

theorem OutcomeNumbers.execCas {hd : Head} {f : FmtM} (h : NumbersFrom k s) : OutcomeNumbers k (execCas hd f s) :=
  .issue h fun _ _ ht => .atomic ht

theorem OutcomeNumbers.execRed {hd : Head} {f : FmtM} (h : NumbersFrom k s) : OutcomeNumbers k (execRed hd f s) :=
  .issue h fun _ _ ht => .atomic ht

theorem OutcomeNumbers.execAmof {hd : Head} {f : FmtM} (h : NumbersFrom k s) : OutcomeNumbers k (execAmof hd f s) :=
  .issue h fun _ _ ht => .atomic ht

theorem OutcomeNumbers.execRedf {hd : Head} {f : FmtM} (h : NumbersFrom k s) : OutcomeNumbers k (execRedf hd f s) :=
  .issue h fun _ _ ht => .atomic ht

theorem OutcomeNumbers.execFence {hd : Head} {f : FmtF} (h : NumbersFrom k s) : OutcomeNumbers k (execFence hd f s) :=
  .issue h fun _ _ ht => .checked (.next (.skip ht))

theorem OutcomeNumbers.execTrack {hd : Head} {f : FmtA} (h : NumbersFrom k s) : OutcomeNumbers k (execTrack hd f s) :=
  .issue h fun _ _ ht => .checked (.next ht)

theorem OutcomeNumbers.execTrackt {hd : Head} {f : FmtA} (h : NumbersFrom k s) : OutcomeNumbers k (execTrackt hd f s) :=
  .issue h fun _ _ ht => .checked (.next ht)

theorem OutcomeNumbers.execUntrack {hd : Head} {f : FmtA} (h : NumbersFrom k s) : OutcomeNumbers k (execUntrack hd f s) :=
  .issue h fun _ _ ht => .next ht

theorem OutcomeNumbers.execQfence {hd : Head} {f : FmtN} (h : NumbersFrom k s) : OutcomeNumbers k (execQfence hd f s) :=
  .issue h fun _ _ ht => .checked (.next (.skip ht))

/-! ## Functions of Machine/Chain -/

theorem NumbersFrom.chainRefuse {inst core member pc : Nat} {insn : List Byte} {detail aux addr : Nat} {handler : Bool}
    (h : NumbersFrom k s) : NumbersFrom k (s.chainRefuse inst core member pc insn detail aux addr handler) := .reportFault h

theorem OutcomeNumbers.execCpost {hd : Head} {f : FmtT} (h : NumbersFrom k s) : OutcomeNumbers k (execCpost hd f s) :=
  .issue h fun _ _ ht => .checked (.next (.skip ht))

theorem NumbersFrom.templateRead {cap : Capsule} {core member addr : Nat} (h : NumbersFrom k s) :
    NumbersFrom k (s.templateRead cap core member addr).3 := .engRead h

theorem NumbersFrom.setPost {p : Post} (h : NumbersFrom k s) : NumbersFrom k (s.setPost p) := h

theorem NumbersFrom.dropPost {id : Nat} (h : NumbersFrom k s) : NumbersFrom k (s.dropPost id) := h

theorem NumbersFrom.queueChild {cap : Capsule} {p : Post} (h : NumbersFrom k s) : NumbersFrom k (s.queueChild cap p) := by
  simp only [State.queueChild]
  split
  · exact h
  · exact .engineError h
  · split
    · exact .chainRefuse (.dropPost (.templateRead h))
    · exact .tick (.setPost (.templateRead h))

theorem OutcomeNumbers.execChildQueue {post : Nat} (h : NumbersFrom k s) : OutcomeNumbers k (execChildQueue post s) := by
  unfold Machine.execChildQueue
  split
  · exact .next h
  · split
    · exact .next h
    · exact .event h (.queueChild h)

theorem NumbersFrom.handOver {cap : Capsule} {c : Nat} {e : Extent} {d : Nat} (h : NumbersFrom k s) :
    NumbersFrom k (s.handOver cap c e d) := .skip h

theorem NumbersFrom.handoverBody {x : Cur} {ca : Nat} {go : Extent → State} (h : NumbersFrom k s)
    (hgo : ∀ e, NumbersFrom k (go e)) : NumbersFrom k (handoverBody x s ca go) := by
  unfold Machine.handoverBody
  split
  · exact .chainRefuse h
  · split
    · exact hgo _
    · exact .chainRefuse h

theorem OutcomeNumbers.execHandover {hd : Head} {f : FmtT} (h : NumbersFrom k s) : OutcomeNumbers k (execHandover hd f s) := by
  simp only [Machine.execHandover]
  refine .issue h fun _ _ ht => .checked ?_
  split
  · exact .next ht
  · exact .next (.handoverBody ht (fun _ => .handOver ht))

theorem NumbersFrom.promise {cap : Capsule} {e : Extent} {p : Post} {c : Extent} (h : NumbersFrom k s) :
    NumbersFrom k (s.promise cap e p c) := by
  simp only [State.promise]
  split <;> exact h

theorem OutcomeNumbers.execHandoverC {hd : Head} {f : FmtT} (h : NumbersFrom k s) : OutcomeNumbers k (execHandoverC hd f s) := by
  simp only [Machine.execHandoverC]
  refine .issue h fun _ _ ht => .checked (.next (.handoverBody ht (fun _ => ?_)))
  split
  · exact .chainRefuse ht
  · split
    · exact .chainRefuse ht
    · exact .promise ht

theorem NumbersFrom.arriveCap {cap : Capsule} {m : CapMove} (h : NumbersFrom k s) : NumbersFrom k (s.arriveCap cap m) :=
  .pump (.acquire h)

theorem OutcomeNumbers.execCapabilityArrive {move : Nat} (h : NumbersFrom k s) : OutcomeNumbers k (execCapabilityArrive move s) := by
  unfold Machine.execCapabilityArrive
  split
  · exact .next h
  · split
    · exact .next h
    · exact .event h (.arriveCap h)

/-! ## Functions of Machine/VecOps -/

theorem VerdictNumbers.vecIssue {x : Cur} {reads writes : List VOpd} {checks : List (Option FaultInfo)} {v : Verdict}
    (h : NumbersFrom k s) (hv : VerdictNumbers k v) : VerdictNumbers k (vecIssue x s reads writes checks v) := by
  unfold Machine.vecIssue
  split
  · exact .block
  · split
    · exact .block
    · exact .checked (.readingSpace h hv)

/-! ## Functions of Machine/Matrix -/

theorem NumbersFrom.enqueue {x : Cur} {e : QmEntry} (h : NumbersFrom k s) : NumbersFrom k (s.enqueue x e) := .skip h

theorem VerdictNumbers.mqIssue {x : Cur} {e : QmEntry} {shape : List (Option FaultInfo)} {regs : List Nat}
    {rest : List (Option FaultInfo)} {mem : List FaultInfo} (h : NumbersFrom k s) :
    VerdictNumbers k (mqIssue x s e shape regs rest mem) := by
  unfold Machine.mqIssue
  split
  · exact .block
  · exact .checked (.next (.enqueue h))

theorem OutcomeNumbers.execMzero {hd : Head} {f : FmtX} (h : NumbersFrom k s) : OutcomeNumbers k (execMzero hd f s) :=
  .issue h fun _ _ ht => .mqIssue ht

theorem OutcomeNumbers.matrixLoad {hd : Head} {f : FmtX} {op : QmOp} (h : NumbersFrom k s) : OutcomeNumbers k (matrixLoad hd f op s) :=
  .issue h fun _ _ ht => .mqIssue ht

theorem OutcomeNumbers.execMld {hd : Head} {f : FmtX} (h : NumbersFrom k s) : OutcomeNumbers k (execMld hd f s) := .matrixLoad h

theorem OutcomeNumbers.execMldSc {hd : Head} {f : FmtX} (h : NumbersFrom k s) : OutcomeNumbers k (execMldSc hd f s) := .matrixLoad h

theorem OutcomeNumbers.execMst {hd : Head} {f : FmtX} (h : NumbersFrom k s) : OutcomeNumbers k (execMst hd f s) :=
  .issue h fun _ _ ht => .mqIssue ht

theorem OutcomeNumbers.execMma {hd : Head} {f : FmtX} (h : NumbersFrom k s) : OutcomeNumbers k (execMma hd f s) :=
  .issue h fun _ _ ht => .mqIssue ht

theorem OutcomeNumbers.execMmas {hd : Head} {f : FmtX} (h : NumbersFrom k s) : OutcomeNumbers k (execMmas hd f s) :=
  .issue h fun _ _ ht => .mqIssue ht

theorem OutcomeNumbers.execMmar {hd : Head} {f : FmtX} (h : NumbersFrom k s) : OutcomeNumbers k (execMmar hd f s) :=
  .issue h fun _ _ ht => .mqIssue ht

theorem OutcomeNumbers.execMmat {hd : Head} {f : FmtX} (h : NumbersFrom k s) : OutcomeNumbers k (execMmat hd f s) := by
  refine .issue h fun x t ht => ?_
  simp only
  generalize hv : mqIssue x t _ _ _ _ _ = v
  have hissue : VerdictNumbers k v := hv ▸ .mqIssue ht
  have hnext : VerdictNumbers k (match (generalizing := false) v with
      | .next s' => .next (s'.setSlot x.c x.n { s'.slot x.c x.n with mmat := some (x.entry t .mmat f).id, task := x.t.setStep 0 })
      | v => v) := by
    cases hissue with
    | next hu => exact .next (.setSlot hu)
    | jump hu => exact .jump hu
    | leave hu => exact .leave hu
    | block => exact .block
    | raise => exact .raise
  split
  · split
    · exact .block
    · exact hnext
  · exact hnext

theorem OutcomeNumbers.execMacc {hd : Head} {f : FmtX} (h : NumbersFrom k s) : OutcomeNumbers k (execMacc hd f s) :=
  .issue h fun _ _ ht => .mqIssue ht

theorem OutcomeNumbers.execMtrn {hd : Head} {f : FmtX} (h : NumbersFrom k s) : OutcomeNumbers k (execMtrn hd f s) :=
  .issue h fun _ _ ht => .mqIssue ht

theorem OutcomeNumbers.execMcode {hd : Head} {f : FmtX} (h : NumbersFrom k s) : OutcomeNumbers k (execMcode hd f s) :=
  .issue h fun _ _ ht => .mqIssue ht

theorem OutcomeNumbers.execTdef {hd : Head} {f : FmtX} (h : NumbersFrom k s) : OutcomeNumbers k (execTdef hd f s) := by
  simp only [Machine.execTdef]
  refine .issue h fun _ _ ht => ?_
  split
  · exact .block
  · exact .checked (.readingSpace ht (.next ht))

theorem OutcomeNumbers.execTqry {hd : Head} {f : FmtX} (h : NumbersFrom k s) : OutcomeNumbers k (execTqry hd f s) :=
  .issue h fun _ _ ht => .mqIssue ht

theorem NumbersFrom.loadTile {cap : Capsule} {c member : Nat} {t : BitVec 1024} {coords : List Nat} {off : Nat}
    (h : NumbersFrom k s) : NumbersFrom k (s.loadTile cap c member t coords off) :=
  .setCore (.foldlReads (fun _ _ hr => .engRead hr) h)

theorem NumbersFrom.loadScales {cap : Capsule} {c member : Nat} {t : BitVec 1024} {coords : List Nat} {off : Nat}
    (h : NumbersFrom k s) : NumbersFrom k (s.loadScales cap c member t coords off) :=
  .setCore (.foldlReads (fun _ _ hr => .engRead hr) h)

theorem NumbersFrom.loadAcc {cap : Capsule} {c member : Nat} {t : BitVec 1024} {coords : List Nat} {off : Nat} {int : Bool}
    (h : NumbersFrom k s) : NumbersFrom k (s.loadAcc cap c member t coords off int) :=
  .setCore (.foldlReads (fun _ _ hr => .engRead hr) h)

theorem NumbersFrom.storeTile {cap : Capsule} {c id member : Nat} {t : BitVec 1024} {coords : List Nat} {ad : Nat} {how : StoreAs}
    {rm : Nat}
    {sat : Bool} (h : NumbersFrom k s) : NumbersFrom k (s.storeTile cap c id member t coords ad how rm sat) := by
  simp only [State.storeTile]
  refine .foldl (fun _ _ ht => ?_) h
  split
  · exact ht
  · exact .engWrite ht

theorem NumbersFrom.finishQm {cap : Capsule} {c : Nat} {e : QmEntry} (h : NumbersFrom k s) : NumbersFrom k (s.finishQm cap c e) := by
  simp only [State.finishQm]
  refine .afterEntry (.dropRuns (.setCore ?_))
  split <;> exact h

theorem NumbersFrom.setQm {c : Nat} {e : QmEntry} (h : NumbersFrom k s) : NumbersFrom k (s.setQm c e) := h

theorem NumbersFrom.qmWritten {cap : Capsule} {c : Nat} {e : QmEntry} (h : NumbersFrom k s) : NumbersFrom k (s.qmWritten cap c e) := by
  unfold State.qmWritten
  split
  · exact h
  · exact .finishQm h

theorem NumbersFrom.tileRecord {cap : Capsule} {c : Nat} {e : QmEntry} {f : FaultInfo} (h : NumbersFrom k s) :
    NumbersFrom k (s.tileRecord cap c e f) := .reportFault h

theorem NumbersFrom.performQm {cap : Capsule} {c : Nat} {e : QmEntry} (h : NumbersFrom k s) : NumbersFrom k (s.performQm cap c e) := by
  simp only [State.performQm]
  split
  · exact h
  · exact .loadTile h
  · exact .loadScales h
  · split
    · exact .tileRecord h
    · exact .storeTile h
  · exact h
  · exact h
  · exact h
  · exact h
  · exact h
  · exact h
  · exact h
  · exact h

theorem NumbersFrom.qmMeet {cap : Capsule} {c : Nat} {e : QmEntry} {reads writes : List Run} {go : State → State} (h : NumbersFrom k s)
    (hgo : ∀ t, NumbersFrom k t → NumbersFrom k (go t)) : NumbersFrom k (s.qmMeet cap c e reads writes go) := by
  simp only [State.qmMeet]
  split
  · exact hgo _ h
  · exact h
  · split
    · exact .finishQm (.drainRecord h)
    · exact .pageRecord h
  · exact .finishQm (.engineError (.afterEngError h))
  · exact .finishQm (.reportFault h)

theorem OutcomeNumbers.execQmEntryPerform {core : Nat} (h : NumbersFrom k s) : OutcomeNumbers k (execQmEntryPerform core s) := by
  unfold Machine.execQmEntryPerform
  split
  · exact .next h
  · simp only
    split
    · exact .event h (.finishQm h)
    · refine .eventAt h ?_
      split
      · exact .finishQm (.spaceError h)
      · split
        · exact .setQm h
        · exact .setQm (h.pushAccess rfl)
        · exact .qmMeet h fun t ht => .qmWritten (.performQm ht)

theorem NumbersFrom.loadOperand {cap : Capsule} {c member : Nat} {t : BitVec 1024} {row kk off : Nat} {wide : Bool} {scale : Option Nat}
    (h : NumbersFrom k s) : NumbersFrom k (s.loadOperand cap c member t row kk off wide scale) := by
  simp only [State.loadOperand]
  split
  · refine .loadScales ?_
    split
    · exact .loadTile (.loadTile h)
    · exact .loadTile h
  · split
    · exact .loadTile (.loadTile h)
    · exact .loadTile h

theorem NumbersFrom.startAcc {cap : Capsule} {c : Nat} {e : QmEntry} (h : NumbersFrom k s) : NumbersFrom k (s.startAcc cap c e) := by
  simp only [State.startAcc]
  split
  · exact .loadAcc h
  · exact h

theorem NumbersFrom.mmatTile {cap : Capsule} {c : Nat} {e : QmEntry} (h : NumbersFrom k s) : NumbersFrom k (s.mmatTile cap c e) :=
  .foldl (fun _ _ ht => .setCore (.loadOperand (.loadOperand ht))) (.startAcc h)

theorem NumbersFrom.mmatStep {cap : Capsule} {c : Nat} {e : QmEntry} (h : NumbersFrom k s) : NumbersFrom k (s.mmatStep cap c e) :=
  .setCore (.mmatTile h)

theorem NumbersFrom.mmatStore {cap : Capsule} {c : Nat} {e : QmEntry} (h : NumbersFrom k s) : NumbersFrom k (s.mmatStore cap c e) :=
  .storeTile h

theorem NumbersFrom.showStep {c : Nat} {e : QmEntry} {step : Nat} (h : NumbersFrom k s) : NumbersFrom k (s.showStep c e step) := by
  simp only [State.showStep]
  split <;> exact h

theorem OutcomeNumbers.execMmatStepComplete {core : Nat} (h : NumbersFrom k s) : OutcomeNumbers k (execMmatStepComplete core s) := by
  simp only [Machine.execMmatStepComplete]
  split
  · exact .next h
  · split
    · exact .event h (.finishQm (.showStep h))
    · refine .eventAt h (.qmMeet h (fun _ ht => ?_))
      split
      · exact .finishQm (.showStep (.tileRecord (.mmatStep ht)))
      · split
        · exact .finishQm (.showStep (.mmatStore (.mmatStep ht)))
        · exact .showStep (.setQm (.mmatStore (.mmatStep ht)))

theorem NumbersFrom.dropFetch {a : Access} (h : NumbersFrom k s) : NumbersFrom k (s.dropFetch a) := by
  unfold State.dropFetch
  split
  · split
    · exact .finishQm h
    · exact h
  · exact h

theorem OutcomeNumbers.execMmarFetchServe {core : Nat} (h : NumbersFrom k s) : OutcomeNumbers k (execMmarFetchServe core s) := by
  simp only [Machine.execMmarFetchServe]
  split
  · exact .next h
  · refine .event h ?_
    split
    · split
      · exact .multicast (.arriveHome h)
      · exact .arriveHome h
    · exact .dropFetch (.arriveHome h)

theorem OutcomeNumbers.execMmarDataArrive {core : Nat} (h : NumbersFrom k s) : OutcomeNumbers k (execMmarDataArrive core s) := by
  simp only [Machine.execMmarDataArrive]
  split
  · exact .next h
  · split
    · exact .next h
    · exact .event h (.finishQm (.dropAccess h))

theorem OutcomeNumbers.execMmarPairLost {core : Nat} (h : NumbersFrom k s) : OutcomeNumbers k (execMmarPairLost core s) := by
  simp only [Machine.execMmarPairLost]
  split
  · exact .next h
  · split
    · exact .next h
    · exact .event h (.finishQm (.reportFault (.grantHome (.useTicket (.dropAccess h)))))

/-! ## Functions of Machine/Copy -/

theorem NumbersFrom.enqueueCopy {c : Nat} {e : CopyEntry} (h : NumbersFrom k s) : NumbersFrom k (s.enqueueCopy c e) := .skip h

theorem VerdictNumbers.copyIssue {kind : CopyKind} {f : FmtC} {x : Cur} (h : NumbersFrom k s) :
    VerdictNumbers k (copyIssue kind f x s) := by
  simp only [Machine.copyIssue]
  split
  · exact .block
  · split
    · exact .block
    · split
      · exact .raise
      · exact .checked (.next (.enqueueCopy h))

theorem OutcomeNumbers.execCopy {hd : Head} {f : FmtC} (h : NumbersFrom k s) : OutcomeNumbers k (execCopy hd f s) :=
  .issue h fun _ _ ht => .copyIssue ht

theorem OutcomeNumbers.execCgath {hd : Head} {f : FmtC} (h : NumbersFrom k s) : OutcomeNumbers k (execCgath hd f s) :=
  .issue h fun _ _ ht => .copyIssue ht

theorem OutcomeNumbers.execCscat {hd : Head} {f : FmtC} (h : NumbersFrom k s) : OutcomeNumbers k (execCscat hd f s) :=
  .issue h fun _ _ ht => .copyIssue ht

theorem OutcomeNumbers.execCredc {hd : Head} {f : FmtC} (h : NumbersFrom k s) : OutcomeNumbers k (execCredc hd f s) :=
  .issue h fun _ _ ht => .copyIssue ht

theorem OutcomeNumbers.execCseal {hd : Head} {f : FmtC} (h : NumbersFrom k s) : OutcomeNumbers k (execCseal hd f s) :=
  .issue h fun _ _ ht => .copyIssue ht

theorem OutcomeNumbers.execCwait {hd : Head} {f : FmtA} (h : NumbersFrom k s) : OutcomeNumbers k (execCwait hd f s) := by
  simp only [Machine.execCwait]
  refine .issue h fun _ _ ht => .checked ?_
  split
  · exact .next ht
  · exact .block

theorem OutcomeNumbers.execCwaitAll {hd : Head} {f : FmtA} (h : NumbersFrom k s) : OutcomeNumbers k (execCwaitAll hd f s) := by
  unfold Machine.execCwaitAll
  refine .issue h fun _ _ ht => ?_
  split
  · exact .block
  · exact .next ht

theorem OutcomeNumbers.execCtest {hd : Head} {f : FmtA} (h : NumbersFrom k s) : OutcomeNumbers k (execCtest hd f s) :=
  .issue h fun _ _ ht => .checked (.next ht)

theorem NumbersFrom.setCopy {c : Nat} {e : CopyEntry} (h : NumbersFrom k s) : NumbersFrom k (s.setCopy c e) := h

theorem NumbersFrom.finishCopy {c : Nat} {e : CopyEntry} (h : NumbersFrom k s) : NumbersFrom k (s.finishCopy c e) := by
  simp only [State.finishCopy]
  refine .afterEntry (.setCore ?_)
  split <;> exact h

theorem NumbersFrom.copyFault {cap : Capsule} {c : Nat} {e : CopyEntry} {cls detail addr : Nat} (h : NumbersFrom k s) :
    NumbersFrom k (s.copyFault cap c e cls detail addr) := .finishCopy (.reportFault h)

theorem NumbersFrom.copyMeet {cap : Capsule} {c : Nat} {e : CopyEntry} {chunk : Nat} {reads writes : List Run} {go : State → State}
    (h : NumbersFrom k s) (hgo : ∀ t, NumbersFrom k t → NumbersFrom k (go t)) :
    NumbersFrom k (s.copyMeet cap c e chunk reads writes go) := by
  simp only [State.copyMeet]
  split
  · exact hgo _ h
  · exact h
  · split
    · exact .finishCopy (.drainRecord h)
    · exact .pageRecord h
  · exact .finishCopy (.engineError (.afterEngError h))
  · exact .copyFault h

theorem NumbersFrom.sendReads {cap : Capsule} {member b : Nat} {runs : List Run} (h : NumbersFrom k s) :
    NumbersFrom k (s.sendReads cap member b runs) := .foldl (fun _ _ ht => ht) h

theorem NumbersFrom.copyRead {cap : Capsule} {core member : Nat} {runs : List Run} (h : NumbersFrom k s) :
    NumbersFrom k (s.copyRead cap core member runs).s := by
  refine .foldlReads (fun r u hr => ?_) h
  split
  · split
    · exact hr
    · exact .engReadUnit hr
  · exact .engReadUnit hr

theorem NumbersFrom.copyPut {cap : Capsule} {core : Nat} {e : CopyEntry} {b : Nat} {l : List CopyWrite} {w : CopyWrite}
    (h : NumbersFrom k s) : NumbersFrom k (s.copyPut cap core e b l w) := by
  unfold State.copyPut
  split
  · split
    · exact h
    · exact .engPut h
  · exact h

theorem NumbersFrom.pieceCodes {cap : Capsule} {c : Nat} {e : CopyEntry} {p : Piece} (h : NumbersFrom k s) :
    NumbersFrom k (s.pieceCodes cap c e p).2.2 := .copyRead h

theorem NumbersFrom.pieceWrite {cap : Capsule} {c : Nat} {e : CopyEntry} {l : List CopyWrite} {p : Piece} (h : NumbersFrom k s) :
    NumbersFrom k (s.pieceWrite cap c e l p).2 := by
  simp only [State.pieceWrite]
  split
  · exact .update (.pieceCodes h)
  · exact .pieceCodes h

theorem NumbersFrom.rowWrites {cap : Capsule} {c : Nat} {e : CopyEntry} {b : Nat} (h : NumbersFrom k s) :
    NumbersFrom k (s.rowWrites cap c e b).2 := by
  unfold State.rowWrites
  refine .foldlSnd (fun r p hr => ?_) (.branch h (.update h))
  exact .pieceWrite (l := r.1) hr

theorem NumbersFrom.scaleWrites {cap : Capsule} {c : Nat} {e : CopyEntry} (h : NumbersFrom k s) :
    NumbersFrom k (s.scaleWrites cap c e).2 := .foldlSnd (fun _ _ hr => .copyRead hr) h

theorem NumbersFrom.sealWrites {cap : Capsule} {c : Nat} {e : CopyEntry} {b : Nat} (h : NumbersFrom k s) :
    NumbersFrom k (s.sealWrites cap c e b).2.2 := .copyRead h

theorem NumbersFrom.performWrites {cap : Capsule} {c : Nat} {e : CopyEntry} {b : Nat} {l : List CopyWrite} (h : NumbersFrom k s) :
    NumbersFrom k (s.performWrites cap c e b l) := .foldl (fun _ _ ht => .copyPut ht) h

theorem NumbersFrom.chunkWrites {cap : Capsule} {c : Nat} {e : CopyEntry} {b : Nat} (h : NumbersFrom k s) :
    NumbersFrom k (s.chunkWrites cap c e b).2 := by
  simp only [State.chunkWrites]
  split
  · exact .scaleWrites (.rowWrites h)
  · exact .rowWrites h

theorem NumbersFrom.chunkDone {cap : Capsule} {c : Nat} {e : CopyEntry} {b : Nat} (h : NumbersFrom k s) :
    NumbersFrom k (s.chunkDone cap c e b) := by
  simp only [State.chunkDone]
  split
  · exact .finishCopy (.setCopy (.setCore (.dropRuns h)))
  · exact .pump (.setCopy (.setCore (.dropRuns h)))

theorem NumbersFrom.chunkWritten {cap : Capsule} {c : Nat} {e : CopyEntry} {b : Nat} (h : NumbersFrom k s) :
    NumbersFrom k (s.chunkWritten cap c e b) := by
  unfold State.chunkWritten
  split
  · exact h
  · exact .chunkDone h

theorem NumbersFrom.countDrop {p : Nat} (h : NumbersFrom k s) : NumbersFrom k (s.countDrop p) := h

theorem NumbersFrom.ackChunk {cap : Capsule} {c : Nat} {e : CopyEntry} {b : Nat} (h : NumbersFrom k s) :
    NumbersFrom k (s.ackChunk cap c e b) := by
  simp only [State.ackChunk]
  split
  · exact .copyFault (.countDrop (.setCopy (.dropDyings h)))
  · exact .chunkDone (.setCopy (.dropDyings h))

theorem NumbersFrom.writeChunk {cap : Capsule} {c : Nat} {e : CopyEntry} {b : Nat} (h : NumbersFrom k s) :
    NumbersFrom k (s.writeChunk cap c e b) := by
  have hsent : NumbersFrom k (({ s with freeCount := s.freeCount + 1 }).sendReads cap e.member b (e.chunkReads b)) := .sendReads h
  unfold State.writeChunk
  split
  · exact .copyFault h
  · simp only
    split
    · exact .chunkWritten (.performWrites (.setCopy (.sealWrites hsent)))
    · split
      · exact .copyFault (.chunkWrites hsent)
      · exact .chunkWritten (.performWrites (.chunkWrites hsent))

theorem NumbersFrom.keepRows {cap : Capsule} {c : Nat} {e : CopyEntry} (h : NumbersFrom k s) : NumbersFrom k (s.keepRows cap c e).2 :=
  .foldlSnd (fun _ _ hr => .copyRead hr) h

theorem NumbersFrom.readIndexes {cap : Capsule} {c : Nat} {e : CopyEntry} (h : NumbersFrom k s) :
    NumbersFrom k (s.readIndexes cap c e).2 := .copyRead (.sendReads h)

theorem NumbersFrom.beginCopy {cap : Capsule} {c : Nat} {e : CopyEntry} (h : NumbersFrom k s) : NumbersFrom k (s.beginCopy cap c e) := by
  unfold State.beginCopy
  split
  · exact .copyFault h
  · exact .setCopy (.keepRows (.sendReads (.readIndexes h)))

theorem OutcomeNumbers.execEngineEntryBegin {core queue : Nat} (h : NumbersFrom k s) :
    OutcomeNumbers k (execEngineEntryBegin core queue s) := by
  simp only [Machine.execEngineEntryBegin]
  split
  · exact .next h
  · exact .eventAt h (.copyMeet h (fun _ ht => .beginCopy ht))

theorem OutcomeNumbers.execCopyChunkWrite {core queue chunk : Nat} (h : NumbersFrom k s) :
    OutcomeNumbers k (execCopyChunkWrite core queue chunk s) := by
  simp only [Machine.execCopyChunkWrite]
  split
  · exact .next h
  · split
    · exact .event h (.ackChunk h)
    · split
      · exact .next (.copyFault h)
      · exact .eventAt h (.copyMeet h (fun _ ht => .writeChunk ht))

/-! ## Functions of Machine/Barrier -/

theorem NumbersFrom.setCoreOrImage {cap : Capsule} {core : Nat} {kc : Core} (h : NumbersFrom k s) :
    NumbersFrom k (s.setCoreOrImage cap core kc) := by
  simp only [State.setCoreOrImage]
  split
  · exact h
  · split <;> exact h

theorem NumbersFrom.mapGroup {inst group : Nat} {f : Group → Group} (h : NumbersFrom k s) : NumbersFrom k (s.mapGroup inst group f) := by
  unfold State.mapGroup
  split <;> exact h

theorem NumbersFrom.combine {inst group role : Nat} (h : NumbersFrom k s) : NumbersFrom k (s.combine inst group role) := by
  unfold State.combine
  split
  · exact h
  · split
    · exact h
    · split
      · exact h
      · split
        · split
          · exact .mapGroup h
          · exact .sendClass3 h
        · exact h

theorem NumbersFrom.takeReport {inst group role child : Nat} (h : NumbersFrom k s) :
    NumbersFrom k (s.takeReport inst group role child) := .combine (.mapGroup h)

theorem NumbersFrom.arriveReport {p : Packet} {g : Group} {group role child : Nat} (h : NumbersFrom k s) :
    NumbersFrom k (s.arriveReport p g group role child) := by
  unfold State.arriveReport
  split
  · exact .takeReport (.dropPacket h)
  · split
    · exact .setPacket (.mapGroup h)
    · exact .setPacket h

theorem NumbersFrom.grantSlots {inst group role core : Nat} (h : NumbersFrom k s) :
    NumbersFrom k (s.grantSlots inst group role core) := by
  simp only [State.grantSlots]
  split
  · exact h
  · refine .foldl (fun _ _ ht => ?_) h
    split
    · split
      · exact ht
      · exact .sendTicketGrant (.setPacket (.mapGroup ht))
    · exact ht

theorem NumbersFrom.resendReport {p : Packet} {g : Group} {group role child : Nat} (h : NumbersFrom k s) :
    NumbersFrom k (s.resendReport p g group role child) := by
  unfold State.resendReport
  split
  · exact .takeReport (.dropPacket (.mapGroup h))
  · exact .arriveReport h

theorem NumbersFrom.afterArrival {inst group core : Nat} (h : NumbersFrom k s) : NumbersFrom k (s.afterArrival inst group core) := by
  unfold State.afterArrival
  split
  · exact h
  · split
    · exact h
    · split
      · split
        · exact .mapGroup h
        · exact h
      · split
        · exact .combine h
        · exact h

theorem NumbersFrom.arrive {c group : Nat} (h : NumbersFrom k s) : NumbersFrom k (s.arrive c group) := by
  simp only [State.arrive]
  split
  · split
    · split
      · exact h
      · split
        · exact h
        · exact .afterArrival h
    · exact h
  · exact h

theorem NumbersFrom.completePhase {inst group status : Nat} (h : NumbersFrom k s) :
    NumbersFrom k (s.completePhase inst group status) := by
  simp only [State.completePhase]
  split
  · exact h
  · split
    · exact h
    · exact .mapGroup (.foldl (fun _ _ ht => .setCoreOrImage ht) h)

theorem NumbersFrom.completeRole {inst group role status : Nat} (h : NumbersFrom k s) :
    NumbersFrom k (s.completeRole inst group role status) := by
  simp only [State.completeRole]
  split
  · exact h
  · split
    · exact h
    · split
      · split
        · exact .combine (.grantSlots (.foldl (fun _ _ ht => .sendClass3 ht) (.mapGroup (.setCoreOrImage h))))
        · exact .grantSlots (.foldl (fun _ _ ht => .sendClass3 ht) (.mapGroup (.setCoreOrImage h)))
      · split
        · exact .combine (.grantSlots (.foldl (fun _ _ ht => .sendClass3 ht) (.mapGroup (.setCoreOrImage h))))
        · exact .grantSlots (.foldl (fun _ _ ht => .sendClass3 ht) (.mapGroup (.setCoreOrImage h)))

theorem NumbersFrom.freeSlot {c n : Nat} (h : NumbersFrom k s) : NumbersFrom k (s.freeSlot c n) := h

theorem NumbersFrom.abandon {c : Nat} (h : NumbersFrom k s) : NumbersFrom k (s.abandon c) := by
  unfold State.abandon
  split
  · exact h
  · split
    · refine .foldl (fun _ _ ht => ?_) h
      split
      · exact .afterArrival ht
      · exact ht
    · exact h

theorem NumbersFrom.endTask {c n : Nat} (h : NumbersFrom k s) : NumbersFrom k (s.endTask c n) := .abandon h

theorem NumbersFrom.setBroken {inst group : Nat} (h : NumbersFrom k s) : NumbersFrom k (s.setBroken inst group) :=
  .mapGroup h.filterPackets

theorem NumbersFrom.breakGroups {c pc member : Nat} {insn : List Byte} (h : NumbersFrom k s) :
    NumbersFrom k (s.breakGroups c pc member insn) := by
  simp only [State.breakGroups]
  split
  · exact h
  · split
    · refine .foldl (fun _ _ ht => ?_) h
      split
      · exact ht
      · exact .reportFault (.setBroken (.completePhase ht))
    · exact h

/-! ## Functions of Machine/Control -/

theorem OutcomeNumbers.execBra {hd : Head} {f : FmtB} (h : NumbersFrom k s) : OutcomeNumbers k (execBra hd f s) :=
  .issue h fun _ _ ht => .checked (.jump ht)

theorem OutcomeNumbers.execBrx {hd : Head} {f : FmtA} (h : NumbersFrom k s) : OutcomeNumbers k (execBrx hd f s) :=
  .issue h fun _ _ ht => .checked (.jump ht)

theorem OutcomeNumbers.execCall {hd : Head} {f : FmtB} (h : NumbersFrom k s) : OutcomeNumbers k (execCall hd f s) :=
  .issue h fun _ _ ht => .checked (.jump ht)

theorem OutcomeNumbers.execRet {hd : Head} {f : FmtA} (h : NumbersFrom k s) : OutcomeNumbers k (execRet hd f s) :=
  .issue h fun _ _ ht => .checked (.jump ht)

theorem OutcomeNumbers.execLoop {hd : Head} {f : FmtB} (h : NumbersFrom k s) : OutcomeNumbers k (execLoop hd f s) := by
  simp only [Machine.execLoop]
  refine .issue h fun _ _ ht => .checked ?_
  split
  · exact .next ht
  · exact .jump ht

theorem OutcomeNumbers.execExit {hd : Head} {f : FmtN} (h : NumbersFrom k s) : OutcomeNumbers k (execExit hd f s) :=
  .issue h fun _ _ ht => .leave (.endTask ht)

theorem VerdictNumbers.atSwitchPoint {x : Cur} {go : Cur → State → Verdict} (h : NumbersFrom k s)
    (hgo : ∀ y t, NumbersFrom k t → VerdictNumbers k (go y t)) : VerdictNumbers k (atSwitchPoint x s go) := by
  simp only [Machine.atSwitchPoint]
  split
  · exact .leave h
  · exact hgo _ _ h

theorem VerdictNumbers.trapBody {cls : Nat} {f : FmtN} {x : Cur} (h : NumbersFrom k s) : VerdictNumbers k (trapBody cls f x s) :=
  .atSwitchPoint h fun _ _ _ => .raise

theorem OutcomeNumbers.execTrap {hd : Head} {f : FmtN} (h : NumbersFrom k s) : OutcomeNumbers k (execTrap hd f s) :=
  .issue h fun _ _ ht => .trapBody ht

theorem OutcomeNumbers.execBkpt {hd : Head} {f : FmtN} (h : NumbersFrom k s) : OutcomeNumbers k (execBkpt hd f s) :=
  .issue h fun _ _ ht => .trapBody ht

/-! ## Functions of Machine/System -/

theorem NumbersFrom.setItem {window : Nat} {index : BitVec 32} {v : Word} {guard : Bool} (h : NumbersFrom k s) :
    NumbersFrom k (s.setItem window index v guard) := by
  simp only [State.setItem]
  split
  · exact h
  · split <;> exact h
  · split <;> exact h

theorem NumbersFrom.drawFor {n : Nat} (h : NumbersFrom k s) : NumbersFrom k (s.drawFor n) := by
  unfold State.drawFor
  split <;> exact h

theorem NumbersFrom.writePriv {kc : Core} {n : Nat} {v : Word} {guard : Bool} (h : NumbersFrom k s) :
    NumbersFrom k (s.writePriv kc n v guard) := by
  unfold State.writePriv
  split
  · exact .setItem h
  · split
    · exact .setItem h
    · split
      · exact .setItem h
      · exact h

theorem OutcomeNumbers.execMfs {hd : Head} {f : FmtS} (h : NumbersFrom k s) : OutcomeNumbers k (execMfs hd f s) := by
  simp only [Machine.execMfs]
  refine .issue h fun _ _ ht => .checked ?_
  split
  · exact .next (.drawFor ht)
  · exact .next ht

theorem OutcomeNumbers.execMts {hd : Head} {f : FmtS} (h : NumbersFrom k s) : OutcomeNumbers k (execMts hd f s) :=
  .issue h fun _ _ ht => .checked (.next (.writePriv ht))

/-! ## Functions of Machine/Tasks -/

theorem NumbersFrom.sendFrom {x : Cur} {dest role cls : Nat} {body : PktBody} {parks : Bool} (h : NumbersFrom k s) :
    NumbersFrom k (x.sendFrom s dest role cls body parks) := .sendPacket h

theorem VerdictNumbers.spawnBody {f : FmtW} {x : Cur} {extra : List (Option FaultInfo)} {dest : Option Nat} (h : NumbersFrom k s) :
    VerdictNumbers k (spawnBody f x s extra dest) := by
  simp only [Machine.spawnBody]
  refine .checked ?_
  split
  · exact .next h
  · exact .next (.setTask (.sendFrom h))

theorem OutcomeNumbers.execSpawn {hd : Head} {f : FmtW} (h : NumbersFrom k s) : OutcomeNumbers k (execSpawn hd f s) :=
  .issue h fun _ _ ht => .spawnBody ht

theorem OutcomeNumbers.execSpawnp {hd : Head} {f : FmtW} (h : NumbersFrom k s) : OutcomeNumbers k (execSpawnp hd f s) :=
  .issue h fun _ _ ht => .spawnBody ht

theorem OutcomeNumbers.execSend {hd : Head} {f : FmtT} (h : NumbersFrom k s) : OutcomeNumbers k (execSend hd f s) := by
  simp only [Machine.execSend]
  refine .issue h fun _ _ ht => .checked ?_
  split
  · exact .next ht
  · exact .next (.setTask (.sendFrom ht))

theorem OutcomeNumbers.execSendResume {hd : Head} {f : FmtT} (h : NumbersFrom k s) : OutcomeNumbers k (execSendResume hd f s) := by
  simp only [Machine.execSendResume]
  refine .issue h fun _ _ ht => .checked ?_
  split
  · exact .next ht
  · exact .next (.sendFrom ht)

theorem OutcomeNumbers.execJoin {hd : Head} {f : FmtT} (h : NumbersFrom k s) : OutcomeNumbers k (execJoin hd f s) :=
  .issue h fun _ _ ht => .withPlaces ht fun _ _ hu => .next (.pump (.foldl (fun _ _ hv => .addAccess hv) (.addResult hu)))

theorem OutcomeNumbers.execJoinRet {hd : Head} {f : FmtT} (h : NumbersFrom k s) : OutcomeNumbers k (execJoinRet hd f s) :=
  .issue h fun _ _ ht => .withTarget ht fun _ _ hu => .leave (.endTask (.sendAccess hu))

theorem OutcomeNumbers.execGo {hd : Head} {f : FmtT} (h : NumbersFrom k s) : OutcomeNumbers k (execGo hd f s) := by
  simp only [Machine.execGo]
  refine .issue h fun _ _ ht => .atSwitchPoint ht fun _ _ hu => .checked ?_
  split
  · exact .accessFault hu
  · exact .leave hu

theorem OutcomeNumbers.execChsend {hd : Head} {f : FmtA} (h : NumbersFrom k s) : OutcomeNumbers k (execChsend hd f s) := by
  simp only [Machine.execChsend]
  refine .issue h fun _ _ ht => ?_
  split
  · exact .checked .raise
  · split
    · exact .block
    · exact .checked (.next ht)

theorem OutcomeNumbers.execChrecv {hd : Head} {f : FmtA} (h : NumbersFrom k s) : OutcomeNumbers k (execChrecv hd f s) := by
  simp only [Machine.execChrecv]
  refine .issue h fun _ _ ht => ?_
  split
  · exact .checked .raise
  · split
    · exact .block
    · exact .checked (.next (.pendValue ht))

theorem OutcomeNumbers.execChmask {hd : Head} {f : FmtN} (h : NumbersFrom k s) : OutcomeNumbers k (execChmask hd f s) :=
  .issue h fun _ _ ht => .next ht

theorem VerdictNumbers.barrierStatus {x : Cur} {d group status : Nat} (h : NumbersFrom k s) :
    VerdictNumbers k (barrierStatus x s d group status) := .next h

theorem VerdictNumbers.barrierWait {x : Cur} {d group : Nat} (h : NumbersFrom k s) : VerdictNumbers k (barrierWait x s d group) := by
  simp only [Machine.barrierWait]
  split
  · split
    · exact .next h
    · exact .block
  · split
    · exact .barrierStatus h
    · exact .leave h

theorem OutcomeNumbers.execBar {hd : Head} {f : FmtT} (h : NumbersFrom k s) : OutcomeNumbers k (execBar hd f s) := by
  unfold Machine.execBar
  refine .issue h fun _ _ ht => .checked (.barrierWait ?_)
  split
  · exact ht
  · exact .arrive ht

theorem OutcomeNumbers.execBara {hd : Head} {f : FmtT} (h : NumbersFrom k s) : OutcomeNumbers k (execBara hd f s) :=
  .issue h fun _ _ ht => .checked (.next (.arrive ht))

theorem OutcomeNumbers.execBarw {hd : Head} {f : FmtT} (h : NumbersFrom k s) : OutcomeNumbers k (execBarw hd f s) :=
  .issue h fun _ _ ht => .checked (.barrierWait ht)

theorem OutcomeNumbers.execSpsend {hd : Head} {f : FmtVX} (h : NumbersFrom k s) : OutcomeNumbers k (execSpsend hd f s) := by
  simp only [Machine.execSpsend]
  refine .issue h fun _ _ ht => .vecIssue ht ?_
  split
  · exact .next ht
  · exact .next (.foldl (fun _ _ hu => .setTask (.sendFrom hu)) ht)

theorem OutcomeNumbers.execDone {hd : Head} {f : FmtN} (h : NumbersFrom k s) : OutcomeNumbers k (execDone hd f s) :=
  .issue h fun _ _ ht => .leave (.endTask (.endCapsule ht))

/-! ## Functions of Machine/Net -/

theorem NumbersFrom.mapHolder {p : Packet} {f : Slot → Slot} (h : NumbersFrom k s) : NumbersFrom k (s.mapHolder p f) := by
  simp only [State.mapHolder]
  split
  · exact h
  · split
    · exact .setCoreOrImage h
    · exact h

theorem NumbersFrom.waitFor {p : Packet} {st : SlotState} (h : NumbersFrom k s) : NumbersFrom k (s.waitFor p st) := .mapHolder h

theorem NumbersFrom.accepted {p : Packet} (h : NumbersFrom k s) : NumbersFrom k (s.accepted p) := .mapHolder h

theorem NumbersFrom.enterQueue {d : Nat} {p : Packet} (h : NumbersFrom k s) : NumbersFrom k (s.enterQueue d p) := .accepted (.setPacket h)

theorem NumbersFrom.enterLane {cap : Capsule} {d : Nat} {p : Packet} (h : NumbersFrom k s) : NumbersFrom k (s.enterLane cap d p) := by
  simp only [State.enterLane]
  split
  · exact .accepted (.setPacket h)
  · split
    · exact .setCapsule (.endCapsule (.reportFault (.accepted (.dropPacket h))))
    · exact .endCapsule (.reportFault (.accepted (.dropPacket h)))

theorem NumbersFrom.enterItem {cap : Capsule} {d : Nat} {c : Core} {item : LaneItem} (h : NumbersFrom k s) :
    NumbersFrom k (s.enterItem cap d c item) := by
  cases item with
  | lane p => exact h
  | spill p => exact h
  | message q r => exact .setCore (h.pushPacket rfl)

theorem NumbersFrom.drain {d n : Nat} (h : NumbersFrom k s) : NumbersFrom k (State.drain d n s) := by
  induction n generalizing s with
  | zero => exact h
  | succ n ih =>
    refine .branch h ?_
    split
    · exact ih (.enterItem h)
    · exact h

theorem NumbersFrom.sendGrant {d : Nat} {p : Packet} (h : NumbersFrom k s) : NumbersFrom k (s.sendGrant d p) :=
  .sendTicketGrant (.waitFor (.setPacket h))

theorem NumbersFrom.grant {d n : Nat} (h : NumbersFrom k s) : NumbersFrom k (State.grant d n s) := by
  induction n generalizing s with
  | zero => exact h
  | succ n ih =>
    simp only [State.grant]
    split
    · exact h
    · split
      · refine ih ?_
        split
        · exact .sendGrant (.setCore h)
        · exact .setCore h
      · exact h

theorem NumbersFrom.settle {d : Nat} (h : NumbersFrom k s) : NumbersFrom k (s.settle d) := .grant (.drain h)

theorem NumbersFrom.arrivePacket {cap : Capsule} {d : Nat} {p : Packet} (h : NumbersFrom k s) :
    NumbersFrom k (s.arrivePacket cap d p) := by
  simp only [State.arrivePacket]
  split
  · exact .enterQueue h
  · split
    · exact .enterLane h
    · split <;> exact .waitFor (.setPacket h)

theorem OutcomeNumbers.execArrivalQueueEnter {pkt : Nat} (h : NumbersFrom k s) : OutcomeNumbers k (execArrivalQueueEnter pkt s) := by
  simp only [Machine.execArrivalQueueEnter]
  split
  · exact .next h
  · split
    · exact .next h
    · exact .event h (.settle (.settle (.arrivePacket h)))

theorem NumbersFrom.resend {cap : Capsule} {d : Nat} {p : Packet} (h : NumbersFrom k s) : NumbersFrom k (s.resend cap d p) := by
  simp only [State.resend]
  split
  · split
    · exact .enterLane h
    · exact .enterQueue h
  · exact .arrivePacket h

theorem NumbersFrom.resendPacket {cap : Capsule} {p : Packet} (h : NumbersFrom k s) : NumbersFrom k (s.resendPacket cap p) := by
  unfold State.resendPacket
  split
  · split
    · exact .resendReport h
    · exact .dropPacket h
  · exact .settle (.settle (.resend h))

theorem NumbersFrom.takeGrant {id : Nat} (h : NumbersFrom k s) : NumbersFrom k (s.takeGrant id) := by
  unfold State.takeGrant
  split
  · split
    · split
      · exact .resendPacket h
      · exact h
    · exact h
  · split
    · exact .tick (.setAccess h)
    · exact h
  · exact h

theorem OutcomeNumbers.execGrantResend {pkt : Nat} (h : NumbersFrom k s) : OutcomeNumbers k (execGrantResend pkt s) := by
  unfold Machine.execGrantResend
  split
  · exact .next h
  · exact .event h (.takeGrant (.dropPacket h))

theorem OutcomeNumbers.execTicketlessResend {pkt : Nat} (h : NumbersFrom k s) : OutcomeNumbers k (execTicketlessResend pkt s) := by
  unfold Machine.execTicketlessResend
  split
  · split
    · exact .event h (.setPacket h)
    · exact .next h
  · split
    · split
      · exact .event h (.tick (.setAccess h))
      · exact .next h
    · exact .next h

theorem NumbersFrom.markFirst {inst c : Nat} {first : Bool} (h : NumbersFrom k s) : NumbersFrom k (s.markFirst inst c first) := by
  unfold State.markFirst
  split
  · split <;> exact h
  · exact h

theorem NumbersFrom.loadSlot {c n : Nat} {p : Packet} (h : NumbersFrom k s) : NumbersFrom k (s.loadSlot c n p) :=
  .markFirst (.tick (.dropPacket h))

theorem OutcomeNumbers.execSlotLoad {core slot : Nat} (h : NumbersFrom k s) : OutcomeNumbers k (execSlotLoad core slot s) := by
  unfold Machine.execSlotLoad
  split
  · exact .next h
  · exact .event h (.settle (.loadSlot h))

theorem NumbersFrom.packTask {cap : Capsule} {core slot d : Nat} (h : NumbersFrom k s) : NumbersFrom k (s.packTask cap core slot d) :=
  .sendPacket h

theorem OutcomeNumbers.execDepartureSend {core slot : Nat} (h : NumbersFrom k s) : OutcomeNumbers k (execDepartureSend core slot s) := by
  simp only [Machine.execDepartureSend]
  split
  · exact .next h
  · split
    · exact .event h (.takeFault h)
    · split
      · exact .next h
      · exact .event h (.packTask h)

theorem OutcomeNumbers.execBarrierLineArrival {pkt : Nat} (h : NumbersFrom k s) : OutcomeNumbers k (execBarrierLineArrival pkt s) := by
  simp only [Machine.execBarrierLineArrival]
  split
  · exact .next h
  · split
    · refine .event h ?_
      split
      · split
        · exact .dropPacket h
        · exact .arriveReport h
      · split
        · exact .dropPacket h
        · exact .completeRole (.dropPacket h)
      · exact .dropPacket h
    · exact .next h

theorem OutcomeNumbers.execBarrierPhaseComplete {inst group : Nat} (h : NumbersFrom k s) :
    OutcomeNumbers k (execBarrierPhaseComplete inst group s) := by
  simp only [Machine.execBarrierPhaseComplete]
  split
  · exact .next h
  · split
    · exact .next h
    · split
      · exact .next h
      · refine .event h ?_
        split
        · exact .completePhase h
        · exact .completeRole h

theorem OutcomeNumbers.execBarrierTimeout {core slot : Nat} (h : NumbersFrom k s) :
    OutcomeNumbers k (execBarrierTimeout core slot s) := by
  simp only [Machine.execBarrierTimeout]
  split
  · exact .event h (.reportFault h)
  · exact .next h

/-! ## Functions of Machine/Faults -/

theorem NumbersFrom.fetchFault {c cls detail aux len : Nat} {insn : List Byte} (h : NumbersFrom k s) :
    NumbersFrom k (s.fetchFault c cls detail aux len insn) := .takeFault h

theorem OutcomeNumbers.execEncodingFault {detail aux : Nat} (h : NumbersFrom k s) :
    OutcomeNumbers k (execEncodingFault detail aux s) := by
  simp only [Machine.execEncodingFault]
  split
  · refine .event h ?_
    split
    · exact h
    · exact .fetchFault h
  · exact .next h

theorem OutcomeNumbers.execSequentialFlowPastCodelen (h : NumbersFrom k s) : OutcomeNumbers k (execSequentialFlowPastCodelen s) := by
  simp only [Machine.execSequentialFlowPastCodelen]
  split
  · exact .next (.fetchFault h)
  · exact .next h

theorem OutcomeNumbers.execInstructionStoreFill {core block : Nat} (h : NumbersFrom k s) :
    OutcomeNumbers k (execInstructionStoreFill core block s) := by
  simp only [Machine.execInstructionStoreFill]
  split
  · exact .next h
  · exact .event h h

theorem NumbersFrom.linkHold {cap : Capsule} {r : FaultRec} {seq : Nat} (h : NumbersFrom k s) : NumbersFrom k (s.linkHold cap r seq) := by
  simp only [State.linkHold]
  split
  · exact .setCoreOrImage h
  · exact h

theorem NumbersFrom.writeRecord {cap : Capsule} {d : Nat} {r : FaultRec} (h : NumbersFrom k s) : NumbersFrom k (s.writeRecord cap d r) :=
  .l1DropRun h

theorem NumbersFrom.handleFault {cap : Capsule} {d : Nat} {r : FaultRec} {late : Bool} (h : NumbersFrom k s) :
    NumbersFrom k (s.handleFault cap d r late) := by
  simp only [State.handleFault]
  split
  · exact .linkHold (.writeRecord h)
  · split
    · refine .endCapsule ?_
      split
      · exact .settle (.setCore (.linkHold (.writeRecord h)))
      · exact .linkHold (.writeRecord h)
    · split
      · exact .settle (.setCore (.linkHold (.writeRecord h)))
      · exact .linkHold (.writeRecord h)

theorem OutcomeNumbers.execFaultPacketHandle {pkt : Nat} (h : NumbersFrom k s) : OutcomeNumbers k (execFaultPacketHandle pkt s) := by
  unfold Machine.execFaultPacketHandle
  split
  · exact .next h
  · split
    · exact .event h (.handleFault (.dropPacket h))
    · exact .next h

theorem NumbersFrom.resumeReg {d n w0 : Nat} {w2 : Word × Bool} (h : NumbersFrom k s) : NumbersFrom k (s.resumeReg d n w0 w2) := by
  unfold State.resumeReg
  split <;> exact h

theorem NumbersFrom.resume {cap : Capsule} {d : Nat} {words : List (Word × Bool)} (h : NumbersFrom k s) :
    NumbersFrom k (s.resume cap d words) := by
  simp only [State.resume]
  split
  · exact h
  · split
    · exact h
    · split
      · exact .releaseTask (.resumeReg h)
      · split
        · exact .releaseTask (.resumeReg h)
        · exact h
      · split
        · exact .takeFault (.resumeReg h)
        · exact .releaseTask (.resumeReg h)
      · exact .breakGroups (.freeSlot (.resumeReg h))
      · exact .endCapsule (.setSlot (.resumeReg h))
      · exact h

theorem OutcomeNumbers.execResumePacketApply {pkt : Nat} (h : NumbersFrom k s) : OutcomeNumbers k (execResumePacketApply pkt s) := by
  unfold Machine.execResumePacketApply
  split
  · exact .next h
  · split
    · refine .event h ?_
      split
      · exact .dropPacket h
      · exact .resume (.dropPacket h)
    · exact .next h

theorem NumbersFrom.dropLookasides {cap : Capsule} {e : Extent} {page : Nat} (h : NumbersFrom k s) :
    NumbersFrom k (s.dropLookasides cap e page) := .foldl (fun _ _ ht => .setCoreOrImage ht) h

theorem NumbersFrom.storeOwn {b : Bearer} {addr : Nat} {data : List Byte} (h : NumbersFrom k s) :
    NumbersFrom k (s.storeOwn b addr data) := .markLine (.writeDev h)

theorem NumbersFrom.evictPage {cap : Capsule} {e : Extent} {n page : Nat} (h : NumbersFrom k s) :
    NumbersFrom k (s.evictPage cap e n page) := .storeOwn (.storeOwn (.dropLookasides h))

theorem NumbersFrom.retryPages {cap : Capsule} {e : Extent} (h : NumbersFrom k s) : NumbersFrom k (s.retryPages cap e) :=
  .foldl (fun _ _ ht => .setCoreOrImage ht) h

theorem NumbersFrom.returnRecords {cap : Capsule} {e : Extent} {n c : Nat} (h : NumbersFrom k s) :
    NumbersFrom k (s.returnRecords cap e n c) := by
  simp only [State.returnRecords]
  refine .foldl (fun _ _ ht => ?_) ?_
  · split
    · exact .reportFault ht
    · exact ht
  · refine .foldl (fun _ _ ht => ?_) ?_
    · split
      · exact .reportFault ht
      · exact ht
    · refine .foldl (fun _ _ ht => ?_) h
      split
      · split
        · exact .sendFault ht
        · exact ht
      · exact ht

theorem NumbersFrom.returnFails {a : Access} {cap : Capsule} {e : Extent} {n : Nat} (h : NumbersFrom k s) :
    NumbersFrom k (s.returnFails a cap e n) := .endCapsule (.foldl (fun _ _ ht => .returnRecords ht) (.reportFault h))

theorem NumbersFrom.writeEntry {a : Access} {present : Bool} (h : NumbersFrom k s) : NumbersFrom k (s.writeEntry a present) :=
  .acknowledge (.forwarded (.storeAt h))

theorem NumbersFrom.returnPage {a : Access} {cap : Capsule} {e : Extent} {n page : Nat} (h : NumbersFrom k s) :
    NumbersFrom k (s.returnPage a cap e n page) := by
  unfold State.returnPage
  split
  · exact .retryPages (.writeEntry h)
  · exact .returnFails (.writeEntry h)

theorem NumbersFrom.pageStore {a : Access} {cap : Capsule} {e : Extent} {n : Nat} {pages : List Nat} {go : State → State}
    (h : NumbersFrom k s) (hgo : ∀ t, NumbersFrom k t → NumbersFrom k (go t)) :
    NumbersFrom k (s.pageStore a cap e n pages go) := by
  unfold State.pageStore
  split
  · exact .memFault (.afterError h)
  · split
    · exact .memFault h
    · exact hgo _ h

theorem OutcomeNumbers.execPageEviction {acc : Nat} (h : NumbersFrom k s) : OutcomeNumbers k (execPageEviction acc s) := by
  simp only [Machine.execPageEviction]
  split
  · exact .next h
  · split
    · refine .event h (.pageStore h (fun _ ht => ?_))
      split
      · exact .returnPage (.evictPage ht)
      · exact .writeEntry (.evictPage ht)
    · exact .next h

theorem OutcomeNumbers.execPageReturn {acc : Nat} (h : NumbersFrom k s) : OutcomeNumbers k (execPageReturn acc s) := by
  unfold Machine.execPageReturn
  split
  · exact .next h
  · split
    · exact .event h (.pageStore h (fun _ ht => .returnPage ht))
    · exact .next h

/-! ## Functions of Machine/Plaza -/

theorem NumbersFrom.devRead {b : Bearer} {addr n : Nat} (h : NumbersFrom k s) : NumbersFrom k (s.devRead b addr n).2 :=
  .foldlSnd (fun _ _ hr => .drawRead hr) h

theorem NumbersFrom.devPut {b : Bearer} {addr : Nat} {data : List Byte} (h : NumbersFrom k s) : NumbersFrom k (s.devPut b addr data) := by
  unfold State.devPut
  split
  · exact .markLine (.writeDev (.dropCross (.afterError h)))
  · exact h

theorem NumbersFrom.devWrite {b : Bearer} {addr : Nat} {data : List Byte} (h : NumbersFrom k s) :
    NumbersFrom k (s.devWrite b addr data) := .foldl (fun _ _ ht => .devPut ht) h

theorem NumbersFrom.extRead {b : Bearer} {e : Extent} {ca n : Nat} {t : State} {l : List Byte} (h : NumbersFrom k s)
    (ht : s.extRead b e ca n = some (l, t)) : NumbersFrom k t := by
  unfold State.extRead at ht
  split at ht
  · refine List.foldlRecOn (motive := fun r => ∀ l t, r = some (l, t) → NumbersFrom k t) _ _ ?_ (fun r hr u _ => ?_) l t ht
    · intro l t h0
      obtain ⟨-, rfl⟩ := Prod.mk.inj (Option.some.inj h0)
      exact h
    · intro l t hu
      obtain ⟨⟨l1, t1⟩, hr1, hbind⟩ := Option.bind_eq_some_iff.1 hu
      obtain ⟨a, -, hread⟩ := Option.bind_eq_some_iff.1 hbind
      split at hread
      · obtain ⟨-, rfl⟩ := Prod.mk.inj (Option.some.inj hread)
        exact .drawRead (hr l1 t1 hr1)
      · cases hread
  · cases ht

theorem NumbersFrom.takeLane {owner n : Nat} {t : State} (h : NumbersFrom k s) (ht : s.takeLane owner = some (n, t)) :
    NumbersFrom k t := by
  unfold State.takeLane at ht
  split at ht
  · obtain ⟨-, rfl⟩ := Prod.mk.inj (Option.some.inj ht)
    exact h
  · obtain ⟨m, -, hm⟩ := Option.map_eq_some_iff.1 ht
    obtain ⟨-, rfl⟩ := Prod.mk.inj hm
    exact h

theorem NumbersFrom.putRecord {compl : Nat} {bytes : List Byte} (h : NumbersFrom k s) : NumbersFrom k (s.putRecord compl bytes) :=
  .devWrite h

theorem NumbersFrom.dueMsix {queue : Option Nat} (h : NumbersFrom k s) : NumbersFrom k (s.dueMsix queue) := by
  simp only [State.dueMsix]
  split <;> exact h

theorem NumbersFrom.refusedRecords {compls : List Nat} {merged : Bool} {queue : Option Nat} (h : NumbersFrom k s) :
    NumbersFrom k (s.refusedRecords compls merged queue) := .dueMsix (.foldl (fun _ _ ht => .putRecord ht) h)

theorem NumbersFrom.refuseSeal {unit addr : Nat} (h : NumbersFrom k s) : NumbersFrom k (s.refuseSeal unit addr) := h

theorem NumbersFrom.killMisses {inst : Nat} (h : NumbersFrom k s) : NumbersFrom k (s.killMisses inst) := by
  simp only [State.killMisses]
  split <;> exact h

theorem NumbersFrom.refuseLaunch {cap : Capsule} (h : NumbersFrom k s) : NumbersFrom k (s.refuseLaunch cap) :=
  .freeLane (.refusedRecords (.killMisses h))

theorem NumbersFrom.disableQueue {q : Nat} (h : NumbersFrom k s) : NumbersFrom k (s.disableQueue q) := by
  simp only [State.disableQueue]
  split <;> exact h

/-! ## Functions of Machine/Launch -/

theorem NumbersFrom.abortBelow {prio : Nat} (h : NumbersFrom k s) : NumbersFrom k (s.abortBelow prio) := h

theorem OutcomeNumbers.execWalkerServe (h : NumbersFrom k s) : OutcomeNumbers k (execWalkerServe s) := by
  simp only [Machine.execWalkerServe]
  split
  · exact .next h
  · exact .event h h

theorem NumbersFrom.readCapsule {a : Nat} (h : NumbersFrom k s) : NumbersFrom k (s.readCapsule a).2 := by
  simp only [State.readCapsule]
  split
  · split
    · exact .devRead h
    · split
      · exact .devRead (.devRead h)
      · exact .devRead h
  · exact h

theorem NumbersFrom.nextSlot {q : Nat} (h : NumbersFrom k s) : NumbersFrom k (s.nextSlot q).2.2 := .readCapsule (.devRead h)

theorem NumbersFrom.consume {q : Nat} (h : NumbersFrom k s) : NumbersFrom k (s.consume q) := h

theorem NumbersFrom.gather {q prio : Nat} {merge : Bool} {n : Nat} {got : List (Nat × List Byte)} (h : NumbersFrom k s) :
    NumbersFrom k (State.gather q prio merge n got s).2 := by
  induction n generalizing s got with
  | zero => exact h
  | succ n ih =>
    unfold State.gather
    split
    · exact h
    · split
      next a image s1 hslot =>
        have hs1 : NumbersFrom k s1 := by
          have hnext : NumbersFrom k (s.nextSlot q).2.2 := .nextSlot h
          rwa [hslot] at hnext
        split
        · exact ih (.refuseSeal (.consume hs1))
        · split
          · exact ih (.refuseSeal (.consume hs1))
          · exact .branchSnd (ih (.consume hs1)) hs1
          · exact .branchSnd (ih (.consume hs1)) hs1

theorem NumbersFrom.nextInstance (h : NumbersFrom k s) : NumbersFrom k s.nextInstance := by
  simp only [State.nextInstance]
  refine .update ?_
  split <;> exact h

theorem NumbersFrom.letIn {queue post parent : Option Nat} {got : List (Nat × List Byte)} {t : State} (h : NumbersFrom k s)
    (ht : s.letIn queue post parent got = some t) : NumbersFrom k t := by
  simp only [State.letIn] at ht
  split at ht
  · exact Option.some.inj ht ▸ h
  · split at ht
    · cases ht
    next hlane => exact Option.some.inj ht ▸ .nextInstance (.update (.takeLane (.update h) hlane))

theorem NumbersFrom.takeLaunch {q prio : Nat} {got : List (Nat × List Byte)} {t : State} (h : NumbersFrom k s)
    (ht : s.takeLaunch q prio got = some t) : NumbersFrom k t := by
  simp only [State.takeLaunch] at ht
  split at ht
  · exact .letIn (.abortBelow h) ht
  · exact Option.some.inj ht ▸ .update (.refusedRecords (.abortBelow h))

theorem NumbersFrom.getD {o : Option State} (ho : ∀ t, o = some t → NumbersFrom k t) (h : NumbersFrom k s) :
    NumbersFrom k (o.getD s) := by
  cases o with
  | none => exact h
  | some t => exact ho t rfl

theorem OutcomeNumbers.execCapsuleTake (h : NumbersFrom k s) : OutcomeNumbers k (execCapsuleTake s) := by
  simp only [Machine.execCapsuleTake]
  split
  · exact .next h
  · refine .next ?_
    split
    · exact .getD (fun t ht => .takeLaunch (.gather h) ht) h
    · exact h
  · split
    · exact .next h
    · refine .next ?_
      split
      · exact .getD (fun t ht => .letIn (.abortBelow (.setPost h)) ht) h
      · exact h

theorem NumbersFrom.readCode {cap : Capsule} {t : State} {l : List Byte} (h : NumbersFrom k s)
    (ht : s.readCode cap = some (l, t)) : NumbersFrom k t := by
  simp only [State.readCode] at ht
  split at ht
  · split at ht
    · have hread : NumbersFrom k (s.devRead openBearer cap.hdr.codeaddr cap.hdr.codelen).2 := .devRead h
      rwa [Option.some.inj ht] at hread
    · cases ht
  · obtain ⟨e, -, he⟩ := Option.bind_eq_some_iff.1 ht
    exact .extRead h he

theorem NumbersFrom.setCode {cap : Capsule} {code : List Byte} (h : NumbersFrom k s) : NumbersFrom k (s.setCode cap code) := h

theorem NumbersFrom.verifyCode {cap : Capsule} (h : NumbersFrom k s) : NumbersFrom k (s.verifyCode cap) := by
  unfold State.verifyCode
  split
  · exact .refuseLaunch h
  · split
    · exact .setCode h
    · split
      · exact .refuseLaunch h
      next hcode =>
        have hs1 := h.readCode hcode
        split
        · exact .setCode (.update hs1)
        · exact .refuseLaunch hs1

theorem OutcomeNumbers.execCodeImageVerify {inst : Nat} (h : NumbersFrom k s) : OutcomeNumbers k (execCodeImageVerify inst s) := by
  unfold Machine.execCodeImageVerify
  split
  · exact .next h
  · exact .event h (.verifyCode h)

theorem OutcomeNumbers.execGangReserve {inst chiplet : Nat} {cores : List Nat} (h : NumbersFrom k s) :
    OutcomeNumbers k (execGangReserve inst chiplet cores s) := by
  unfold Machine.execGangReserve
  split
  · exact .next h
  next cap _ =>
    split
    next ready _ =>
      have hstart : NumbersFrom k
          (if s.placeableOn cap ready (s.reservable cap) then (ready, s) else ([], s.setCapsule cap.abort)).2 := by
        split
        · exact h
        · exact .setCapsule h
      split
      · exact .next (.refuseLaunch h)
      · exact .event h (.setCapsule hstart)
    · exact .next h

theorem NumbersFrom.sendSeeds {cap : Capsule} {role c : Nat} (h : NumbersFrom k s) : NumbersFrom k (s.sendSeeds cap role c) :=
  .foldl (fun _ _ ht => .sendPacket ht) h

theorem NumbersFrom.prunePosts (h : NumbersFrom k s) : NumbersFrom k s.prunePosts := h

theorem NumbersFrom.commit {cap : Capsule} {groups : List Group} (h : NumbersFrom k s) : NumbersFrom k (s.commit cap groups) :=
  .prunePosts (.foldl (fun _ _ ht => .sendSeeds ht) (.foldl (fun _ _ ht => ht) (.foldl (fun _ _ ht => ht) (.tick h))))

theorem OutcomeNumbers.execGangCommit {inst : Nat} (h : NumbersFrom k s) : OutcomeNumbers k (execGangCommit inst s) := by
  unfold Machine.execGangCommit
  split
  · exact .next h
  · split
    · split
      · exact .next h
      · refine .event h ?_
        split
        · exact h
        · split
          · exact .commit h
          · exact h
    · exact .next h

theorem NumbersFrom.floorPoints (h : NumbersFrom k s) : NumbersFrom k s.floorPoints := h

theorem OutcomeNumbers.execOperatingPointReached {inst : Nat} (h : NumbersFrom k s) :
    OutcomeNumbers k (execOperatingPointReached inst s) := by
  simp only [Machine.execOperatingPointReached]
  split
  · exact .next h
  · split
    · split
      · exact .next h
      · refine .event h ?_
        split
        · exact h
        · exact .commit h
    · exact .next h

/-! ## Functions of Machine/Complete -/

theorem NumbersFrom.flushNow {cap : Capsule} {c : Nat} {l : List FaultItem} (h : NumbersFrom k s) :
    NumbersFrom k (State.flushNow cap c l s) := by
  induction l generalizing s with
  | nil => exact h
  | cons i l ih =>
    cases i with
    | record r late => exact ih (.sendRecord h)
    | held n late =>
      refine ih ?_
      split
      · split
        · exact h
        · exact .sendFrame h
      · exact h

theorem NumbersFrom.flushHeld {inst c : Nat} (h : NumbersFrom k s) : NumbersFrom k (s.flushHeld inst c) := by
  unfold State.flushHeld
  split
  · exact .flushNow h
  · exact h

theorem NumbersFrom.countDiscarded {inst n : Nat} (h : NumbersFrom k s) : NumbersFrom k (s.countDiscarded inst n) := by
  unfold State.countDiscarded
  split <;> exact h

theorem NumbersFrom.stopCore {inst c : Nat} (h : NumbersFrom k s) : NumbersFrom k (s.stopCore inst c) :=
  .filterPackets (.setCore (.countDiscarded (.flushHeld h)))

theorem NumbersFrom.dropPackets {cap : Capsule} (h : NumbersFrom k s) : NumbersFrom k (s.dropPackets cap) :=
  .countDiscarded h.filterPackets

theorem NumbersFrom.cancelWaits {inst : Nat} (h : NumbersFrom k s) : NumbersFrom k (s.cancelWaits inst) := by
  simp only [State.cancelWaits]
  refine .foldl (fun _ _ ht => ?_) h
  split
  · refine .dropFetch ?_
    split
    · exact .grantHome (.cancelAccess ht)
    · exact .cancelAccess ht
  · split
    · exact .grantHome (.cancelAccess ht)
    · exact .cancelAccess ht

theorem NumbersFrom.cancelEntries {cap : Capsule} {c status : Nat} (h : NumbersFrom k s) :
    NumbersFrom k (s.cancelEntries cap c status) := by
  simp only [State.cancelEntries]
  refine .foldl (fun _ _ ht => ?_) ?_
  · split
    · refine .finishQm ?_
      split
      · exact ht
      · exact .drainRecord ht
    · split
      · refine .foldl (fun _ _ hu => ?_) (.finishQm ht)
        split
        · exact .cancelAccess hu
        · exact hu
      · exact ht
  · refine .foldl (fun _ _ ht => ?_) h
    split
    · refine .finishCopy ?_
      split
      · exact ht
      · exact .drainRecord ht
    · split
      · exact .finishCopy ht
      · exact ht

theorem NumbersFrom.dropWork {a : Access} {i : FaultInfo} (h : NumbersFrom k s) : NumbersFrom k (s.dropWork a i) := by
  simp only [State.dropWork]
  split
  · exact .dropFetch (.cancelAccess (.reportFault h))
  · exact .cancelAccess (.reportFault h)

theorem NumbersFrom.releaseLost {cap : Capsule} {a : Access} (h : NumbersFrom k s) : NumbersFrom k (s.releaseLost cap a) := by
  unfold State.releaseLost
  split
  · exact .tick (.setAccess (.leave h))
  · exact .cancelAccess h

theorem NumbersFrom.lostAccess {cap : Capsule} {gone : Bool} {a : Access} (h : NumbersFrom k s) :
    NumbersFrom k (s.lostAccess cap gone a) := by
  unfold State.lostAccess
  split
  · exact .releaseLost h
  · split
    · exact .dropWork h
    · split
      · exact .dropWork h
      · exact h

theorem NumbersFrom.dropEntries {cap : Capsule} {gone : Bool} {c : Nat} (h : NumbersFrom k s) :
    NumbersFrom k (s.dropEntries cap gone c) := by
  simp only [State.dropEntries]
  refine .foldl (fun _ _ ht => ?_) ?_
  · split
    · exact .finishQm (.reportFault ht)
    · exact ht
  · refine .foldl (fun _ _ ht => ?_) h
    split
    · exact .finishCopy (.reportFault ht)
    · exact ht

theorem NumbersFrom.cancelLost {cap : Capsule} {gone : Bool} (h : NumbersFrom k s) : NumbersFrom k (s.cancelLost cap gone) :=
  .foldl (fun _ _ ht => .dropEntries ht) (.update (.foldl (fun _ _ ht => .lostAccess ht) h))

theorem NumbersFrom.discardParked {cap : Capsule} (h : NumbersFrom k s) : NumbersFrom k (s.discardParked cap) :=
  .countDiscarded h.filterPackets

theorem NumbersFrom.endNow {cap : Capsule} {status : Nat} (h : NumbersFrom k s) : NumbersFrom k (s.endNow cap status) := by
  simp only [State.endNow]
  refine .cancelLost (.foldl (fun _ _ ht => .cancelEntries ht) (.cancelWaits ?_))
  split
  · exact .discardParked (.dropPackets (.foldl (fun _ _ ht => .stopCore ht) h))
  · exact .dropPackets (.foldl (fun _ _ ht => .stopCore ht) h)

theorem OutcomeNumbers.execCapsuleComplete {inst : Nat} (h : NumbersFrom k s) : OutcomeNumbers k (execCapsuleComplete inst s) := by
  unfold Machine.execCapsuleComplete
  split
  · exact .next h
  · split
    · exact .next h
    · exact .event h (.endNow h)

theorem NumbersFrom.moveToChild {cap : Capsule} {holder : Holder} (h : NumbersFrom k s) : NumbersFrom k (s.moveToChild cap holder) := by
  simp only [State.moveToChild]
  split
  · split
    · exact h
    · split <;> exact h
  · exact h

theorem NumbersFrom.writeRecords {cap : Capsule} (h : NumbersFrom k s) : NumbersFrom k (s.writeRecords cap) :=
  .foldl (fun _ _ ht => .putRecord ht) h

theorem NumbersFrom.freeCapsule {cap : Capsule} (h : NumbersFrom k s) : NumbersFrom k (s.freeCapsule cap) :=
  .freeLane (.prunePosts (.update h.filterPackets))

theorem NumbersFrom.killEnds {cap : Capsule} (h : NumbersFrom k s) : NumbersFrom k (s.killEnds cap) := by
  simp only [State.killEnds]
  split <;> exact h

theorem OutcomeNumbers.execCompletionRecordWrite {inst : Nat} (h : NumbersFrom k s) :
    OutcomeNumbers k (execCompletionRecordWrite inst s) := by
  simp only [Machine.execCompletionRecordWrite]
  split
  · exact .next h
  · refine .event h (.killEnds (.dueMsix (.floorPoints (.freeCapsule (.writeRecords ?_)))))
    split
    · exact .foldl (fun _ _ ht => .moveToChild ht) h
    · exact h

theorem OutcomeNumbers.execMsixSend {queue : Nat} (h : NumbersFrom k s) : OutcomeNumbers k (execMsixSend queue s) := .event h h

/-! ## Functions of Machine/Registers -/

theorem NumbersFrom.writeCfgByte {o : Nat} {b : Byte} (h : NumbersFrom k s) : NumbersFrom k (s.writeCfgByte o b) := by
  simp only [State.writeCfgByte]
  split
  · exact h
  · split <;> exact h

theorem NumbersFrom.enableQueue {q value : Nat} (h : NumbersFrom k s) : NumbersFrom k (s.enableQueue q value) := by
  simp only [State.enableQueue]
  split <;> exact h

theorem NumbersFrom.writeQcfg {q value : Nat} (h : NumbersFrom k s) : NumbersFrom k (s.writeQcfg q value) := by
  simp only [State.writeQcfg]
  split
  · split
    · exact h
    · exact .disableQueue h
  · split
    · exact .enableQueue h
    · exact h

theorem OutcomeNumbers.hostEvent {ok : Bool} {f : State → State} (h : NumbersFrom k s)
    (hf : ∀ t, NumbersFrom k t → NumbersFrom k (f t)) : OutcomeNumbers k (hostEvent s ok f) := .event h (hf _ h)

theorem OutcomeNumbers.execQcfgEnable {queue value : Nat} (h : NumbersFrom k s) : OutcomeNumbers k (execQcfgEnable queue value s) :=
  .hostEvent h fun _ ht => .enableQueue ht

theorem OutcomeNumbers.execQcfgDisable {queue : Nat} (h : NumbersFrom k s) : OutcomeNumbers k (execQcfgDisable queue s) :=
  .hostEvent h fun _ ht => .disableQueue ht

theorem NumbersFrom.wake (h : NumbersFrom k s) : NumbersFrom k s.wake := by
  simp only [State.wake]
  split
  · exact h
  · exact .signalEvent h
  · exact h

theorem NumbersFrom.post {queue size word : Nat} (h : NumbersFrom k s) : NumbersFrom k (s.post queue size word) := by
  simp only [State.post]
  split
  · exact .wake h
  · exact h

theorem OutcomeNumbers.execSubmit {rid queue size word : Nat} (h : NumbersFrom k s) :
    OutcomeNumbers k (execSubmit rid queue size word s) := .hostEvent h fun _ ht => .post ht

theorem NumbersFrom.setWindow {w : Nat} {v : Window} (h : NumbersFrom k s) : NumbersFrom k (s.setWindow w v) := h

theorem NumbersFrom.enableWindow {w : Nat} (h : NumbersFrom k s) : NumbersFrom k (s.enableWindow w) := by
  simp only [State.enableWindow]
  split
  · exact h
  · split
    · split
      · exact .setWindow h
      · split
        next hlane => exact .setWindow (h.takeLane hlane)
        · exact .setWindow h
    · exact .setWindow h

theorem NumbersFrom.disableWindow {w : Nat} (h : NumbersFrom k s) : NumbersFrom k (s.disableWindow w) := .freeLane h

theorem OutcomeNumbers.execWindowEnable {window : Nat} (h : NumbersFrom k s) : OutcomeNumbers k (execWindowEnable window s) :=
  .hostEvent h fun _ ht => .enableWindow ht

theorem OutcomeNumbers.execWindowDisable {window : Nat} (h : NumbersFrom k s) : OutcomeNumbers k (execWindowDisable window s) :=
  .hostEvent h fun _ ht => .disableWindow ht

theorem NumbersFrom.writeWindow {w off value : Nat} (h : NumbersFrom k s) : NumbersFrom k (s.writeWindow w off value) := by
  simp only [State.writeWindow]
  split
  · split
    · exact .enableWindow h
    · split
      · exact .disableWindow h
      · exact h
  · split
    · exact h
    · split
      · exact h
      · exact h
      · exact h
      · split <;> exact h

theorem NumbersFrom.writeOnzCtl {value : Nat} (h : NumbersFrom k s) : NumbersFrom k (s.writeOnzCtl value) := by
  simp only [State.writeOnzCtl]
  split <;> exact h

theorem NumbersFrom.setPkg {value : Nat} (h : NumbersFrom k s) : NumbersFrom k (s.setPkg value) :=
  .branch (.update h) (.update h)

theorem NumbersFrom.writeOnzId {value : Nat} (h : NumbersFrom k s) : NumbersFrom k (s.writeOnzId value) := by
  unfold State.writeOnzId
  split
  · exact h
  · exact .setPkg h

theorem OutcomeNumbers.execOnazalEnable {value : Nat} (h : NumbersFrom k s) : OutcomeNumbers k (execOnazalEnable value s) :=
  .hostEvent h fun _ ht => .writeOnzCtl ht

theorem OutcomeNumbers.execOnazalPortEnable {value : Nat} (h : NumbersFrom k s) : OutcomeNumbers k (execOnazalPortEnable value s) :=
  .hostEvent h fun _ ht => .writeOnzCtl ht

theorem OutcomeNumbers.execOnazalPortTrained {port lanes : Nat} (h : NumbersFrom k s) :
    OutcomeNumbers k (execOnazalPortTrained port lanes s) := .event h h

theorem NumbersFrom.command {n : Nat} (h : NumbersFrom k s) : NumbersFrom k (s.command n) := by
  simp only [State.command]
  split <;> exact h

theorem OutcomeNumbers.execPwrctlRun (h : NumbersFrom k s) : OutcomeNumbers k (execPwrctlRun s) := .hostEvent h fun _ ht => .command ht

theorem OutcomeNumbers.execPwrctlIdle (h : NumbersFrom k s) : OutcomeNumbers k (execPwrctlIdle s) :=
  .hostEvent h fun _ ht => .command ht

theorem OutcomeNumbers.execPwrctlGated (h : NumbersFrom k s) : OutcomeNumbers k (execPwrctlGated s) :=
  .hostEvent h fun _ ht => .command ht

theorem NumbersFrom.powerLayers (h : NumbersFrom k s) : NumbersFrom k s.powerLayers := by
  unfold State.powerLayers
  split <;> exact h

theorem NumbersFrom.enterPower {p : Power} (h : NumbersFrom k s) : NumbersFrom k (s.enterPower p) :=
  .signalEvent (.update (.powerLayers h))

theorem OutcomeNumbers.execPowerStateEnter (h : NumbersFrom k s) : OutcomeNumbers k (execPowerStateEnter s) := by
  simp only [Machine.execPowerStateEnter]
  split
  · exact .event h (.enterPower h)
  · exact .event h (.enterPower h)
  · exact .event h (.signalEvent h)

theorem OutcomeNumbers.execWakeSequenceComplete (h : NumbersFrom k s) : OutcomeNumbers k (execWakeSequenceComplete s) := by
  unfold Machine.execWakeSequenceComplete
  refine .event h ?_
  exact .signalEvent (.update (.powerLayers h))

theorem NumbersFrom.writeOpdef {n value : Nat} (h : NumbersFrom k s) : NumbersFrom k (s.writeOpdef n value) := by
  simp only [State.writeOpdef]
  split <;> exact h

theorem NumbersFrom.kill {inst : Nat} (h : NumbersFrom k s) : NumbersFrom k (s.kill inst) := by
  simp only [State.kill]
  split
  · exact h
  · split
    · split
      · exact h
      · exact .endCapsule h
    · exact h

theorem NumbersFrom.writeKill {value : Nat} (h : NumbersFrom k s) : NumbersFrom k (s.writeKill value) := by
  simp only [State.writeKill]
  split
  · exact .kill h
  · split <;> exact h

theorem OutcomeNumbers.execKillctlGo {inst : Nat} (h : NumbersFrom k s) : OutcomeNumbers k (execKillctlGo inst s) :=
  .hostEvent h fun _ ht => .kill ht

theorem OutcomeNumbers.execMailboxEvidence (h : NumbersFrom k s) : OutcomeNumbers k (execMailboxEvidence s) := .event h h

theorem NumbersFrom.answerOwner (h : NumbersFrom k s) : NumbersFrom k s.answerOwner := by
  simp only [State.answerOwner]
  split
  · exact h
  · split
    · exact h
    · split <;> exact h

theorem OutcomeNumbers.execMailboxOwnerKey (h : NumbersFrom k s) : OutcomeNumbers k (execMailboxOwnerKey s) := .event h (.answerOwner h)

theorem NumbersFrom.writeMbctl {value : Nat} (h : NumbersFrom k s) : NumbersFrom k (s.writeMbctl value) := by
  simp only [State.writeMbctl]
  split
  · exact h
  · split <;> exact h

theorem NumbersFrom.writeEth {p off value : Nat} (h : NumbersFrom k s) : NumbersFrom k (s.writeEth p off value) := by
  simp only [State.writeEth]
  split
  · exact h
  · split
    · exact h
    · split <;> exact h
    · split <;> exact h
    · split <;> exact h
    · split <;> exact h

theorem NumbersFrom.writePeer {off value : Nat} (h : NumbersFrom k s) : NumbersFrom k (s.writePeer off value) := by
  simp only [State.writePeer]
  split <;> exact h

theorem NumbersFrom.setLocks {value : Nat} (h : NumbersFrom k s) : NumbersFrom k (s.setLocks value) := h

theorem OutcomeNumbers.execLockSet {bits : Nat} (h : NumbersFrom k s) : OutcomeNumbers k (execLockSet bits s) :=
  .hostEvent h fun _ ht => ht

theorem NumbersFrom.linkRecord {cap : Capsule} {lost : List Access} (h : NumbersFrom k s) : NumbersFrom k (s.linkRecord cap lost) := by
  simp only [State.linkRecord]
  split
  · exact .reportFault h
  · split <;> exact .reportFault h

theorem NumbersFrom.linkFault {cap : Capsule} {lost : List Access} (h : NumbersFrom k s) : NumbersFrom k (s.linkFault cap lost) := by
  simp only [State.linkFault]
  split
  · split
    · exact .cancelLost (.foldl (fun _ _ ht => .cancelAccess ht) (.endCapsule (.linkRecord h)))
    · exact .foldl (fun _ _ ht => .cancelAccess ht) (.endCapsule (.linkRecord h))
  · exact .foldl (fun _ _ ht => .cancelAccess ht) (.endCapsule (.linkRecord h))

theorem NumbersFrom.stopDomain {d : Nat} (h : NumbersFrom k s) : NumbersFrom k (s.stopDomain d) := by
  simp only [State.stopDomain]
  split
  · refine .foldl (fun _ _ ht => ?_) h
    split
    · exact .disableWindow ht
    · exact ht
  · exact .foldl (fun _ _ ht => .linkFault ht) h
  · exact h
  · exact h

theorem NumbersFrom.lockMismatch {d : Nat} (h : NumbersFrom k s) : NumbersFrom k (s.lockMismatch d) := .stopDomain h

theorem OutcomeNumbers.execLockWalkerCheck {domain : Nat} (h : NumbersFrom k s) : OutcomeNumbers k (execLockWalkerCheck domain s) :=
  .event h (.lockMismatch h)

theorem NumbersFrom.writeDevice {off value : Nat} (h : NumbersFrom k s) : NumbersFrom k (s.writeDevice off value) := by
  simp only [State.writeDevice]
  split
  · exact .command h
  · exact h
  · exact .writeOpdef h
  · exact .writeOpdef h
  · exact .writeOpdef h
  · exact .writeOpdef h
  · exact .writeKill h
  · exact h

theorem NumbersFrom.writeQueue {q off value : Nat} (h : NumbersFrom k s) : NumbersFrom k (s.writeQueue q off value) := by
  simp only [State.writeQueue]
  split
  · exact .writeQcfg h
  · split <;> exact h
  · exact h

theorem NumbersFrom.writeReg {off value : Nat} (h : NumbersFrom k s) : NumbersFrom k (s.writeReg off value) := by
  unfold State.writeReg
  refine .branch (.writeDevice h) (.branch (.writeMbctl h) (.branch h (.branch (.update h) (.branch (.writeQueue h)
    (.branch (.writeWindow h) (.branch (.setLocks h) (.branch h (.branch (.writeOnzId h) (.branch (.writeOnzCtl h)
      (.branch h (.branch (.writeEth h) (.branch h (.branch (.writePeer h) (.branch (.branch h ?_)
        (.branch (.update h) h)))))))))))))))
  exact .foldl (fun _ _ ht => .writeCfgByte ht) h

theorem OutcomeNumbers.execRegisterWrite {offset value : Nat} (h : NumbersFrom k s) :
    OutcomeNumbers k (execRegisterWrite offset value s) := .event h (.writeReg h)

/-! ## Functions of Machine/Inbound -/

theorem NumbersFrom.bringUp (h : NumbersFrom k s) : NumbersFrom k s.bringUp := by
  simp only [State.bringUp]
  split <;> exact .signalEvent h

theorem OutcomeNumbers.execBringUp (h : NumbersFrom k s) : OutcomeNumbers k (execBringUp s) := .event h (.bringUp h)

theorem NumbersFrom.addInbound {rid owner addr n : Nat} {data : List Byte} {read : Bool} (h : NumbersFrom k s) :
    NumbersFrom k (s.addInbound rid owner addr n data read) := .skip h

theorem OutcomeNumbers.execInboundWrite {rid space addr : Nat} {data : List (BitVec 8)} (h : NumbersFrom k s) :
    OutcomeNumbers k (execInboundWrite rid space addr data s) := by
  unfold Machine.execInboundWrite
  split
  · refine .hostEvent h fun _ ht => ?_
    split
    · exact .addInbound ht
    · exact ht
  · exact .hostEvent h fun _ ht => .writeReg ht
  · exact .next h

theorem OutcomeNumbers.execInboundPieceSend {seq piece : Nat} (h : NumbersFrom k s) :
    OutcomeNumbers k (execInboundPieceSend seq piece s) := by
  unfold Machine.execInboundPieceSend
  split
  · exact .next h
  · split
    · exact .next h
    · exact .event h (.tick h)

theorem OutcomeNumbers.execInboundRead {rid space addr len : Nat} (h : NumbersFrom k s) :
    OutcomeNumbers k (execInboundRead rid space addr len s) := by
  simp only [Machine.execInboundRead]
  split
  · exact .next h
  · split
    · refine .hostEvent h fun _ ht => ?_
      split
      · exact .addInbound ht
      · exact ht
    · exact .hostEvent h fun _ ht => ht
    · exact .next h

theorem OutcomeNumbers.execRemoteRequestArrive {header addr size : Nat} {data : List (BitVec 8)} (h : NumbersFrom k s) :
    OutcomeNumbers k (execRemoteRequestArrive header addr size data s) := by
  unfold Machine.execRemoteRequestArrive
  split
  next hlane _ => exact .event h (.skip (h.takeLane hlane))
  · exact .next h

theorem OutcomeNumbers.execLinkCrcReplay {link flit : Nat} (h : NumbersFrom k s) : OutcomeNumbers k (execLinkCrcReplay link flit s) := by
  simp only [Machine.execLinkCrcReplay]
  refine .event h ?_
  split <;> exact h

theorem OutcomeNumbers.execLinkRetrain {link lanes : Nat} {insts : List Nat} (h : NumbersFrom k s) :
    OutcomeNumbers k (execLinkRetrain link lanes insts s) := by
  simp only [Machine.execLinkRetrain]
  refine .event h ?_
  split
  · refine .foldl (fun _ _ ht => .linkFault ht) ?_
    split <;> exact h
  · split <;> exact h

theorem NumbersFrom.endLane {lane : Nat} (h : NumbersFrom k s) : NumbersFrom k (s.endLane lane) := .foldl (fun _ _ ht => .endCapsule ht) h

theorem NumbersFrom.scrubbed {level addr : Nat} (h : NumbersFrom k s) : NumbersFrom k (s.scrubbed level addr) := by
  simp only [State.scrubbed]
  generalize hlog : s.logError _ = t
  have ht : NumbersFrom k t := hlog ▸ .logError h
  split
  · exact ht
  · exact ht
  · exact ht
  · refine .branch ht (.update ?_)
    exact .foldl (fun _ _ hu => .endLane hu) ht
  · exact ht
  · exact ht

theorem OutcomeNumbers.execScrubPass {level addr error : Nat} (h : NumbersFrom k s) :
    OutcomeNumbers k (execScrubPass level addr error s) := by
  unfold Machine.execScrubPass
  split
  · exact .event h h
  · exact .event h (.scrubbed h)
  · refine .event h ?_
    split <;> exact h
  · exact .next h

theorem OutcomeNumbers.execSelfCheckFail {unit index : Nat} (h : NumbersFrom k s) :
    OutcomeNumbers k (execSelfCheckFail unit index s) := by
  unfold Machine.execSelfCheckFail
  split
  · exact .event h h
  · exact .event h h
  · exact .event h h
  · exact .next h

/-! ## Functions of Machine/Park -/

theorem NumbersFrom.cancelTagged {inst c : Nat} (h : NumbersFrom k s) : NumbersFrom k (s.cancelTagged inst c) := by
  simp only [State.cancelTagged]
  refine .foldl (fun _ _ ht => ?_) h
  split
  · exact .grantHome (.takeBack ht)
  · exact .takeBack ht

theorem NumbersFrom.evictCore {cap : Capsule} {counter : Nat} {roles : List Nat} {role : Nat} (h : NumbersFrom k s) :
    NumbersFrom k (s.evictCore cap counter roles role) := by
  simp only [State.evictCore]
  split
  · exact h
  · exact .cancelTagged h

theorem NumbersFrom.evictEvent {cap : Capsule} {roles : List Nat} (h : NumbersFrom k s) : NumbersFrom k (s.evictEvent cap roles) :=
  .foldl (fun _ _ ht => .evictCore ht) h

theorem OutcomeNumbers.execCoreEvict {inst : Nat} {roles : List Nat} (h : NumbersFrom k s) :
    OutcomeNumbers k (execCoreEvict inst roles s) := by
  simp only [Machine.execCoreEvict]
  split
  · exact .next h
  · exact .event h (.evictEvent h)

theorem NumbersFrom.parkAccesses {inst c role : Nat} (h : NumbersFrom k s) : NumbersFrom k (s.parkAccesses inst c role) := by
  refine (h.mapAccesses fun a => ?_).filterPackets
  split
  · split <;> rfl
  · split
    · split <;> rfl
    · rfl

theorem NumbersFrom.setRecords {inst : Nat} {f : List ParkRec → List ParkRec} (h : NumbersFrom k s) :
    NumbersFrom k (s.setRecords inst f) := by
  unfold State.setRecords
  split <;> exact h

theorem NumbersFrom.writeImage {cap : Capsule} {c : Nat} (h : NumbersFrom k s) : NumbersFrom k (s.writeImage cap c) := by
  have himage : NumbersFrom k ({ s with freeCount := s.freeCount + 1 }.devWrite openBearer (cap.slotAddr (s.parkedOf cap c).role)
      (s.imageBytes cap c (s.parkedOf cap c).role (s.parkedOf cap c).counter)) := .devWrite h
  simp only [State.writeImage]
  exact .update (.parkAccesses (.setRecords himage))

theorem OutcomeNumbers.execImageWrite {core : Nat} (h : NumbersFrom k s) : OutcomeNumbers k (execImageWrite core s) := by
  unfold Machine.execImageWrite
  split
  · exact .next h
  · exact .event h (.writeImage h)

theorem NumbersFrom.mapParked {cap : Capsule} {role : Nat} {f : Parked → Parked} (h : NumbersFrom k s) :
    NumbersFrom k (s.mapParked cap role f) := h

theorem NumbersFrom.divert {cap : Capsule} {q : Parked} {p : Packet} (h : NumbersFrom k s) : NumbersFrom k (s.divert cap q p) := by
  simp only [State.divert]
  split
  · exact .accepted (.setPacket (.mapParked (.devWrite h)))
  · exact .setPacket h

theorem OutcomeNumbers.execParkedPacketDivert {pkt : Nat} (h : NumbersFrom k s) : OutcomeNumbers k (execParkedPacketDivert pkt s) := by
  unfold Machine.execParkedPacketDivert
  split
  · exact .next h
  · split
    · exact .next h
    · split
      · exact .next h
      · split
        · exact .event h (.divert (.dropPacket h))
        · exact .event h (.divert h)

theorem NumbersFrom.setRefusals {inst role n : Nat} (h : NumbersFrom k s) : NumbersFrom k (s.setRefusals inst role n) := h

theorem NumbersFrom.lostRecord {cap : Capsule} {role : Nat} (h : NumbersFrom k s) : NumbersFrom k (s.lostRecord cap role) := .sendFault h

theorem NumbersFrom.mapCapsule {inst : Nat} {f : Capsule → Capsule} (h : NumbersFrom k s) : NumbersFrom k (s.mapCapsule inst f) := by
  unfold State.mapCapsule
  split <;> exact h

theorem NumbersFrom.refuseRestore {cap : Capsule} {role : Nat} (h : NumbersFrom k s) : NumbersFrom k (s.refuseRestore cap role) := by
  simp only [State.refuseRestore]
  split
  · exact h
  · split
    · split
      · split
        · exact .cancelLost (.mapCapsule (.lostRecord h))
        · exact .mapCapsule (.lostRecord h)
      · exact .mapCapsule (.lostRecord h)
    · exact .endCapsule (.lostRecord h)

theorem NumbersFrom.rebind {cap : Capsule} {a b : Nat} (h : NumbersFrom k s) : NumbersFrom k (s.rebind cap a b) := by
  refine .update (.mapPackets (.mapAccesses h fun x => ?_) fun p => ?_) <;> split <;> rfl

theorem NumbersFrom.loadScratch {cap : Capsule} {q : Parked} {b : Nat} (h : NumbersFrom k s) : NumbersFrom k (s.loadScratch cap q b) := h

theorem NumbersFrom.deliverSpill {inst b id : Nat} (h : NumbersFrom k s) : NumbersFrom k (s.deliverSpill inst b id) := by
  simp only [State.deliverSpill]
  split
  · split
    · exact h
    · exact h
    · exact h
    · exact .handleFault (.dropPacket h)
    · split
      · exact .dropPacket h
      · exact .resume (.dropPacket h)
    · exact .setPacket h
    · exact .setPacket h
  · exact h

theorem NumbersFrom.wakeSenders {inst role b : Nat} (h : NumbersFrom k s) : NumbersFrom k (s.wakeSenders inst role b) := by
  refine h.mapPackets fun p => ?_
  split
  · rfl
  · split
    · split <;> rfl
    · rfl

theorem NumbersFrom.stopRestored {inst b : Nat} (h : NumbersFrom k s) : NumbersFrom k (s.stopRestored inst b) := by
  unfold State.stopRestored
  split
  · split
    · exact .cancelEntries (.stopCore h)
    · exact h
  · exact h

theorem NumbersFrom.loadImage {cap : Capsule} {q : Parked} {b : Nat} (h : NumbersFrom k s) : NumbersFrom k (s.loadImage cap q b) :=
  .foldl (fun _ _ ht => .pump ht) (.stopRestored (.setRefusals (.setRecords (.markFirst (.settle
    (.wakeSenders (.foldl (fun _ _ ht => .deliverSpill ht) (.tick (.setCore (.loadScratch (.rebind h)))))))))))

theorem OutcomeNumbers.execImageRestore {inst role core : Nat} (h : NumbersFrom k s) :
    OutcomeNumbers k (execImageRestore inst role core s) := by
  unfold Machine.execImageRestore
  split
  · exact .next h
  · split
    · exact .next h
    · refine .event h ?_
      split
      · exact .loadImage h
      · exact .refuseRestore h

theorem NumbersFrom.restart (h : NumbersFrom k s) : NumbersFrom k s.restart := by
  simp only [State.restart]
  split
  · exact .signalEvent h
  · exact h

theorem OutcomeNumbers.execFirmwareRestart (h : NumbersFrom k s) : OutcomeNumbers k (execFirmwareRestart s) := .event h (.restart h)

theorem OutcomeNumbers.execWatchdogExpire (h : NumbersFrom k s) : OutcomeNumbers k (execWatchdogExpire s) := .event h (.restart h)

theorem NumbersFrom.faultUnsealed (h : NumbersFrom k s) : NumbersFrom k s.faultUnsealed := by
  simp only [State.faultUnsealed]
  split
  · exact .update (.refuseSeal (.consume (.nextSlot h)))
  · split
    · exact .prunePosts (.update (.refuseSeal (.setPost h)))
    · exact h
  · exact h

theorem NumbersFrom.faultSealed {cap : Capsule} (h : NumbersFrom k s) : NumbersFrom k (s.faultSealed cap) := by
  unfold State.faultSealed
  split
  · exact .refuseLaunch h
  · exact .endCapsule (.reportFault h)

theorem OutcomeNumbers.execCapabilityFault {what subject : Nat} (h : NumbersFrom k s) :
    OutcomeNumbers k (execCapabilityFault what subject s) := by
  unfold Machine.execCapabilityFault
  split
  · exact .event h (.faultUnsealed h)
  · split
    · exact .event h (.faultSealed h)
    · exact .next h
  · exact .event h (.logError (.disableQueue h))
  · exact .event h (.restart h)
  · exact .next h

/-! ## Functions of Machine/Scalar -/

theorem VerdictNumbers.alu2 {x : Cur} {f : FmtA} {v : Word} (h : NumbersFrom k s) : VerdictNumbers k (alu2 x s f v) := .checked (.next h)

theorem VerdictNumbers.alu1 {x : Cur} {f : FmtA} {v : Word} (h : NumbersFrom k s) : VerdictNumbers k (alu1 x s f v) := .checked (.next h)

theorem VerdictNumbers.aluI {x : Cur} {f : FmtI} {v : Word} (h : NumbersFrom k s) : VerdictNumbers k (aluI x s f v) := .checked (.next h)

theorem VerdictNumbers.aluV {x : Cur} {f : FmtA} {v : Word} (h : NumbersFrom k s) : VerdictNumbers k (aluV x s f v) :=
  .checked (.next (.pendValue h))

theorem OutcomeNumbers.execNop64 {hd : Head} {f : FmtN} (h : NumbersFrom k s) : OutcomeNumbers k (execNop64 hd f s) :=
  .issue h fun _ _ ht => .next ht

theorem OutcomeNumbers.execNop96 {hd : Head} {f : FmtN} (h : NumbersFrom k s) : OutcomeNumbers k (execNop96 hd f s) :=
  .issue h fun _ _ ht => .next ht

theorem OutcomeNumbers.execNop128 {hd : Head} {f : FmtN} (h : NumbersFrom k s) : OutcomeNumbers k (execNop128 hd f s) :=
  .issue h fun _ _ ht => .next ht

theorem OutcomeNumbers.execAdd {hd : Head} {f : FmtA} (h : NumbersFrom k s) : OutcomeNumbers k (execAdd hd f s) :=
  .issue h fun _ _ ht => .alu2 ht

theorem OutcomeNumbers.execAddi {hd : Head} {f : FmtI} (h : NumbersFrom k s) : OutcomeNumbers k (execAddi hd f s) :=
  .issue h fun _ _ ht => .aluI ht

theorem OutcomeNumbers.execSub {hd : Head} {f : FmtA} (h : NumbersFrom k s) : OutcomeNumbers k (execSub hd f s) :=
  .issue h fun _ _ ht => .alu2 ht

theorem OutcomeNumbers.execNeg {hd : Head} {f : FmtA} (h : NumbersFrom k s) : OutcomeNumbers k (execNeg hd f s) :=
  .issue h fun _ _ ht => .alu1 ht

theorem OutcomeNumbers.execMul {hd : Head} {f : FmtA} (h : NumbersFrom k s) : OutcomeNumbers k (execMul hd f s) :=
  .issue h fun _ _ ht => .alu2 ht

theorem OutcomeNumbers.execMuli {hd : Head} {f : FmtI} (h : NumbersFrom k s) : OutcomeNumbers k (execMuli hd f s) :=
  .issue h fun _ _ ht => .aluI ht

theorem OutcomeNumbers.execMulh {hd : Head} {f : FmtA} (h : NumbersFrom k s) : OutcomeNumbers k (execMulh hd f s) :=
  .issue h fun _ _ ht => .alu2 ht

theorem OutcomeNumbers.execDiv {hd : Head} {f : FmtA} (h : NumbersFrom k s) : OutcomeNumbers k (execDiv hd f s) :=
  .issue h fun _ _ ht => .aluV ht

theorem OutcomeNumbers.execRem {hd : Head} {f : FmtA} (h : NumbersFrom k s) : OutcomeNumbers k (execRem hd f s) :=
  .issue h fun _ _ ht => .aluV ht

theorem OutcomeNumbers.execAnd {hd : Head} {f : FmtA} (h : NumbersFrom k s) : OutcomeNumbers k (execAnd hd f s) :=
  .issue h fun _ _ ht => .alu2 ht

theorem OutcomeNumbers.execAndi {hd : Head} {f : FmtI} (h : NumbersFrom k s) : OutcomeNumbers k (execAndi hd f s) :=
  .issue h fun _ _ ht => .aluI ht

theorem OutcomeNumbers.execOr {hd : Head} {f : FmtA} (h : NumbersFrom k s) : OutcomeNumbers k (execOr hd f s) :=
  .issue h fun _ _ ht => .alu2 ht

theorem OutcomeNumbers.execOri {hd : Head} {f : FmtI} (h : NumbersFrom k s) : OutcomeNumbers k (execOri hd f s) :=
  .issue h fun _ _ ht => .aluI ht

theorem OutcomeNumbers.execXor {hd : Head} {f : FmtA} (h : NumbersFrom k s) : OutcomeNumbers k (execXor hd f s) :=
  .issue h fun _ _ ht => .alu2 ht

theorem OutcomeNumbers.execXori {hd : Head} {f : FmtI} (h : NumbersFrom k s) : OutcomeNumbers k (execXori hd f s) :=
  .issue h fun _ _ ht => .aluI ht

theorem OutcomeNumbers.execAndn {hd : Head} {f : FmtA} (h : NumbersFrom k s) : OutcomeNumbers k (execAndn hd f s) :=
  .issue h fun _ _ ht => .alu2 ht

theorem OutcomeNumbers.execNot {hd : Head} {f : FmtA} (h : NumbersFrom k s) : OutcomeNumbers k (execNot hd f s) :=
  .issue h fun _ _ ht => .alu1 ht

theorem OutcomeNumbers.execShl {hd : Head} {f : FmtA} (h : NumbersFrom k s) : OutcomeNumbers k (execShl hd f s) :=
  .issue h fun _ _ ht => .alu2 ht

theorem OutcomeNumbers.execShli {hd : Head} {f : FmtI} (h : NumbersFrom k s) : OutcomeNumbers k (execShli hd f s) :=
  .issue h fun _ _ ht => .aluI ht

theorem OutcomeNumbers.execShr {hd : Head} {f : FmtA} (h : NumbersFrom k s) : OutcomeNumbers k (execShr hd f s) :=
  .issue h fun _ _ ht => .alu2 ht

theorem OutcomeNumbers.execShri {hd : Head} {f : FmtI} (h : NumbersFrom k s) : OutcomeNumbers k (execShri hd f s) :=
  .issue h fun _ _ ht => .aluI ht

theorem OutcomeNumbers.execSar {hd : Head} {f : FmtA} (h : NumbersFrom k s) : OutcomeNumbers k (execSar hd f s) :=
  .issue h fun _ _ ht => .alu2 ht

theorem OutcomeNumbers.execSari {hd : Head} {f : FmtI} (h : NumbersFrom k s) : OutcomeNumbers k (execSari hd f s) :=
  .issue h fun _ _ ht => .aluI ht

theorem OutcomeNumbers.execRol {hd : Head} {f : FmtA} (h : NumbersFrom k s) : OutcomeNumbers k (execRol hd f s) :=
  .issue h fun _ _ ht => .alu2 ht

theorem OutcomeNumbers.execRoli {hd : Head} {f : FmtI} (h : NumbersFrom k s) : OutcomeNumbers k (execRoli hd f s) :=
  .issue h fun _ _ ht => .aluI ht

theorem OutcomeNumbers.execMin {hd : Head} {f : FmtA} (h : NumbersFrom k s) : OutcomeNumbers k (execMin hd f s) :=
  .issue h fun _ _ ht => .alu2 ht

theorem OutcomeNumbers.execMax {hd : Head} {f : FmtA} (h : NumbersFrom k s) : OutcomeNumbers k (execMax hd f s) :=
  .issue h fun _ _ ht => .alu2 ht

theorem OutcomeNumbers.execAbs {hd : Head} {f : FmtA} (h : NumbersFrom k s) : OutcomeNumbers k (execAbs hd f s) :=
  .issue h fun _ _ ht => .alu1 ht

theorem OutcomeNumbers.execClz {hd : Head} {f : FmtA} (h : NumbersFrom k s) : OutcomeNumbers k (execClz hd f s) :=
  .issue h fun _ _ ht => .alu1 ht

theorem OutcomeNumbers.execCtz {hd : Head} {f : FmtA} (h : NumbersFrom k s) : OutcomeNumbers k (execCtz hd f s) :=
  .issue h fun _ _ ht => .alu1 ht

theorem OutcomeNumbers.execPopc {hd : Head} {f : FmtA} (h : NumbersFrom k s) : OutcomeNumbers k (execPopc hd f s) :=
  .issue h fun _ _ ht => .alu1 ht

theorem OutcomeNumbers.execBrev {hd : Head} {f : FmtA} (h : NumbersFrom k s) : OutcomeNumbers k (execBrev hd f s) :=
  .issue h fun _ _ ht => .alu1 ht

theorem OutcomeNumbers.execBswp {hd : Head} {f : FmtA} (h : NumbersFrom k s) : OutcomeNumbers k (execBswp hd f s) :=
  .issue h fun _ _ ht => .alu1 ht

theorem OutcomeNumbers.execBfx {hd : Head} {f : FmtI} (h : NumbersFrom k s) : OutcomeNumbers k (execBfx hd f s) :=
  .issue h fun _ _ ht => .aluI ht

theorem OutcomeNumbers.execBfxs {hd : Head} {f : FmtI} (h : NumbersFrom k s) : OutcomeNumbers k (execBfxs hd f s) :=
  .issue h fun _ _ ht => .aluI ht

theorem OutcomeNumbers.execBfi {hd : Head} {f : FmtI} (h : NumbersFrom k s) : OutcomeNumbers k (execBfi hd f s) :=
  .issue h fun _ _ ht => .checked (.next ht)

theorem OutcomeNumbers.execSext {hd : Head} {f : FmtI} (h : NumbersFrom k s) : OutcomeNumbers k (execSext hd f s) :=
  .issue h fun _ _ ht => .aluI ht

theorem OutcomeNumbers.execLi {hd : Head} {f : FmtI} (h : NumbersFrom k s) : OutcomeNumbers k (execLi hd f s) :=
  .issue h fun _ _ ht => .checked (.next ht)

theorem OutcomeNumbers.execLiw {hd : Head} {f : FmtL} (h : NumbersFrom k s) : OutcomeNumbers k (execLiw hd f s) :=
  .issue h fun _ _ ht => .checked (.next ht)

theorem OutcomeNumbers.execLea {hd : Head} {f : FmtM} (h : NumbersFrom k s) : OutcomeNumbers k (execLea hd f s) :=
  .issue h fun _ _ ht => .checked (.next ht)

theorem OutcomeNumbers.execMov {hd : Head} {f : FmtA} (h : NumbersFrom k s) : OutcomeNumbers k (execMov hd f s) :=
  .issue h fun _ _ ht => .checked (.next ht)

theorem OutcomeNumbers.execSel {hd : Head} {f : FmtA} (h : NumbersFrom k s) : OutcomeNumbers k (execSel hd f s) :=
  .issue h fun _ _ ht => .checked (.next ht)

theorem OutcomeNumbers.execCmp {hd : Head} {f : FmtA} (h : NumbersFrom k s) : OutcomeNumbers k (execCmp hd f s) :=
  .issue h fun _ _ ht => .checked (.next ht)

theorem OutcomeNumbers.execCmpi {hd : Head} {f : FmtI} (h : NumbersFrom k s) : OutcomeNumbers k (execCmpi hd f s) :=
  .issue h fun _ _ ht => .checked (.next ht)

theorem OutcomeNumbers.execPset {hd : Head} {f : FmtP} (h : NumbersFrom k s) : OutcomeNumbers k (execPset hd f s) :=
  .issue h fun _ _ ht => .next ht

theorem OutcomeNumbers.execLmw {hd : Head} {f : FmtA} (h : NumbersFrom k s) : OutcomeNumbers k (execLmw hd f s) :=
  .issue h fun _ _ ht => .checked (.next ht)

theorem OutcomeNumbers.execLmr {hd : Head} {f : FmtA} (h : NumbersFrom k s) : OutcomeNumbers k (execLmr hd f s) :=
  .issue h fun _ _ ht => .checked (.next ht)

/-! ## Functions of Machine/VecMem -/

theorem VerdictNumbers.vectorLoad {x : Cur} {d : VOpd} {ps : List VPart} (h : NumbersFrom k s) :
    VerdictNumbers k (vectorLoad x s d ps) := by
  simp only [Machine.vectorLoad]
  split
  · exact .accessFault h
  · split
    · exact .next h
    · exact .next (.pump (.foldl (fun _ _ ht => .addAccess (.lookHit ht)) (.setCore (.addResult h))))

theorem VerdictNumbers.vectorStore {x : Cur} {d : VOpd} {ps : List VPart} (h : NumbersFrom k s) :
    VerdictNumbers k (vectorStore x s d ps) := by
  simp only [Machine.vectorStore]
  split
  · exact .accessFault h
  · split
    · exact .next h
    · exact .next (.pump (.foldl (fun _ _ ht => .addAccess (.lookHit ht)) h))

theorem OutcomeNumbers.execVld {hd : Head} {f : FmtVM} (h : NumbersFrom k s) : OutcomeNumbers k (execVld hd f s) :=
  .issue h fun _ _ ht => .vecIssue ht (.vectorLoad ht)

theorem OutcomeNumbers.execVst {hd : Head} {f : FmtVM} (h : NumbersFrom k s) : OutcomeNumbers k (execVst hd f s) :=
  .issue h fun _ _ ht => .vecIssue ht (.vectorStore ht)

theorem OutcomeNumbers.execVlds {hd : Head} {f : FmtVM} (h : NumbersFrom k s) : OutcomeNumbers k (execVlds hd f s) :=
  .issue h fun _ _ ht => .vecIssue ht (.vectorLoad ht)

theorem OutcomeNumbers.execVsts {hd : Head} {f : FmtVM} (h : NumbersFrom k s) : OutcomeNumbers k (execVsts hd f s) :=
  .issue h fun _ _ ht => .vecIssue ht (.vectorStore ht)

theorem OutcomeNumbers.execVgath {hd : Head} {f : FmtVM} (h : NumbersFrom k s) : OutcomeNumbers k (execVgath hd f s) :=
  .issue h fun _ _ ht => .vecIssue ht (.vectorLoad ht)

theorem OutcomeNumbers.execVscat {hd : Head} {f : FmtVM} (h : NumbersFrom k s) : OutcomeNumbers k (execVscat hd f s) :=
  .issue h fun _ _ ht => .vecIssue ht (.vectorStore ht)

/-! ## Functions of Machine/Vector -/

theorem OutcomeNumbers.execVmov {hd : Head} {f : FmtV} (h : NumbersFrom k s) : OutcomeNumbers k (execVmov hd f s) :=
  .issue h fun _ _ ht => .vecIssue ht (.next ht)

theorem OutcomeNumbers.vectorPut {hd : Head} {d : VOpd} {t : BitVec 4} {lm : BitVec 3} {ok : Bool} {rregs : List Nat}
    {six : Option FaultInfo} {index : Option Nat} {value : Cur → Nat → Nat} {guard : Cur → Bool} (h : NumbersFrom k s) :
    OutcomeNumbers k (vectorPut hd d t lm ok rregs six index value guard s) := .issue h fun _ _ ht => .vecIssue ht (.next ht)

theorem OutcomeNumbers.execVbcast {hd : Head} {f : FmtVX} (h : NumbersFrom k s) : OutcomeNumbers k (execVbcast hd f s) := .vectorPut h

theorem OutcomeNumbers.execVins {hd : Head} {f : FmtVX} (h : NumbersFrom k s) : OutcomeNumbers k (execVins hd f s) := .vectorPut h

theorem OutcomeNumbers.execViota {hd : Head} {f : FmtV} (h : NumbersFrom k s) : OutcomeNumbers k (execViota hd f s) := .vectorPut h

theorem OutcomeNumbers.execVext {hd : Head} {f : FmtVX} (h : NumbersFrom k s) : OutcomeNumbers k (execVext hd f s) :=
  .issue h fun _ _ ht => .vecIssue ht (.next ht)

theorem VerdictNumbers.elementwise {f : FmtV} {two dest ok noRm noSat : Bool} {g : NFmt → Nat → Nat → Nat → Nat → Nat} {x : Cur}
    (h : NumbersFrom k s) : VerdictNumbers k (elementwise f two dest ok noRm noSat g x s) := .vecIssue h (.next h)

theorem OutcomeNumbers.vectorArith {op : Ew} {hd : Head} {f : FmtV} (h : NumbersFrom k s) : OutcomeNumbers k (vectorArith op hd f s) :=
  .issue h fun _ _ ht => .elementwise ht

theorem OutcomeNumbers.execVadd {hd : Head} {f : FmtV} (h : NumbersFrom k s) : OutcomeNumbers k (execVadd hd f s) := .vectorArith h

theorem OutcomeNumbers.execVsub {hd : Head} {f : FmtV} (h : NumbersFrom k s) : OutcomeNumbers k (execVsub hd f s) := .vectorArith h

theorem OutcomeNumbers.execVmul {hd : Head} {f : FmtV} (h : NumbersFrom k s) : OutcomeNumbers k (execVmul hd f s) := .vectorArith h

theorem OutcomeNumbers.execVfma {hd : Head} {f : FmtV} (h : NumbersFrom k s) : OutcomeNumbers k (execVfma hd f s) := .vectorArith h

theorem OutcomeNumbers.execVfms {hd : Head} {f : FmtV} (h : NumbersFrom k s) : OutcomeNumbers k (execVfms hd f s) := .vectorArith h

theorem OutcomeNumbers.execVfnma {hd : Head} {f : FmtV} (h : NumbersFrom k s) : OutcomeNumbers k (execVfnma hd f s) := .vectorArith h

theorem OutcomeNumbers.execVmin {hd : Head} {f : FmtV} (h : NumbersFrom k s) : OutcomeNumbers k (execVmin hd f s) := .vectorArith h

theorem OutcomeNumbers.execVmax {hd : Head} {f : FmtV} (h : NumbersFrom k s) : OutcomeNumbers k (execVmax hd f s) := .vectorArith h

theorem OutcomeNumbers.execVabs {hd : Head} {f : FmtV} (h : NumbersFrom k s) : OutcomeNumbers k (execVabs hd f s) := .vectorArith h

theorem OutcomeNumbers.execVneg {hd : Head} {f : FmtV} (h : NumbersFrom k s) : OutcomeNumbers k (execVneg hd f s) := .vectorArith h

theorem OutcomeNumbers.vectorLogic {op : Lg} {hd : Head} {f : FmtV} (h : NumbersFrom k s) : OutcomeNumbers k (vectorLogic op hd f s) :=
  .issue h fun _ _ ht => .elementwise ht

theorem OutcomeNumbers.execVand {hd : Head} {f : FmtV} (h : NumbersFrom k s) : OutcomeNumbers k (execVand hd f s) := .vectorLogic h

theorem OutcomeNumbers.execVor {hd : Head} {f : FmtV} (h : NumbersFrom k s) : OutcomeNumbers k (execVor hd f s) := .vectorLogic h

theorem OutcomeNumbers.execVxor {hd : Head} {f : FmtV} (h : NumbersFrom k s) : OutcomeNumbers k (execVxor hd f s) := .vectorLogic h

theorem OutcomeNumbers.execVshl {hd : Head} {f : FmtV} (h : NumbersFrom k s) : OutcomeNumbers k (execVshl hd f s) := .vectorLogic h

theorem OutcomeNumbers.execVshr {hd : Head} {f : FmtV} (h : NumbersFrom k s) : OutcomeNumbers k (execVshr hd f s) := .vectorLogic h

theorem OutcomeNumbers.execVsar {hd : Head} {f : FmtV} (h : NumbersFrom k s) : OutcomeNumbers k (execVsar hd f s) := .vectorLogic h

theorem OutcomeNumbers.execVcmp {hd : Head} {f : FmtV} (h : NumbersFrom k s) : OutcomeNumbers k (execVcmp hd f s) :=
  .issue h fun _ _ ht => .vecIssue ht (.next ht)

theorem OutcomeNumbers.execVsel {hd : Head} {f : FmtV} (h : NumbersFrom k s) : OutcomeNumbers k (execVsel hd f s) :=
  .issue h fun _ _ ht => .vecIssue ht (.next ht)

theorem OutcomeNumbers.vectorFunc {fn : Num → Num} {hd : Head} {f : FmtV} (h : NumbersFrom k s) :
    OutcomeNumbers k (vectorFunc fn hd f s) := .issue h fun _ _ ht => .vecIssue ht (.next (.addResult ht))

theorem OutcomeNumbers.execVrcp {hd : Head} {f : FmtV} (h : NumbersFrom k s) : OutcomeNumbers k (execVrcp hd f s) := .vectorFunc h

theorem OutcomeNumbers.execVrsq {hd : Head} {f : FmtV} (h : NumbersFrom k s) : OutcomeNumbers k (execVrsq hd f s) := .vectorFunc h

theorem OutcomeNumbers.execVexp2 {hd : Head} {f : FmtV} (h : NumbersFrom k s) : OutcomeNumbers k (execVexp2 hd f s) := .vectorFunc h

theorem OutcomeNumbers.execVlog2 {hd : Head} {f : FmtV} (h : NumbersFrom k s) : OutcomeNumbers k (execVlog2 hd f s) := .vectorFunc h

theorem VerdictNumbers.convert {f : FmtVX} {okT okT2 : Bool} {rregs wregs : List Nat} {pre six seven : Option FaultInfo}
    {dk sk : List Nat}
    {codes : Cur → Conv → (Nat → Bool) → List Num → List Nat} {extra : Cur → Task → Conv → (Nat → Bool) → List Num → Bool → Task}
    {x : Cur}
    (h : NumbersFrom k s) : VerdictNumbers k (convert f okT okT2 rregs wregs pre six seven dk sk codes extra x s) := by
  simp only [Machine.convert]
  split
  · exact .block
  · exact .vecIssue h (.next h)

theorem OutcomeNumbers.execVcvt {hd : Head} {f : FmtVX} (h : NumbersFrom k s) : OutcomeNumbers k (execVcvt hd f s) :=
  .issue h fun _ _ ht => .convert ht

theorem OutcomeNumbers.execVqnt {hd : Head} {f : FmtVX} (h : NumbersFrom k s) : OutcomeNumbers k (execVqnt hd f s) :=
  .issue h fun _ _ ht => .convert ht

theorem OutcomeNumbers.execVdeq {hd : Head} {f : FmtVX} (h : NumbersFrom k s) : OutcomeNumbers k (execVdeq hd f s) :=
  .issue h fun _ _ ht => .convert ht

theorem OutcomeNumbers.execVred {hd : Head} {f : FmtVX} (h : NumbersFrom k s) : OutcomeNumbers k (execVred hd f s) :=
  .issue h fun _ _ ht => .vecIssue ht (.next ht)

theorem OutcomeNumbers.execVscan {hd : Head} {f : FmtV} (h : NumbersFrom k s) : OutcomeNumbers k (execVscan hd f s) :=
  .issue h fun _ _ ht => .vecIssue ht (.next ht)

theorem OutcomeNumbers.execVperm {hd : Head} {f : FmtV} (h : NumbersFrom k s) : OutcomeNumbers k (execVperm hd f s) :=
  .issue h fun _ _ ht => .vecIssue ht (.next ht)

theorem OutcomeNumbers.execVshuf {hd : Head} {f : FmtVX} (h : NumbersFrom k s) : OutcomeNumbers k (execVshuf hd f s) :=
  .issue h fun _ _ ht => .vecIssue ht (.next ht)

theorem OutcomeNumbers.execVdot {hd : Head} {f : FmtV} (h : NumbersFrom k s) : OutcomeNumbers k (execVdot hd f s) :=
  .issue h fun _ _ ht => .vecIssue ht (.next ht)

theorem OutcomeNumbers.execVmaci {hd : Head} {f : FmtVX} (h : NumbersFrom k s) : OutcomeNumbers k (execVmaci hd f s) :=
  .issue h fun _ _ ht => .vecIssue ht (.next ht)

/-! ## Functions of Machine/Dispatch -/

theorem OutcomeNumbers.exec {i : Instr} (h : NumbersFrom k s) : OutcomeNumbers k (exec i s) := by
  unfold Machine.exec
  split
  · exact .execNop64 h
  · exact .execNop96 h
  · exact .execNop128 h
  · exact .execExit h
  · exact .execBra h
  · exact .execBrx h
  · exact .execCall h
  · exact .execRet h
  · exact .execLoop h
  · exact .execTrap h
  · exact .execBkpt h
  · exact .execMfs h
  · exact .execMts h
  · exact .execLi h
  · exact .execLiw h
  · exact .execLea h
  · exact .execMov h
  · exact .execAdd h
  · exact .execAddi h
  · exact .execSub h
  · exact .execNeg h
  · exact .execMul h
  · exact .execMuli h
  · exact .execMulh h
  · exact .execDiv h
  · exact .execRem h
  · exact .execAnd h
  · exact .execAndi h
  · exact .execOr h
  · exact .execOri h
  · exact .execXor h
  · exact .execXori h
  · exact .execAndn h
  · exact .execNot h
  · exact .execShl h
  · exact .execShli h
  · exact .execShr h
  · exact .execShri h
  · exact .execSar h
  · exact .execSari h
  · exact .execRol h
  · exact .execRoli h
  · exact .execMin h
  · exact .execMax h
  · exact .execAbs h
  · exact .execClz h
  · exact .execCtz h
  · exact .execPopc h
  · exact .execBrev h
  · exact .execBswp h
  · exact .execBfx h
  · exact .execBfxs h
  · exact .execBfi h
  · exact .execSext h
  · exact .execSel h
  · exact .execCmp h
  · exact .execCmpi h
  · exact .execPset h
  · exact .execLmw h
  · exact .execLmr h
  · exact .execLd h
  · exact .execSt h
  · exact .execLda h
  · exact .execStl h
  · exact .execLdf h
  · exact .execLdfe h
  · exact .execSte h
  · exact .execStf h
  · exact .execFeset h
  · exact .execFeclr h
  · exact .execFetst h
  · exact .execPref h
  · exact .execPut h
  · exact .execAmo h
  · exact .execCas h
  · exact .execRed h
  · exact .execAmof h
  · exact .execRedf h
  · exact .execFence h
  · exact .execTrack h
  · exact .execTrackt h
  · exact .execUntrack h
  · exact .execQfence h
  · exact .execVld h
  · exact .execVst h
  · exact .execVlds h
  · exact .execVsts h
  · exact .execVgath h
  · exact .execVscat h
  · exact .execVmov h
  · exact .execVbcast h
  · exact .execVext h
  · exact .execVins h
  · exact .execViota h
  · exact .execVadd h
  · exact .execVsub h
  · exact .execVmul h
  · exact .execVfma h
  · exact .execVfms h
  · exact .execVfnma h
  · exact .execVmin h
  · exact .execVmax h
  · exact .execVabs h
  · exact .execVneg h
  · exact .execVand h
  · exact .execVor h
  · exact .execVxor h
  · exact .execVshl h
  · exact .execVshr h
  · exact .execVsar h
  · exact .execVcmp h
  · exact .execVsel h
  · exact .execVrcp h
  · exact .execVrsq h
  · exact .execVexp2 h
  · exact .execVlog2 h
  · exact .execVcvt h
  · exact .execVqnt h
  · exact .execVdeq h
  · exact .execVred h
  · exact .execVscan h
  · exact .execVperm h
  · exact .execVshuf h
  · exact .execVdot h
  · exact .execVmaci h
  · exact .execMzero h
  · exact .execMld h
  · exact .execMldSc h
  · exact .execMst h
  · exact .execMma h
  · exact .execMmas h
  · exact .execMmar h
  · exact .execMmat h
  · exact .execMacc h
  · exact .execMtrn h
  · exact .execMcode h
  · exact .execTdef h
  · exact .execTqry h
  · exact .execSpsend h
  · exact .execSpawn h
  · exact .execSpawnp h
  · exact .execSend h
  · exact .execSendResume h
  · exact .execJoin h
  · exact .execJoinRet h
  · exact .execGo h
  · exact .execChsend h
  · exact .execChrecv h
  · exact .execChmask h
  · exact .execBar h
  · exact .execBara h
  · exact .execBarw h
  · exact .execCopy h
  · exact .execCgath h
  · exact .execCscat h
  · exact .execCredc h
  · exact .execCseal h
  · exact .execCwait h
  · exact .execCwaitAll h
  · exact .execCtest h
  · exact .execCpost h
  · exact .execHandover h
  · exact .execHandoverC h
  · exact .execDone h
  · exact .execPendingResultWrite h
  · exact .execArrivalQueueEnter h
  · exact .execSlotLoad h
  · exact .execGrantResend h
  · exact .execTicketlessResend h
  · exact .execDepartureSend h
  · exact .execBarrierLineArrival h
  · exact .execBarrierPhaseComplete h
  · exact .execBarrierTimeout h
  · exact .execHomeAccessPerform h
  · exact .execAccessReplyArrive h
  · exact .execLsuPlaceGrant h
  · exact .execLookasideFill h
  · exact .execFenceComplete h
  · exact .execLdaComplete h
  · exact .execStlRelease h
  · exact .execWsRefreshStart h
  · exact .execWsRefreshEnd h
  · exact .execEngineEntryBegin h
  · exact .execCopyChunkWrite h
  · exact .execQmEntryPerform h
  · exact .execMmatStepComplete h
  · exact .execMmarFetchServe h
  · exact .execMmarDataArrive h
  · exact .execMmarPairLost h
  · exact .execPageEviction h
  · exact .execPageReturn h
  · exact .execFaultPacketHandle h
  · exact .execResumePacketApply h
  · exact .execWalkerServe h
  · exact .execCapsuleTake h
  · exact .execCodeImageVerify h
  · exact .execGangReserve h
  · exact .execGangCommit h
  · exact .execOperatingPointReached h
  · exact .execChildQueue h
  · exact .execCapabilityArrive h
  · exact .execCapsuleComplete h
  · exact .execCompletionRecordWrite h
  · exact .execMsixSend h
  · exact .execCoreEvict h
  · exact .execImageWrite h
  · exact .execParkedPacketDivert h
  · exact .execImageRestore h
  · exact .execCapabilityFault h
  · exact .execFirmwareRestart h
  · exact .execWatchdogExpire h
  · exact .execSubmit h
  · exact .execQcfgEnable h
  · exact .execQcfgDisable h
  · exact .execWindowEnable h
  · exact .execWindowDisable h
  · exact .execLockSet h
  · exact .execLockWalkerCheck h
  · exact .execOnazalEnable h
  · exact .execOnazalPortEnable h
  · exact .execPwrctlRun h
  · exact .execPwrctlIdle h
  · exact .execPwrctlGated h
  · exact .execPowerStateEnter h
  · exact .execMailboxEvidence h
  · exact .execMailboxOwnerKey h
  · exact .execKillctlGo h
  · exact .execRegisterWrite h
  · exact .execBringUp h
  · exact .execInboundWrite h
  · exact .execInboundPieceSend h
  · exact .execInboundRead h
  · exact .execRemoteRequestArrive h
  · exact .execLinkCrcReplay h
  · exact .execLinkRetrain h
  · exact .execScrubPass h
  · exact .execSelfCheckFail h
  · exact .execInstructionStoreFill h
  · exact .execEncodingFault h
  · exact .execSequentialFlowPastCodelen h
  · exact .execWakeSequenceComplete h
  · exact .execOnazalPortTrained h

/-! ## Functions of Machine/Step -/

theorem OutcomeNumbers.issueStep (h : NumbersFrom k s) : OutcomeNumbers k (issueStep s) := by
  simp only [Machine.issueStep]
  split
  · split <;> exact .exec h
  · exact .next h

theorem OutcomeNumbers.step (h : NumbersFrom k s) : OutcomeNumbers k (step s) := by
  simp only [Machine.step]
  split
  · exact .issueStep h
  · split
    · exact .issueStep (.update (.update (.advance h)))
    · split
      · exact .exec (.update (.advance h))
      · exact .next (.update (.advance h))

end Walk

/-- Settles O57: a step begins with the numbers that it finds, and every function that it goes through keeps them. -/
theorem stepKeepsNumbers : Obligations.StepKeepsNumbers := by
  unfold Obligations.StepKeepsNumbers
  intro s t hs hstep
  have hnum : OutcomeNumbers s.serial (step s) := .step ⟨hs, le_rfl⟩
  rw [hstep] at hnum
  cases hnum with
  | next h => exact h

end Sys2Proof.Machine

/-! # What the decoder reads back from an encoding (O55) -/

namespace Sys2Proof

/-! ## Little-endian bytes (R3) -/

theorem length_leBytes (n v : Nat) : (leBytes n v).length = n := by
  induction n generalizing v with
  | zero => rfl
  | succ n ih => rw [leBytes, List.length_cons, ih]

/-- The bytes of a value that fits in them have that value. -/
theorem leNat_leBytes {n v : Nat} (h : v < 2 ^ (8 * n)) : leNat (leBytes n v) = v := by
  induction n generalizing v with
  | zero => exact (Nat.lt_one_iff.1 h).symm
  | succ n ih =>
    have hv : v / 256 < 2 ^ (8 * n) := by
      rw [Nat.mul_succ, Nat.pow_add] at h
      exact Nat.div_lt_of_lt_mul (by omega)
    rw [leBytes, leNat, ih hv, BitVec.toNat_ofNat]
    omega

/-! ## Fields packed into a word (R234) -/

/-- Each value fits in the width of its field, and there is one value per field. -/
def FieldsFit (ws vs : List Nat) : Prop := List.Forall₂ (fun w v => v < 2 ^ w) ws vs

/-- Values that fit take no more bits than their fields. -/
theorem packFields_lt (ws vs : List Nat) : packFields ws vs < 2 ^ ws.sum := by
  induction ws generalizing vs with
  | nil => exact Nat.one_pos
  | cons w ws ih =>
    rw [List.sum_cons, Nat.pow_add]
    cases vs with
    | nil => exact Nat.mul_pos (Nat.two_pow_pos w) (Nat.two_pow_pos _)
    | cons v vs =>
      calc packFields (w :: ws) (v :: vs)
        _ < 2 ^ w + 2 ^ w * packFields ws vs := Nat.add_lt_add_right (Nat.mod_lt v (Nat.two_pow_pos w)) _
        _ = 2 ^ w * (packFields ws vs + 1) := by ring
        _ ≤ 2 ^ w * 2 ^ ws.sum := Nat.mul_le_mul_left _ (ih vs)

/-- Cutting a word by the widths that it was packed by gives its fields back. -/
theorem unpackFields_packFields {ws vs : List Nat} (h : FieldsFit ws vs) : unpackFields ws (packFields ws vs) = vs := by
  induction h with
  | nil => rfl
  | @cons w v ws vs hv _ ih =>
    have hlow : (v + 2 ^ w * packFields ws vs) % 2 ^ w = v := by rw [Nat.add_mul_mod_self_left, Nat.mod_eq_of_lt hv]
    have hhigh : (v + 2 ^ w * packFields ws vs) / 2 ^ w = packFields ws vs := by
      rw [Nat.add_mul_div_left _ _ (Nat.two_pow_pos w), Nat.div_eq_of_lt hv, Nat.zero_add]
    rw [packFields, Nat.mod_eq_of_lt hv, unpackFields, hlow, hhigh, ih]

/-- The fields beyond the first ones stand above the bits of those. -/
theorem unpackFields_append (us ws : List Nat) (x : Nat) :
    unpackFields (us ++ ws) x = unpackFields us x ++ unpackFields ws (x / 2 ^ us.sum) := by
  induction us generalizing x with
  | nil => simp [unpackFields]
  | cons u us ih => simp [unpackFields, ih, Nat.pow_add, Nat.div_div_eq_div_mul]

theorem length_unpackFields (ws : List Nat) (x : Nat) : (unpackFields ws x).length = ws.length := by
  induction ws generalizing x with
  | nil => rfl
  | cons w ws ih => rw [unpackFields, List.length_cons, ih, List.length_cons]

/-! ## The formats (R234) -/

@[simp] theorem FmtA.ofFields_toFields (f : FmtA) : FmtA.ofFields f.toFields = some f := by simp [toFields, ofFields]
@[simp] theorem FmtI.ofFields_toFields (f : FmtI) : FmtI.ofFields f.toFields = some f := by simp [toFields, ofFields]
@[simp] theorem FmtL.ofFields_toFields (f : FmtL) : FmtL.ofFields f.toFields = some f := by simp [toFields, ofFields]
@[simp] theorem FmtP.ofFields_toFields (f : FmtP) : FmtP.ofFields f.toFields = some f := by simp [toFields, ofFields]
@[simp] theorem FmtB.ofFields_toFields (f : FmtB) : FmtB.ofFields f.toFields = some f := by simp [toFields, ofFields]
@[simp] theorem FmtS.ofFields_toFields (f : FmtS) : FmtS.ofFields f.toFields = some f := by simp [toFields, ofFields]
@[simp] theorem FmtN.ofFields_toFields (f : FmtN) : FmtN.ofFields f.toFields = some f := by simp [toFields, ofFields]
@[simp] theorem FmtM.ofFields_toFields (f : FmtM) : FmtM.ofFields f.toFields = some f := by simp [toFields, ofFields]
@[simp] theorem FmtML.ofFields_toFields (f : FmtML) : FmtML.ofFields f.toFields = some f := by simp [toFields, ofFields]
@[simp] theorem FmtF.ofFields_toFields (f : FmtF) : FmtF.ofFields f.toFields = some f := by simp [toFields, ofFields]
@[simp] theorem FmtT.ofFields_toFields (f : FmtT) : FmtT.ofFields f.toFields = some f := by simp [toFields, ofFields]
@[simp] theorem FmtW.ofFields_toFields (f : FmtW) : FmtW.ofFields f.toFields = some f := by simp [toFields, ofFields]
@[simp] theorem FmtV.ofFields_toFields (f : FmtV) : FmtV.ofFields f.toFields = some f := by simp [toFields, ofFields]
@[simp] theorem FmtVX.ofFields_toFields (f : FmtVX) : FmtVX.ofFields f.toFields = some f := by simp [toFields, ofFields]
@[simp] theorem FmtVM.ofFields_toFields (f : FmtVM) : FmtVM.ofFields f.toFields = some f := by simp [toFields, ofFields]
@[simp] theorem FmtX.ofFields_toFields (f : FmtX) : FmtX.ofFields f.toFields = some f := by simp [toFields, ofFields]
@[simp] theorem FmtC.ofFields_toFields (f : FmtC) : FmtC.ofFields f.toFields = some f := by simp [toFields, ofFields]

/-- The values that the fields of a record of each format give, and the instruction of an opcode, a length code and a head that has
them. -/
inductive FieldsOf : Format → List Nat → (Nat → Nat → Head → Option Instr) → Prop where
  | a (f : FmtA) : FieldsOf .a f.toFields fun op _ h => buildA op h f
  | i (f : FmtI) : FieldsOf .i f.toFields fun op _ h => buildI op h f
  | l (f : FmtL) : FieldsOf .l f.toFields fun op _ h => buildL op h f
  | p (f : FmtP) : FieldsOf .p f.toFields fun op _ h => buildP op h f
  | b (f : FmtB) : FieldsOf .b f.toFields fun op _ h => buildB op h f
  | s (f : FmtS) : FieldsOf .s f.toFields fun op _ h => buildS op h f
  | n (f : FmtN) : FieldsOf .n f.toFields fun op len h =>
      if op = 1 then some (if len = 0 then .nop64 h f else if len = 1 then .nop96 h f else .nop128 h f) else buildN op h f
  | m (f : FmtM) : FieldsOf .m f.toFields fun op _ h => buildM op h f
  | ml (f : FmtML) : FieldsOf .ml f.toFields fun op _ h => buildML op h f
  | f (f : FmtF) : FieldsOf .f f.toFields fun op _ h => buildF op h f
  | t (f : FmtT) : FieldsOf .t f.toFields fun op _ h => buildT op h f
  | w (f : FmtW) : FieldsOf .w f.toFields fun op _ h => buildW op h f
  | v (f : FmtV) : FieldsOf .v f.toFields fun op _ h => buildV op h f
  | vx (f : FmtVX) : FieldsOf .vx f.toFields fun op _ h => buildVX op h f
  | vm (f : FmtVM) : FieldsOf .vm f.toFields fun op _ h => buildVM op h f
  | x (f : FmtX) : FieldsOf .x f.toFields fun op _ h => buildX op h f
  | c (f : FmtC) : FieldsOf .c f.toFields fun op _ h => buildC op h f

section

variable {fm : Format} {fs : List Nat} {build : Nat → Nat → Head → Option Instr}

/-- A bit vector fits in a field of its own width, and the fields named 0 hold 0 (R234, R244). -/
theorem FieldsOf.fit_zeros (h : FieldsOf fm fs build) : FieldsFit fm.widths fs ∧ ∀ x ∈ fm.zeros fs, x.2 = 0 := by
  cases h
  all_goals
    simp only [FmtA.toFields, FmtI.toFields, FmtL.toFields, FmtP.toFields, FmtB.toFields, FmtS.toFields, FmtN.toFields,
      FmtM.toFields, FmtML.toFields, FmtF.toFields, FmtT.toFields, FmtW.toFields, FmtV.toFields, FmtVX.toFields,
      FmtVM.toFields, FmtX.toFields, FmtC.toFields]
    constructor
    · simp only [-Nat.reducePow, FieldsFit, Format.widths, List.forall₂_cons, List.forall₂_nil_left_iff, BitVec.isLt,
        Nat.two_pow_pos, and_self]
    · simp [Format.zeros, reservedFields, Format.widths, Format.zeroMask]

/-- The decoder's instruction of an opcode is the one that its format builds from the record. -/
theorem FieldsOf.buildInstr_eq (hfs : FieldsOf fm fs build) {op : Nat} (hop : opFormat op = some fm) (len : Nat) (h : Head) :
    buildInstr op len h fs = build op len h := by
  cases hfs
  case n f =>
    by_cases h1 : op = 1
    · simp [buildInstr, h1]
    · simp [buildInstr, h1, hop]
  all_goals
    have h1 : op ≠ 1 := by rintro rfl; cases hop
    simp [buildInstr, h1, hop]

end

/-! ## The parts of an instruction (R232, R234, R243) -/

section

variable {i : Instr} {p : Parts}

theorem exists_parts (h : i.isEvent = false) : ∃ p, i.parts = some p := by
  cases i
  all_goals simp only [Instr.isEvent, reduceCtorEq] at h
  all_goals exact ⟨_, rfl⟩

theorem opFormat_of_parts (hp : i.parts = some p) : opFormat p.op = some p.fmt := by
  cases i
  all_goals simp only [Instr.parts, Option.some.injEq, reduceCtorEq] at hp
  all_goals
    subst hp
    rfl

/-- NOP is format N in every length (R231). -/
theorem fmt_of_op_one (hp : i.parts = some p) (h1 : p.op = 1) : p.fmt = .n := by
  have hf := opFormat_of_parts hp
  rw [h1] at hf
  exact (Option.some.inj hf).symm

/-- An opcode fits in its eight bits, and only a NOP has another length than its format's (R231, R244). -/
theorem op_len_of_parts (hp : i.parts = some p) : p.op < 2 ^ 8 ∧ p.len < 3 ∧ (p.op = 1 ∨ p.len = p.fmt.lenCode) := by
  cases i
  all_goals simp only [Instr.parts, Option.some.injEq, reduceCtorEq] at hp
  all_goals
    subst hp
    simp [Format.lenCode]

/-- An instruction is what its format builds from its record. Where two rows share an opcode, the field that tells them apart
chooses between them. -/
theorem fieldsOf_of_parts (hp : i.parts = some p) (hv : i.variantOk = true) :
    ∃ build, FieldsOf p.fmt p.fs build ∧ build p.op p.len p.h = some i := by
  cases i
  all_goals simp only [Instr.parts, Option.some.injEq, reduceCtorEq] at hp
  all_goals
    subst hp
    refine ⟨_, by constructor, ?_⟩
  case mld | mldSc | send | sendResume | join | joinRet | cwait | cwaitAll | handover | handoverC =>
    simp [Instr.variantOk] at hv
    simp [buildX, buildT, buildA, hv]
  all_goals rfl

end

/-! ## Decoding a word -/

/-- No field is offending when all of them are 0. -/
theorem lowestBad_eq_none {l : List (Nat × Nat)} (h : ∀ x ∈ l, x.2 = 0) : lowestBad l = none := by
  have hnil : l.filterMap (fun x => if x.2 = 0 then none else some x.1) = [] :=
    List.filterMap_eq_nil_iff.2 fun x hx => if_pos (h x hx)
  rw [lowestBad, hnil]
  rfl

/-- No reserved value is there when no check finds one. -/
theorem reserved_min?_eq_none {l : List (Nat × Bool)} (h : ∀ x ∈ l, x.2 = false) :
    (l.filterMap fun x => if x.2 then some x.1 else none).min? = none := by
  have hnil : l.filterMap (fun x => if x.2 then some x.1 else none) = [] :=
    List.filterMap_eq_nil_iff.2 fun x hx => by simp [h x hx]
  rw [hnil]
  rfl

/-- The fixed fields of R232 as numbers, low bit first. -/
def Parts.headFields (p : Parts) : List Nat := [p.len, p.h.s.toNat, p.op, p.h.gp.toNat, p.h.gn.toNat]

/-- The word of an instruction's parts. -/
def Parts.word (p : Parts) : Nat := packFields (headWidths ++ p.fmt.widths) (p.headFields ++ p.fs)

/-- The head that the decoder reads from the numbers of its fields. -/
theorem head_ofFields (h : Head) : (⟨h.gn.toNat = 1, BitVec.ofNat 3 h.gp.toNat, h.s.toNat = 1⟩ : Head) = h := by
  obtain ⟨gn, gp, s⟩ := h
  cases gn <;> cases s <;> simp

/-- The fixed fields fill 15 bits and a format the rest of its length (R229, R234). -/
theorem Format.widths_sum (fm : Format) : 15 + fm.widths.sum = 8 * lenBytes fm.lenCode := by
  cases fm <;> rfl

section

variable {i : Instr} {p : Parts}

theorem Parts.headFields_fit (hop : p.op < 2 ^ 8) (hlen : p.len < 3) : FieldsFit headWidths p.headFields :=
  .cons (by omega) (.cons p.h.s.toNat_lt (.cons hop (.cons p.h.gp.isLt (.cons p.h.gn.toNat_lt .nil))))

/-- Cutting the word of the parts gives back the head's fields, and above bit 14 the fields of the format. -/
theorem Parts.unpack_word (hh : FieldsFit headWidths p.headFields) (hf : FieldsFit p.fmt.widths p.fs) :
    unpackFields headWidths p.word = p.headFields ∧ unpackFields p.fmt.widths (p.word / 2 ^ 15) = p.fs := by
  have hall : unpackFields (headWidths ++ p.fmt.widths) p.word = p.headFields ++ p.fs :=
    unpackFields_packFields (List.rel_append hh hf)
  rw [unpackFields_append] at hall
  exact List.append_inj hall (length_unpackFields ..)

theorem Parts.word_lt (p : Parts) : p.word < 2 ^ (15 + p.fmt.widths.sum) := by
  have h := packFields_lt (headWidths ++ p.fmt.widths) (p.headFields ++ p.fs)
  rwa [List.sum_append] at h

/-- The word of the parts ends within their length. -/
theorem word_lt_of_parts (hp : i.parts = some p) : p.word < 2 ^ (8 * lenBytes p.len) := by
  refine p.word_lt.trans_le (Nat.pow_le_pow_right Nat.two_pos ?_)
  rw [p.fmt.widths_sum]
  obtain ⟨-, -, hnop | hlen⟩ := op_len_of_parts hp
  · simp only [fmt_of_op_one hp hnop, Format.lenCode, lenBytes]
    omega
  · rw [hlen]

/-- What the decoder takes for the fields above bit 14 is all that stands there. -/
theorem body_of_parts (hp : i.parts = some p) : p.word / 2 ^ 15 % 2 ^ (8 * lenBytes p.len - 15) = p.word / 2 ^ 15 := by
  refine Nat.mod_eq_of_lt (Nat.div_lt_of_lt_mul ?_)
  rw [← Nat.pow_add, Nat.add_sub_of_le (by simp only [lenBytes]; omega)]
  exact word_lt_of_parts hp

/-- The bits of a NOP above its format are 0 (R231). -/
theorem above_of_op_one (hp : i.parts = some p) (h1 : p.op = 1) : p.word / 2 ^ 15 / 2 ^ 49 = 0 := by
  have h := p.word_lt
  rw [fmt_of_op_one hp h1] at h
  rw [Nat.div_div_eq_div_mul, ← Nat.pow_add]
  exact Nat.div_eq_of_lt h

/-- The decoder reads a well-formed instruction from the word of its parts, wherever the instruction does not cross the end of its
block (R229, R230). -/
theorem decodeWord_word (hp : i.parts = some p) (hw : i.WellFormed) {avail : Nat} (ha : lenBytes p.len ≤ avail) :
    decodeWord avail p.word = .ok (i, lenBytes p.len) := by
  obtain ⟨hunused, hreserved, hvariant⟩ := hw
  obtain ⟨build, hfields, hbuild⟩ := fieldsOf_of_parts hp hvariant
  obtain ⟨hfit, hzeros⟩ := hfields.fit_zeros
  obtain ⟨hop, hlen, hcode⟩ := op_len_of_parts hp
  have hformat := opFormat_of_parts hp
  obtain ⟨hhead, hfs⟩ := Parts.unpack_word (Parts.headFields_fit hop hlen) hfit
  have hinstr : buildInstr p.op p.len p.h p.fs = some i := (hfields.buildInstr_eq hformat _ _).trans hbuild
  have hbad : lowestBad (p.fmt.zeros p.fs ++ (if p.op = 1 then [(64, p.word / 2 ^ 15 / 2 ^ 49)] else []) ++ i.unused) = none := by
    refine lowestBad_eq_none fun x hx => ?_
    rcases List.mem_append.1 hx with hx | hx
    · rcases List.mem_append.1 hx with hx | hx
      · exact hzeros x hx
      · by_cases h1 : p.op = 1
        · rw [if_pos h1, List.mem_singleton] at hx
          rw [hx, above_of_op_one hp h1]
        · rw [if_neg h1] at hx
          cases hx
    · exact hunused x hx
  simp only [decodeWord, hhead, Parts.headFields, if_neg (show p.len ≠ 3 by omega), if_neg (Nat.not_lt.2 ha), hformat,
    if_neg (show ¬(p.op ≠ 1 ∧ p.len ≠ p.fmt.lenCode) by omega), body_of_parts hp, hfs, head_ofFields, hinstr, hbad,
    reserved_min?_eq_none hreserved]

theorem encode_of_parts (hp : i.parts = some p) : encode i = p.word := by
  simp only [encode, hp]
  rfl

theorem lenB_of_parts (hp : i.parts = some p) : i.lenB = lenBytes p.len := by simp only [Instr.lenB, hp]

end

/-- Settles O55: an instruction's bytes are its word, its word is its fields, and its fields are its record. -/
theorem decodeEncode : Obligations.DecodeEncode := by
  unfold Obligations.DecodeEncode
  intro i hi hw
  obtain ⟨p, hp⟩ := exists_parts hi
  obtain ⟨-, hlen, -⟩ := op_len_of_parts hp
  have hbytes : (encodeBytes i).length = lenBytes p.len := by rw [encodeBytes, length_leBytes, lenB_of_parts hp]
  have htake : (encodeBytes i).take 16 = leBytes (lenBytes p.len) p.word := by
    rw [List.take_of_length_le (by rw [hbytes, lenBytes]; omega), encodeBytes, lenB_of_parts hp, encode_of_parts hp]
  rw [decodeBytes, hbytes, htake, leNat_leBytes (word_lt_of_parts hp), decodeWord_word hp hw le_rfl, lenB_of_parts hp]

end Sys2Proof

/-! # No-operations (O6) and the words that the spec works out (O60) -/

namespace Sys2Proof.Machine

open Sys2Proof

/-- An instruction without checks or effect only goes on behind itself. -/
theorem issue_next_keepsTask {s : State} {h : Head} {len : Nat} {x : Cur} (hi : Issues s h len x) :
    ∃ t, issue h len (fun _ s => .next s) s = .next t ∧ KeepsTask s t x (x.pc + len) := by
  have ⟨hc, _, _⟩ := hi
  obtain ⟨-, -, -, -, -, -, hlen, -⟩ := cur?_eq hc
  refine ⟨_, issue_of_issues hi _, ?_⟩
  rw [← hlen]
  exact atChecks_transfer_keepsTask hc _

/-- Settles O6: a NOP of each length has no checks and no effect. -/
theorem noOperations : Obligations.NoOperations := by
  unfold Obligations.NoOperations
  intro h f s x
  exact ⟨issue_next_keepsTask, issue_next_keepsTask, issue_next_keepsTask⟩

end Sys2Proof.Machine

namespace Sys2Proof

/-- Settles O60, by decoding each word. -/
theorem decodeSanity : Obligations.DecodeSanity := by
  unfold Obligations.DecodeSanity
  decide +kernel

end Sys2Proof

/-! # The values of the scalar pages (R250 to R253, R258) -/

namespace Sys2Proof.Machine

open Sys2Proof

/-! ## The low 64 bits of an exact integer (R8) -/

@[simp] theorem low64_natCast (n : Nat) : low64 n = BitVec.ofNat 64 n := BitVec.ofInt_natCast ..

theorem low64_toNat (a : Word) : low64 a.toNat = a := by rw [low64_natCast, BitVec.ofNat_toNat, BitVec.setWidth_eq]

@[simp] theorem low64_toInt (a : Word) : low64 a.toInt = a := BitVec.ofInt_toInt

@[simp] theorem low64_add (x y : Int) : low64 (x + y) = low64 x + low64 y := BitVec.ofInt_add ..

@[simp] theorem low64_mul (x y : Int) : low64 (x * y) = low64 x * low64 y := BitVec.ofInt_mul ..

@[simp] theorem low64_neg (x : Int) : low64 (-x) = -low64 x := BitVec.ofInt_neg ..

@[simp] theorem low64_sub (x y : Int) : low64 (x - y) = low64 x - low64 y := by
  rw [Int.sub_eq_add_neg, low64_add, low64_neg, BitVec.sub_eq_add_neg]

/-- A sign-extended field is the low 64 bits of its value (R238). -/
theorem signExtend_eq_low64 {w : Nat} (v : BitVec w) : v.signExtend 64 = low64 v.toInt := rfl

/-- A power of two as a factor shifts to the left. -/
theorem low64_mul_two_pow (a : Word) (n : Nat) : low64 (a.toNat * 2 ^ n) = a <<< n := by
  apply BitVec.eq_of_toNat_eq
  rw [show ((a.toNat : Int) * 2 ^ n) = ((a.toNat * 2 ^ n : Nat) : Int) by push_cast; rfl, low64_natCast, BitVec.toNat_ofNat,
    BitVec.toNat_shiftLeft, Nat.shiftLeft_eq]

/-! ## Arithmetic and counts (R250) -/

theorem mulHigh_eq (n : Bool) (a b : Word) : mulHigh n a b =
    if n then low64 ((a.toNat : Int) * b.toNat / 2 ^ 64) else low64 (a.toInt * b.toInt / 2 ^ 64) := by
  cases n
  · rfl
  · exact (low64_natCast _).symm

/-- Of two words, the one that an order of their values chooses has the lesser, or the greater, of the values. -/
theorem chosen_eq_low64 {value : Word → Int} (hv : ∀ a, low64 (value a) = a) (lesser : Bool) (a b : Word) :
    (if lesser = decide (value a ≤ value b) then a else b) =
      low64 (if lesser then min (value a) (value b) else max (value a) (value b)) := by
  by_cases h : value a ≤ value b
  · cases lesser <;> simp [h, hv]
  · have h' := le_of_not_ge h
    cases lesser <;> simp [h, h', hv]

theorem minMax_eq (n lesser : Bool) (a b : Word) : minMax n lesser a b =
    if n then low64 (if lesser then min (a.toNat : Int) b.toNat else max (a.toNat : Int) b.toNat)
    else low64 (if lesser then min a.toInt b.toInt else max a.toInt b.toInt) := by
  cases n
  · exact chosen_eq_low64 low64_toInt lesser a b
  · rw [if_pos rfl, ← chosen_eq_low64 (value := fun a => (a.toNat : Int)) (fun a => by simp) lesser a b]
    simp [minMax, BitVec.ule]

theorem abs_eq_low64 (a : Word) : (if a.msb then -a else a) = low64 (if a.toInt < 0 then -a.toInt else a.toInt) := by
  rw [BitVec.msb_eq_toInt]
  by_cases h : a.toInt < 0 <;> simp [h]

theorem length_takeWhile_range_of_all {p : Nat → Bool} {n : Nat} (h : ∀ i, i < n → p i = true) :
    ((List.range n).takeWhile p).length = n := by
  rw [List.takeWhile_eq_self_iff.2 fun i hi => h i (List.mem_range.1 hi), List.length_range]

theorem length_takeWhile_range_of_first {p : Nat → Bool} {n k : Nat} (hk : k < n) (hlow : ∀ i, i < k → p i = true)
    (hstop : p k = false) : ((List.range n).takeWhile p).length = k := by
  have hidx : (List.range n).findIdx (fun i => !p i) = k := by
    rw [List.findIdx_eq (by simpa using hk)]
    simpa [hstop] using hlow
  rw [List.takeWhile_eq_take_findIdx_not, hidx, List.length_take, List.length_range, Nat.min_eq_left hk.le]

theorem leadingZeros_eq (a : Word) :
    leadingZeros a = ((List.range 64).takeWhile fun i => !a.getLsbD (63 - i)).length := by
  unfold leadingZeros
  split
  · next h => subst h; exact (length_takeWhile_range_of_all fun i _ => by simp).symm
  · next h =>
    have hne : a.toNat ≠ 0 := fun h0 => h (BitVec.eq_of_toNat_eq h0)
    have htop : a.toNat.log2 < 64 := (Nat.log2_lt hne).2 a.isLt
    refine (length_takeWhile_range_of_first (by omega) (fun i hi => ?_) ?_).symm
    · have : a.toNat < 2 ^ (63 - i) := Nat.lt_log2_self.trans_le (Nat.pow_le_pow_right Nat.two_pos (by omega))
      simp [BitVec.getLsbD, Nat.testBit_lt_two_pow this]
    · rw [show 63 - (63 - a.toNat.log2) = a.toNat.log2 by omega, BitVec.getLsbD, Nat.testBit_log2 hne, Bool.not_true]

theorem trailingZeros_eq (a : Word) : trailingZeros a = ((List.range 64).takeWhile fun i => !a.getLsbD i).length := by
  unfold trailingZeros
  cases h : (List.range 64).find? fun i => a.getLsbD i with
  | none => exact (length_takeWhile_range_of_all (List.find?_range_eq_none.1 h)).symm
  | some k =>
    obtain ⟨hset, hk, hlow⟩ := List.find?_range_eq_some.1 h
    exact (length_takeWhile_range_of_first (List.mem_range.1 hk) hlow (by simp [hset])).symm

theorem popCount_eq (a : Word) : popCount a = (List.range 64).countP fun i => a.getLsbD i :=
  List.countP_eq_length_filter.symm

theorem reverse_eq_ofFnLE (a : Word) : a.reverse = BitVec.ofFnLE fun i : Fin 64 => a.getLsbD (63 - i) := by
  refine BitVec.eq_of_getLsbD_eq fun i hi => ?_
  rw [BitVec.getLsbD_reverse, BitVec.getMsbD_eq_getLsbD, BitVec.getLsbD_ofFnLE, dif_pos hi, decide_eq_true hi, Bool.true_and]

/-- A bit of a little-endian value is a bit of one of its bytes (R3). -/
theorem testBit_leNat {l : List Byte} {i : Nat} (hi : i / 8 < l.length) : (leNat l).testBit i = l[i / 8].getLsbD (i % 8) := by
  rw [← ofNat_leNat_div hi, BitVec.getLsbD_ofNat, decide_eq_true (Nat.mod_lt i (by decide)), Bool.true_and, ← Nat.testBit_add,
    Nat.mod_add_div]

/-- A bit of a word's bytes is a bit of the word (R3). -/
theorem getLsbD_leBytes (a : Word) {k r : Nat} (hk : k < (leBytes 8 a.toNat).length) (hr : r < 8) :
    (leBytes 8 a.toNat)[k].getLsbD r = a.getLsbD (8 * k + r) := by
  rw [← ofNat_leNat_div hk, Sys2Proof.leNat_leBytes a.isLt, BitVec.getLsbD_ofNat, decide_eq_true hr, Bool.true_and,
    ← Nat.testBit_add,
    Nat.add_comm r, BitVec.getLsbD]

theorem byteSwap_eq_ofFnLE (a : Word) : BitVec.ofNat 64 (leNat (leBytes 8 a.toNat).reverse) =
    BitVec.ofFnLE fun i : Fin 64 => a.getLsbD (8 * (7 - i / 8) + i % 8) := by
  have hlen : (leBytes 8 a.toNat).length = 8 := length_leBytes ..
  refine BitVec.eq_of_getLsbD_eq fun i hi => ?_
  rw [BitVec.getLsbD_ofFnLE, dif_pos hi, BitVec.getLsbD_ofNat, decide_eq_true hi, Bool.true_and,
    testBit_leNat (by rw [List.length_reverse, hlen]; omega), List.getElem_reverse, getLsbD_leBytes _ _ (Nat.mod_lt i (by decide))]
  simp only [hlen]

/-! ## Quotient and remainder (R251) -/

theorem divRem_eq (n : Bool) (a b : Word) : divRem n a b = (quotientOf n a b, remainderOf n a b) := by
  by_cases hb : b = 0
  · subst hb; rfl
  · have hb' : b.toNat ≠ 0 := fun h => hb (BitVec.eq_of_toNat_eq h)
    cases n
    · simp only [divRem, quotientOf, remainderOf, if_neg hb, if_neg hb', Int.tmod_def, Bool.false_eq_true, if_false]
      rfl
    · simp only [divRem, quotientOf, remainderOf, if_neg hb, if_neg hb', if_true]
      exact Prod.ext (low64_natCast _).symm (low64_natCast _).symm

/-! ## Shifts and rotates (R252) -/

theorem shiftLeft_eq (a : Word) (n : Nat) : shiftLeft a n = shlOf a n := by
  simp only [shiftLeft, shlOf, low64_mul_two_pow]

theorem shiftRight_eq (a : Word) (n : Nat) : shiftRight a n = shrOf a n := by
  unfold shiftRight shrOf
  split
  · rfl
  · apply BitVec.eq_of_toNat_eq
    rw [show ((a.toNat : Int) / 2 ^ n) = ((a.toNat / 2 ^ n : Nat) : Int) by push_cast; rfl, low64_natCast, BitVec.toNat_ofNat,
      BitVec.toNat_ushiftRight, Nat.shiftRight_eq_div_pow, Nat.mod_eq_of_lt ((Nat.div_le_self ..).trans_lt a.isLt)]

theorem shiftArith_eq (a : Word) (n : Nat) : shiftArith a n = sarOf a n := by
  unfold shiftArith sarOf
  split
  · rfl
  · rw [← low64_toInt (a.sshiftRight n), BitVec.toInt_sshiftRight, Int.shiftRight_eq_div_pow]
    push_cast
    rfl

theorem rotate_eq (a : Word) (n : Nat) : rotate a n = rolOf a n := by
  have hm : n % 64 < 64 := Nat.mod_lt n (by decide)
  unfold rotate rolOf
  generalize n % 64 = m at hm
  have hpow : 2 ^ 64 = 2 ^ m * 2 ^ (64 - m) := by rw [← Nat.pow_add, Nat.add_sub_of_le hm.le]
  have hhigh : a.toNat / 2 ^ (64 - m) < 2 ^ m := Nat.div_lt_of_lt_mul (by rw [Nat.mul_comm, ← hpow]; exact a.isLt)
  have hlow : a.toNat * 2 ^ m % 2 ^ 64 = 2 ^ m * (a.toNat % 2 ^ (64 - m)) := by rw [Nat.mul_comm, hpow, Nat.mul_mod_mul_left]
  have hsum : 2 ^ m * (a.toNat % 2 ^ (64 - m)) + a.toNat / 2 ^ (64 - m) < 2 ^ 64 := by
    have hstep := Nat.mul_le_mul_left (2 ^ m) (Nat.mod_lt a.toNat (Nat.two_pow_pos (64 - m)))
    rw [Nat.mul_succ, ← hpow] at hstep
    omega
  apply BitVec.eq_of_toNat_eq
  calc (a.rotateLeft m).toNat
      = a.toNat * 2 ^ m % 2 ^ 64 ||| a.toNat / 2 ^ (64 - m) := by
        rw [BitVec.toNat_rotateLeft, Nat.mod_eq_of_lt hm, Nat.shiftLeft_eq, Nat.shiftRight_eq_div_pow]
    _ = 2 ^ m * (a.toNat % 2 ^ (64 - m)) + a.toNat / 2 ^ (64 - m) := by rw [hlow, Nat.two_pow_add_eq_or_of_lt hhigh]
    _ = (a.toNat * 2 ^ m + a.toNat / 2 ^ (64 - m)) % 2 ^ 64 := by
        rw [Nat.add_mod, hlow, Nat.mod_eq_of_lt (hhigh.trans_le (Nat.pow_le_pow_right Nat.two_pos hm.le)), Nat.mod_eq_of_lt hsum]
    _ = (low64 (a.toNat * 2 ^ m + a.toNat / 2 ^ (64 - m))).toNat := by
        rw [← BitVec.toNat_ofNat, ← low64_natCast]
        push_cast
        rfl

/-! ## Bit fields (R253) -/

theorem low64_field (a : Word) (pos len : Nat) :
    low64 (a.toNat / 2 ^ pos % 2 ^ len) = BitVec.ofNat 64 (a.toNat / 2 ^ pos % 2 ^ len) := by
  rw [← low64_natCast]
  push_cast
  rfl

/-- The sign of a field is its highest bit. -/
theorem signField_eq {n f : Nat} (h : f < 2 ^ (n + 1)) : signField (n + 1) f = low64 (signedField (n + 1) f) := by
  have hpow : 2 ^ (n + 1) = 2 ^ n * 2 := Nat.pow_succ ..
  have hlt : f / 2 ^ n < 2 := Nat.div_lt_of_lt_mul (by omega)
  have htop : 2 ^ n ≤ f ↔ f / 2 ^ n % 2 = 1 := by
    rw [← Nat.one_le_div_iff (Nat.two_pow_pos n)]
    generalize f / 2 ^ n = q at hlt
    omega
  have hmod : (f : Int) % 2 ^ (n + 1) = f := by exact_mod_cast Nat.mod_eq_of_lt h
  simp only [signField, signedField, toSigned, Nat.add_sub_cancel, Nat.mod_eq_of_lt h, hmod, htop]
  rfl

theorem insertField_eq (d a : Word) (imm : Nat) : insertField d a imm =
    (d &&& ~~~ low64 ((2 ^ (imm / 64 % 128 + 1) - 1) * 2 ^ (imm % 64))) |||
      (low64 (a.toNat * 2 ^ (imm % 64)) &&& low64 ((2 ^ (imm / 64 % 128 + 1) - 1) * 2 ^ (imm % 64))) := by
  have hmask : low64 ((2 ^ fieldLen imm - 1) * 2 ^ fieldPos imm) =
      BitVec.ofNat 64 ((2 ^ fieldLen imm - 1) * 2 ^ fieldPos imm) := by
    rw [← low64_natCast]
    push_cast [Nat.one_le_two_pow]
    rfl
  have hval : low64 (a.toNat * 2 ^ fieldPos imm) = BitVec.ofNat 64 (a.toNat * 2 ^ fieldPos imm) := by
    rw [← low64_natCast]
    push_cast
    rfl
  unfold insertField
  rw [← hmask, ← hval]
  rfl

/-! ## Conditions (R258) -/

/-- The conjunction of two words is 0 when they have no 1 bit in common. -/
theorem decide_and_eq_zero (a b : Word) :
    decide (a &&& b = 0) = (List.range 64).all fun i => !(a.getLsbD i && b.getLsbD i) := by
  rw [Bool.eq_iff_iff, decide_eq_true_iff, List.all_eq_true]
  constructor
  · intro h i _
    rw [← BitVec.getLsbD_and, h, Bool.not_eq_true']
    exact BitVec.getLsbD_zero
  · intro h
    refine BitVec.eq_of_getLsbD_eq fun i hi => ?_
    have hbit := h i (List.mem_range.2 hi)
    rw [Bool.not_eq_true', ← BitVec.getLsbD_and] at hbit
    rw [hbit]
    exact BitVec.getLsbD_zero.symm

theorem compareWords_eq (c : Nat) (n : Bool) (a b : Word) : compareWords c n a b = conditionHolds c n a b := by
  match c with
  | 0 => simp only [compareWords, conditionHolds, BitVec.toNat_inj]
  | 1 => simp only [compareWords, conditionHolds, ne_eq, BitVec.toNat_inj]
  | 2 | 3 | 4 | 5 => cases n <;> rfl
  | 6 => exact decide_and_eq_zero a b
  | c + 7 =>
    simp only [compareWords, conditionHolds, ne_eq, decide_not, decide_and_eq_zero, List.not_all_eq_any_not, Bool.not_not]

end Sys2Proof.Machine

/-! # Results of one general register (O1, O2) -/

namespace Sys2Proof.Machine

open Sys2Proof

/-! ## Checks that pass -/

theorem unmarked_mono {h : Head} {x : Cur} {rs qs : List Nat} (hu : Unmarked h x rs) (hsub : qs ⊆ rs) : Unmarked h x qs :=
  hu.imp_right fun hu r hr => hu r (hsub hr)

/-- When no check fails, the effect follows. -/
theorem checked_eq {l : List (Option FaultInfo)} (h : ∀ o ∈ l, o = none) (v : Verdict) : checked l v = v := by
  have hnone : firstFault l = none := by
    induction l with
    | nil => rfl
    | cons o l ih =>
      rw [h o List.mem_cons_self]
      exact ih fun o ho => h o (List.mem_cons_of_mem _ ho)
  rw [checked, hnone]

/-- A first check that fails raises its fault. -/
theorem checked_raise {l m : List (Option FaultInfo)} (h : ∀ o ∈ l, o = none) {o : Option FaultInfo} {i : FaultInfo}
    (ho : o = some i) (v : Verdict) : checked (l ++ o :: m) v = .raise i := by
  have hfirst : firstFault (l ++ o :: m) = some i := by
    rw [ho]
    induction l with
    | nil => rfl
    | cons p l ih =>
      rw [h p List.mem_cons_self]
      exact ih fun p hp => h p (List.mem_cons_of_mem _ hp)
  rw [checked, hfirst]

/-- An instruction that reads and writes unmarked registers passes the checks of its operands (R415). -/
theorem checked_operands {h : Head} {s : State} {len : Nat} {x : Cur} (hc : s.cur? len = some x) {rs ws : List Nat}
    (hr : Unmarked h x rs) (hw : Unmarked h x ws) (v : Verdict) :
    checked [readMarked (curAtChecks h s x) rs, writeMarked (curAtChecks h s x) ws] v = v :=
  checked_eq (by simp [readMarked_none hc hr, writeMarked_none hc hw]) v

/-! ## What an issued instruction comes to, by its verdict -/

section

variable {s s' : State} {h : Head} {len : Nat} {x : Cur} {body : Cur → State → Verdict} (hi : Issues s h len x)
include hi

theorem issue_next (hb : body (curAtChecks h s x) (atChecks h s x) = .next s') :
    issue h len body s = .next (s'.transfer x.c x.n (x.pc + len)) := by
  have ⟨hc, _, _⟩ := hi
  obtain ⟨-, -, -, -, -, -, rfl, -⟩ := cur?_eq hc
  rw [issue_of_issues hi, hb]
  rfl

theorem issue_jump {a : Nat} (hb : body (curAtChecks h s x) (atChecks h s x) = .jump s' a) :
    issue h len body s = .next (s'.transfer x.c x.n a) := by
  rw [issue_of_issues hi, hb]
  rfl

theorem issue_leave (hb : body (curAtChecks h s x) (atChecks h s x) = .leave s') : issue h len body s = .next s' := by
  rw [issue_of_issues hi, hb]
  rfl

theorem issue_raise {i : FaultInfo} (hb : body (curAtChecks h s x) (atChecks h s x) = .raise i) :
    issue h len body s = .next ((atChecks h s x).takeFault x.c x.n i x.pc x.len x.insn) := by
  rw [issue_of_issues hi, hb]
  rfl

end

/-! ## Instructions that do what their page says -/

/-- The instruction, wherever it issues with its registers unmarked, writes the one register that its page says. -/
def Meets (i : Instr) (r : RegSpec) : Prop :=
  ∀ (s : State) (x : Cur), Issues s r.h r.len x → Unmarked r.h x (r.d :: r.reads) →
    ∃ t, exec i s = .next t ∧ WritesReg s t x (x.pc + r.len) r.d (r.value x.t) (r.guard x.t)

/-- An instruction whose checks pass and whose effect is the write of the register meets its page. -/
theorem meets_of_body {r : RegSpec} {i : Instr} {body : Cur → State → Verdict} (hexec : ∀ s, exec i s = issue r.h r.len body s)
    (hd : r.d < 16) (hbody : ∀ s x, s.cur? r.len = some x → Unmarked r.h x (r.d :: r.reads) →
      body (curAtChecks r.h s x) (atChecks r.h s x) =
        .next ((curAtChecks r.h s x).setReg (atChecks r.h s x) r.d (r.value x.t) (r.guard x.t))) : Meets i r := by
  intro s x hi hu
  have ⟨hc, _, _⟩ := hi
  exact ⟨_, (hexec s).trans (issue_next hi (hbody s x hc hu)), writesReg_of_setReg hc hd _ _ _⟩

theorem spec2_meets {i : Instr} {h : Head} {f : FmtA} {v w : Word → Word → Word}
    (hexec : ∀ s, exec i s = issue h 8 (fun x s => alu2 x s f (v (x.reg f.a) (x.reg f.b))) s) (hv : ∀ a b, v a b = w a b) :
    Meets i (spec2 h f w) := by
  refine meets_of_body hexec f.d.isLt fun s x hc hu => ?_
  refine (checked_operands hc (unmarked_mono hu ?_) (unmarked_mono hu ?_) _).trans ?_
  · exact List.subset_cons_self ..
  · simp [spec2]
  · rw [hv]
    rfl

theorem spec1_meets {i : Instr} {h : Head} {f : FmtA} {v w : Word → Word}
    (hexec : ∀ s, exec i s = issue h 8 (fun x s => alu1 x s f (v (x.reg f.a))) s) (hv : ∀ a, v a = w a) :
    Meets i (spec1 h f w) := by
  refine meets_of_body hexec f.d.isLt fun s x hc hu => ?_
  refine (checked_operands hc (unmarked_mono hu ?_) (unmarked_mono hu ?_) _).trans ?_
  · exact List.subset_cons_self ..
  · simp [spec1]
  · rw [hv]
    rfl

theorem specI_meets {i : Instr} {h : Head} {f : FmtI} {v : Word → Word} {w : Word → Int → Word}
    (hexec : ∀ s, exec i s = issue h 8 (fun x s => aluI x s f (v (x.reg f.a))) s) (hv : ∀ a, v a = w a f.imm.toInt) :
    Meets i (specI h f w) := by
  refine meets_of_body hexec f.d.isLt fun s x hc hu => ?_
  refine (checked_operands hc (unmarked_mono hu ?_) (unmarked_mono hu ?_) _).trans ?_
  · exact List.subset_cons_self ..
  · simp [specI]
  · rw [hv]
    rfl

section

variable {i : Instr} {r : RegSpec}

/-- The column x of R250. -/
theorem arithmetic_meets (hr : arithmeticSpec i = some r) : Meets i r := by
  cases i
  all_goals simp only [arithmeticSpec, Option.some.injEq, reduceCtorEq] at hr
  all_goals subst hr
  case add => exact spec2_meets (v := fun a b => a + b) (fun _ => rfl) fun a b => by simp
  case addi h f => exact specI_meets (v := fun a => a + f.value) (fun _ => rfl) fun a => by simp [FmtI.value, signExtend_eq_low64]
  case sub => exact spec2_meets (v := fun a b => a - b) (fun _ => rfl) fun a b => by simp
  case neg => exact spec1_meets (v := fun a => -a) (fun _ => rfl) fun a => by simp
  case mul => exact spec2_meets (v := fun a b => a * b) (fun _ => rfl) fun a b => by simp
  case muli h f => exact specI_meets (v := fun a => a * f.value) (fun _ => rfl) fun a => by simp [FmtI.value, signExtend_eq_low64]
  case mulh => exact spec2_meets (v := mulHigh _) (fun _ => rfl) (mulHigh_eq _)
  case min => exact spec2_meets (v := minMax _ true) (fun _ => rfl) (minMax_eq _ true)
  case max => exact spec2_meets (v := minMax _ false) (fun _ => rfl) (minMax_eq _ false)
  case abs => exact spec1_meets (v := fun a => if a.msb then -a else a) (fun _ => rfl) abs_eq_low64

/-- The logical operations and the counts of R250. -/
theorem logic_meets (hr : logicSpec i = some r) : Meets i r := by
  cases i
  all_goals simp only [logicSpec, Option.some.injEq, reduceCtorEq] at hr
  all_goals subst hr
  case and => exact spec2_meets (v := fun a b => a &&& b) (fun _ => rfl) fun _ _ => rfl
  case andi h f => exact specI_meets (v := fun a => a &&& f.value) (fun _ => rfl) fun _ => rfl
  case or => exact spec2_meets (v := fun a b => a ||| b) (fun _ => rfl) fun _ _ => rfl
  case ori h f => exact specI_meets (v := fun a => a ||| f.value) (fun _ => rfl) fun _ => rfl
  case xor => exact spec2_meets (v := fun a b => a ^^^ b) (fun _ => rfl) fun _ _ => rfl
  case xori h f => exact specI_meets (v := fun a => a ^^^ f.value) (fun _ => rfl) fun _ => rfl
  case andn => exact spec2_meets (v := fun a b => a &&& ~~~ b) (fun _ => rfl) fun _ _ => rfl
  case not => exact spec1_meets (v := fun a => ~~~ a) (fun _ => rfl) fun _ => rfl
  case clz =>
    exact spec1_meets (v := fun a => BitVec.ofNat 64 (leadingZeros a)) (fun _ => rfl) fun a => by
      rw [leadingZeros_eq, low64_natCast]
  case ctz =>
    exact spec1_meets (v := fun a => BitVec.ofNat 64 (trailingZeros a)) (fun _ => rfl) fun a => by
      rw [trailingZeros_eq, low64_natCast]
  case popc =>
    exact spec1_meets (v := fun a => BitVec.ofNat 64 (popCount a)) (fun _ => rfl) fun a => by
      rw [popCount_eq, low64_natCast]
  case brev => exact spec1_meets (v := fun a => a.reverse) (fun _ => rfl) reverse_eq_ofFnLE
  case bswp =>
    exact spec1_meets (v := fun a => BitVec.ofNat 64 (leNat (leBytes 8 a.toNat).reverse)) (fun _ => rfl) byteSwap_eq_ofFnLE

/-- The sum of two registers, or of a register and an offset, without an access (R255). -/
theorem lea_meets {h : Head} {f : FmtM} (hr : moveSpec (.lea h f) = some r) : Meets (.lea h f) r := by
  simp only [moveSpec] at hr
  split at hr
  next hx =>
    cases hr
    refine meets_of_body (fun s => show execLea h f s = _ from rfl) f.d.isLt fun s x hc hu => ?_
    have hread := readMarked_none hc (unmarked_mono hu (List.subset_cons_self ..))
    have hwrite := writeMarked_none hc (rs := [f.d.toNat]) (unmarked_mono hu (by simp))
    simp only [FmtM.addrRegs, hx, if_true]
    refine (checked_eq (by simp [hread, hwrite, failIf]) _).trans ?_
    rw [low64_add, low64_mul_two_pow, low64_toNat]
    rfl
  next hx =>
    obtain ⟨hsz, hr⟩ := Option.ite_none_right_eq_some.1 hr
    cases hr
    refine meets_of_body (fun s => show execLea h f s = _ from rfl) f.d.isLt fun s x hc hu => ?_
    have hread := readMarked_none hc (unmarked_mono hu (List.subset_cons_self ..))
    have hwrite := writeMarked_none hc (rs := [f.d.toNat]) (unmarked_mono hu (by simp))
    simp only [FmtM.addrRegs, hx, if_false]
    refine (checked_eq (by simp [hread, hwrite, failIf, hsz]) _).trans ?_
    rw [low64_add, low64_toNat]
    rfl

/-- Immediates, addresses, selection and the lane mask read (R254, R255, R257, R260). -/
theorem move_meets (hr : moveSpec i = some r) : Meets i r := by
  cases i
  case lea => exact lea_meets hr
  all_goals simp only [moveSpec, Option.some.injEq, Option.ite_none_right_eq_some, reduceCtorEq] at hr
  case li h f =>
    subst hr
    exact meets_of_body (fun s => show execLi h f s = _ from rfl) f.d.isLt fun s x hc hu =>
      checked_eq (by simp [writeMarked_none hc hu]) _
  case liw h f =>
    subst hr
    exact meets_of_body (fun s => show execLiw h f s = _ from rfl) f.d.isLt fun s x hc hu =>
      checked_eq (by simp [writeMarked_none hc hu]) _
  case sel h f =>
    subst hr
    refine meets_of_body (fun s => show execSel h f s = _ from rfl) f.d.isLt fun s x hc hu => ?_
    refine (checked_operands hc (unmarked_mono hu (List.subset_cons_self ..)) (unmarked_mono hu (by simp)) _).trans ?_
    by_cases hp : x.t.pred f.p.toNat = true
    all_goals
      simp only [curAtChecks, Cur.reg, Cur.guard, hp]
      rfl
  case lmr h f =>
    obtain ⟨ha, rfl⟩ := hr
    refine meets_of_body (fun s => show execLmr h f s = _ from rfl) f.d.isLt fun s x hc hu => ?_
    refine (checked_eq (by simp [writeMarked_none hc hu, failIf, ha]) _).trans ?_
    simp only [low64_natCast, BitVec.ofNat_toNat]
    rfl

/-- The shifts and rotates of R252. -/
theorem shift_meets (hr : shiftSpec i = some r) : Meets i r := by
  cases i
  all_goals simp only [shiftSpec, Option.some.injEq, reduceCtorEq] at hr
  all_goals subst hr
  case shl => exact spec2_meets (v := fun a b => shiftLeft a b.toNat) (fun _ => rfl) fun _ _ => shiftLeft_eq ..
  case shli h f => exact specI_meets (v := fun a => shiftLeft a (f.imm.toNat % 64)) (fun _ => rfl) fun _ => shiftLeft_eq ..
  case shr => exact spec2_meets (v := fun a b => shiftRight a b.toNat) (fun _ => rfl) fun _ _ => shiftRight_eq ..
  case shri h f => exact specI_meets (v := fun a => shiftRight a (f.imm.toNat % 64)) (fun _ => rfl) fun _ => shiftRight_eq ..
  case sar => exact spec2_meets (v := fun a b => shiftArith a b.toNat) (fun _ => rfl) fun _ _ => shiftArith_eq ..
  case sari h f => exact specI_meets (v := fun a => shiftArith a (f.imm.toNat % 64)) (fun _ => rfl) fun _ => shiftArith_eq ..
  case rol => exact spec2_meets (v := fun a b => rotate a b.toNat) (fun _ => rfl) fun _ _ => rotate_eq ..
  case roli h f => exact specI_meets (v := fun a => rotate a (f.imm.toNat % 64)) (fun _ => rfl) fun _ => rotate_eq ..

/-- The bit fields of R253. -/
theorem field_meets (hr : fieldSpec i = some r) : Meets i r := by
  cases i
  all_goals simp only [fieldSpec, Option.some.injEq, reduceCtorEq] at hr
  all_goals subst hr
  case bfx h f =>
    exact specI_meets (v := fun a => BitVec.ofNat 64 (fieldOf a f.imm.toNat)) (fun _ => rfl) fun _ => (low64_field ..).symm
  case bfxs h f =>
    exact specI_meets (v := fun a => signField (fieldLen f.imm.toNat) (fieldOf a f.imm.toNat)) (fun _ => rfl) fun _ =>
      signField_eq (Nat.mod_lt _ (Nat.two_pow_pos _))
  case bfi h f =>
    refine meets_of_body (fun s => show execBfi h f s = _ from rfl) f.d.isLt fun s x hc hu => ?_
    refine (checked_operands hc (unmarked_mono hu (by simp)) (unmarked_mono hu (by simp)) _).trans ?_
    rw [insertField_eq]
    rfl
  case sext h f =>
    exact specI_meets (v := fun a => signField (f.imm.toNat % 64 + 1) (a.toNat % 2 ^ (f.imm.toNat % 64 + 1))) (fun _ => rfl) fun _ =>
      signField_eq (Nat.mod_lt _ (Nat.two_pow_pos _))

end

/-- Settles O1: each instruction writes the value that its page gives. -/
theorem integerResults : Obligations.IntegerResults := by
  unfold Obligations.IntegerResults
  rintro i r s x (hr | hr | hr)
  · exact arithmetic_meets hr s x
  · exact logic_meets hr s x
  · exact move_meets hr s x

/-- Settles O2: each instruction writes the value that its page gives. -/
theorem shiftAndFieldResults : Obligations.ShiftAndFieldResults := by
  unfold Obligations.ShiftAndFieldResults
  rintro i r s x (hr | hr)
  · exact shift_meets hr s x
  · exact field_meets hr s x

end Sys2Proof.Machine

/-! # Results that are pending (O3) -/

namespace Sys2Proof.Machine

open Sys2Proof

/-- The core of a slot's turn is the core as it was, but for the slots, the marks and the count of the turn. -/
theorem onlySlot_eq {k l : Core} {n : Nat} (h : OnlySlot k l n) :
    ∃ sl p m, l = { k with slots := sl, portCount := p, rmark := m } := by
  obtain ⟨h, -, -⟩ := h
  exact ⟨l.slots, l.portCount, l.rmark, by rw [← h]⟩

/-- The checks of an instruction change no more of the machine than its cores. -/
theorem atChecks_eq (h : Head) (s : State) (x : Cur) : ∃ c, atChecks h s x = { s with cores := c } := by
  unfold atChecks
  split
  · exact ⟨_, rfl⟩
  · exact ⟨s.cores, rfl⟩

theorem foldl_setBit16_true (ds : List Nat) (v : BitVec 16) {r : Nat} (hds : ∀ d ∈ ds, d < 16) :
    (ds.foldl (fun v d => setBit16 v d true) v).getLsbD r = (v.getLsbD r || ds.contains r) := by
  induction ds generalizing v with
  | nil => simp
  | cons d ds ih =>
    rw [List.foldl_cons, ih _ fun e he => hds e (List.mem_cons_of_mem _ he), List.contains_cons]
    by_cases h : r = d
    · subst h
      rw [setBit16_same _ _ _ (hds r List.mem_cons_self), beq_self_eq_true]
      simp
    · rw [setBit16_other _ _ h, beq_eq_false_iff_ne.2 h, Bool.false_or]

/-- An effect that leaves registers of the executing slot pending and results to be written: the task goes on behind it (R82). -/
theorem transfer_leavesPending {s s' : State} {len : Nat} {x : Cur} (hc : s.cur? len = some x) (pc : Nat) {ds : List Nat}
    (hs : { s' with cores := s.cores, results := s.results, serial := s.serial } = s)
    (hother : ∀ d, d ≠ x.c → s'.core d = s.core d) (hcore : OnlySlot (s.core x.c) (s'.core x.c) x.n)
    (hslot : (s'.core x.c).slot x.n = { (s.core x.c).slot x.n with
      pend := ((s'.core x.c).slot x.n).pend, mark := ((s'.core x.c).slot x.n).mark })
    (hpend : ∀ r, ((s'.core x.c).slot x.n).pend.getLsbD r = (((s.core x.c).slot x.n).pend.getLsbD r || ds.contains r)) :
    LeavesPending s (s'.transfer x.c x.n pc) x pc ds ∧ (s'.transfer x.c x.n pc).accesses = s.accesses ∧
      (s'.transfer x.c x.n pc).results = s'.results := by
  have ht : x.t = ((s.core x.c).slot x.n).task := (cur?_eq hc).2.2.2.1
  have heq : s' = { s with cores := s'.cores, results := s'.results, serial := s'.serial } := by rw [← hs]
  obtain ⟨L, hL, hturn, st, dep, mk, hsl, -⟩ := transfer_eq s' x.c x.n pc
  have hat : (s'.transfer x.c x.n pc).core x.c = L := by rw [hL, core_setCore_same]
  have htask : ((s'.transfer x.c x.n pc).slot x.c x.n).task = { x.t with pc := BitVec.ofNat 64 pc } := by
    rw [State.slot, hat, hsl, hslot, ht]
  refine ⟨⟨⟨?_, ?_, ?_, ?_, ?_⟩, ?_, ?_, ?_, ?_⟩, by rw [hL, heq]; rfl, by rw [hL]; rfl⟩
  · rw [hL, heq]; rfl
  · rw [hL, heq]; exact fun _ => rfl
  · intro d hd
    rw [hL, core_setCore_other _ _ hd, hother d hd]
  · obtain ⟨sl, p, m, hl⟩ := onlySlot_eq (onlySlot_trans hcore hturn)
    rw [hat, hl]
  · rw [hat]
    exact (onlySlot_trans hcore hturn).2.1
  · rw [htask]; exact ⟨rfl, rfl, rfl, rfl⟩
  · rw [htask]; exact fun _ _ _ => ⟨rfl, rfl⟩
  · rw [htask]
  · intro r _
    rw [State.slot, hat, hsl]
    exact hpend r

/-- A value that is known but still to be written leaves its register pending, and is the machine's last result (R82, R251). -/
theorem pendValue_leavesPending {s : State} {h : Head} {len : Nat} {x : Cur} (hc : s.cur? len = some x) (pc : Nat) {d : Nat}
    (hd : d < 16) (v : Word) (g : Bool) :
    let t := ((atChecks h s x).pendValue (curAtChecks h s x) d v g).transfer x.c x.n pc
    ∃ q, LeavesPending s t x pc [d] ∧ t.accesses = s.accesses ∧ t.results = s.results ++ [q] ∧
      q.id = s.serial ∧ q.core = x.c ∧ q.slot = x.n ∧ q.dst = .regs d 1 8 false ∧ q.parts = [some (leBytes 8 v.toNat, g)] := by
  intro t
  obtain ⟨hcore, hslot, -, -⟩ := atChecks_core (h := h) hc
  obtain ⟨-, hother, -⟩ := atChecks_onlyCore h s x
  obtain ⟨cores, hs⟩ := atChecks_eq h s x
  have hpended : ((atChecks h s x).pendValue (curAtChecks h s x) d v g).core x.c =
      ((atChecks h s x).core x.c).setSlot x.n { ((atChecks h s x).core x.c).slot x.n with
        pend := [d].foldl (fun v r => setBit16 v r true) (((atChecks h s x).core x.c).slot x.n).pend
        mark := [d].foldl (fun v r => setBit16 v r true) (((atChecks h s x).core x.c).slot x.n).mark } := core_setCore_same ..
  have hgoes := transfer_leavesPending (s' := (atChecks h s x).pendValue (curAtChecks h s x) d v g) (ds := [d]) hc pc
    (by rw [hs]; rfl) (fun e he => (core_setCore_other _ _ he).trans (hother e he))
    (by rw [hpended]; exact onlySlot_trans hcore ⟨rfl, fun m hm => slot_setSlot_other _ _ hm, fun _ _ => Iff.rfl⟩)
    (by rw [hpended, slot_setSlot_same, hslot])
    (fun r => by
      rw [hpended, slot_setSlot_same, hslot]
      exact foldl_setBit16_true [d] _ (by simpa using hd))
  obtain ⟨hleaves, hacc, hres⟩ := hgoes
  exact ⟨_, hleaves, hacc, hres.trans (by rw [hs]; rfl), rfl, rfl, rfl, rfl, rfl⟩

/-- An instruction of class V that issues with its registers unmarked leaves its destination pending and its value to be
written. -/
theorem aluV_leavesPending {i : Instr} {h : Head} {f : FmtA} {v w : Word → Word → Word} {s : State} {x : Cur}
    (hexec : ∀ s, exec i s = issue h 8 (fun x s => aluV x s f (v (x.reg f.a) (x.reg f.b))) s) (hv : ∀ a b, v a b = w a b)
    (hi : Issues s h 8 x) (hu : Unmarked h x [f.d.toNat, f.a.toNat, f.b.toNat]) :
    ∃ t q, exec i s = .next t ∧ LeavesPending s t x (x.pc + 8) [f.d.toNat] ∧ t.accesses = s.accesses ∧
      t.results = s.results ++ [q] ∧ q.id = s.serial ∧ q.core = x.c ∧ q.slot = x.n ∧ q.dst = .regs f.d.toNat 1 8 false ∧
      q.parts = [some (leBytes 8 ((spec2 h f w).value x.t).toNat, (spec2 h f w).guard x.t)] := by
  have ⟨hc, _, _⟩ := hi
  obtain ⟨q, hq⟩ := pendValue_leavesPending (h := h) hc (x.pc + 8) f.d.isLt ((spec2 h f w).value x.t) ((spec2 h f w).guard x.t)
  refine ⟨_, q, (hexec s).trans (issue_next hi ?_), hq⟩
  refine (checked_operands hc (unmarked_mono hu (List.subset_cons_self ..)) (unmarked_mono hu (by simp)) _).trans ?_
  rw [hv]
  rfl

/-- Settles O3: the value that `divRem` gives is the quotient or remainder of R251. -/
theorem divisionResults : Obligations.DivisionResults := by
  unfold Obligations.DivisionResults
  intro i r s x hr hi hu
  cases i
  all_goals simp only [divideSpec, Option.some.injEq, reduceCtorEq] at hr
  all_goals subst hr
  case div h f =>
    exact aluV_leavesPending (v := fun a b => (divRem (f.fn.getLsbD 0) a b).1) (fun _ => rfl) (fun a b => by rw [divRem_eq]) hi hu
  case rem h f =>
    exact aluV_leavesPending (v := fun a b => (divRem (f.fn.getLsbD 0) a b).2) (fun _ => rfl) (fun a b => by rw [divRem_eq]) hi hu

end Sys2Proof.Machine

/-! # Register groups, predicates and lane masks (O4, O5) -/

namespace Sys2Proof.Machine

open Sys2Proof

/-- An instruction whose effect is on the executing task alone: the task goes on, as the effect has made it. -/
theorem setTask_goesOn {s : State} {h : Head} {len : Nat} {x : Cur} (hc : s.cur? len = some x) (u : Task) (pc : Nat) :
    GoesOn s (((atChecks h s x).setTask x.c x.n u).transfer x.c x.n pc) x pc ∧
      ((((atChecks h s x).setTask x.c x.n u).transfer x.c x.n pc).slot x.c x.n).task = { u with pc := BitVec.ofNat 64 pc } := by
  obtain ⟨hcore, hslot, -, -⟩ := atChecks_core (h := h) hc
  obtain ⟨hrest, hother, hmem⟩ := atChecks_onlyCore h s x
  obtain ⟨hgoes, htask⟩ := transfer_goesOn (s' := (atChecks h s x).setTask x.c x.n u) hc pc
    ⟨hrest, fun e he => (core_setTask_other _ _ _ he).trans (hother e he), hmem⟩
    (by rw [core_setTask_same]; exact onlySlot_trans hcore ⟨rfl, fun m hm => slot_setSlot_other _ _ hm, fun _ _ => Iff.rfl⟩)
    (by rw [core_setTask_same, slot_setSlot_same, hslot])
  rw [core_setTask_same, slot_setSlot_same] at htask
  exact ⟨hgoes, htask⟩

/-! ## MOV (R256) -/

theorem setRegs_concat (t : Task) (d : Nat) (ws : List (Word × Bool)) (w : Word × Bool) :
    t.setRegs d (ws ++ [w]) = (t.setRegs d ws).setReg (d + ws.length) w.1 w.2 := by
  induction ws generalizing t d with
  | nil => rfl
  | cons v ws ih =>
    rw [List.length_cons, Nat.add_comm ws.length 1, ← Nat.add_assoc]
    exact ih (t.setReg d v.1 v.2) (d + 1)

/-- What MOV copies is read from the task as it was. -/
theorem movGroup_eq_setRegs (t : Task) (d a n : Nat) :
    movGroup t d a n = t.setRegs d ((List.range n).map fun j => (t.reg (a + j), t.regGuard (a + j))) := by
  induction n with
  | zero => rfl
  | succ n ih =>
    rw [List.range_succ, List.map_append, List.map_singleton, setRegs_concat, ← ih, List.length_map, List.length_range]
    rfl

/-- An aligned group ends within the sixteen registers (R61). -/
theorem aligned_group_le {d : BitVec 4} {w : BitVec 2} (h : d.toNat % 2 ^ w.toNat = 0) : d.toNat + 2 ^ w.toNat ≤ 16 := by
  have hd := d.isLt
  have hw := w.isLt
  generalize d.toNat = d at *
  generalize w.toNat = w at *
  interval_cases w <;> omega

theorem misaligned_none {d w : Nat} (h : d % 2 ^ w = 0) : misaligned d w = none := by simp [misaligned, failIf, h]

theorem not_mem_groupRegs {d w r : Nat} (h : r ∉ groupRegs d w) : r < d ∨ d + 2 ^ w ≤ r := by
  by_contra hin
  exact h (List.mem_map.2 ⟨r - d, List.mem_range.2 (by omega), by omega⟩)

/-- Settles O4: the group is copied from the task as it was, into registers that stand below g16. -/
theorem moveGroup : Obligations.MoveGroup := by
  unfold Obligations.MoveGroup
  intro h f s x hi hw hd ha hu
  have ⟨hc, _, _⟩ := hi
  rw [← hw] at ha hu
  have hread : readMarked (curAtChecks h s x) (groupOf f.a.toNat f.dw.toNat) = none :=
    readMarked_none hc (unmarked_mono hu (List.subset_append_right ..))
  have hwrite : writeMarked (curAtChecks h s x) (groupOf f.d.toNat f.dw.toNat) = none :=
    writeMarked_none hc (unmarked_mono hu (List.subset_append_left ..))
  have hexec : execMov h f s = .next
      (((atChecks h s x).setTask x.c x.n (movGroup x.t f.d.toNat f.a.toNat (2 ^ f.dw.toNat))).transfer x.c x.n (x.pc + 8)) :=
    issue_next hi (checked_eq (by simp [← hw, misaligned_none hd, misaligned_none ha, hread, hwrite, failIf]) _)
  obtain ⟨hgoes, htask⟩ := setTask_goesOn (h := h) hc (movGroup x.t f.d.toNat f.a.toNat (2 ^ f.dw.toNat)) (x.pc + 8)
  rw [movGroup_eq_setRegs] at htask
  have hend := aligned_group_le hd
  refine ⟨_, hexec, hgoes, ?_, ?_, ?_⟩
  all_goals rw [movGroup_eq_setRegs, htask]
  · exact setRegs_sameStatus ..
  · intro r hr hout
    refine setRegs_other x.t (by simpa using hend) hr ?_
    simpa using not_mem_groupRegs hout
  · intro j hj
    have hat := setRegs_at x.t (d := f.d.toNat) (i := j)
      (ws := (List.range (2 ^ f.dw.toNat)).map fun j => (x.t.reg (f.a.toNat + j), x.t.regGuard (f.a.toNat + j)))
      (by simpa using hend) (by simpa using hj)
    rw [List.getElem_map, List.getElem_range] at hat
    exact hat

/-! ## Predicates (R108, R258, R259) -/

/-- A bit of a vector set to a value. -/
theorem getLsbD_setBit {w : Nat} (v : BitVec w) {n : Nat} (hn : n < w) (b : Bool) (m : Nat) :
    (if b then v ||| BitVec.twoPow w n else v &&& ~~~ BitVec.twoPow w n).getLsbD m = if m = n then b else v.getLsbD m := by
  by_cases hm : m < w
  · by_cases h : m = n
    · subst h; cases b <;> simp [hm]
    · cases b <;> simp [hm, h]
  · have hne : m ≠ n := by omega
    rw [if_neg hne, BitVec.getLsbD_of_ge _ _ (by omega), BitVec.getLsbD_of_ge _ _ (by omega)]

section

variable (t : Task) (n : Nat) (v g : Bool)

@[simp] theorem setPred_g : (t.setPred n v g).g = t.g := by unfold Task.setPred; split <;> rfl
@[simp] theorem setPred_gg : (t.setPred n v g).gg = t.gg := by unfold Task.setPred; split <;> rfl
@[simp] theorem setPred_lm : (t.setPred n v g).lm = t.lm := by unfold Task.setPred; split <;> rfl
@[simp] theorem setPred_tid : (t.setPred n v g).tid = t.tid := by unfold Task.setPred; split <;> rfl

end

/-- p7 reads 1 with a clear guard bit, whatever has been written (R108). -/

theorem pred_of_lt (t : Task) {n : Nat} (hn : n < 7) : t.pred n = t.p.getLsbD n := by
  rw [Task.pred, Nat.mod_eq_of_lt (by omega), if_neg (by omega)]

theorem predGuard_of_lt (t : Task) {n : Nat} (hn : n < 7) : t.predGuard n = t.tsr.getLsbD (8 + n) := by
  rw [Task.predGuard, Nat.mod_eq_of_lt (by omega), if_neg (by omega)]

section

variable (t : Task) {n : Nat} (hn : n < 7) (v g : Bool) (m : Nat)
include hn

theorem setPred_p : (t.setPred n v g).p.getLsbD m = if m = n then v else t.p.getLsbD m := by
  rw [Task.setPred, Nat.mod_eq_of_lt (by omega), if_neg (by omega)]
  exact getLsbD_setBit t.p (by omega) v m

theorem setPred_tsr : (t.setPred n v g).tsr.getLsbD m = if m = 8 + n then g else t.tsr.getLsbD m := by
  rw [Task.setPred, Nat.mod_eq_of_lt (by omega), if_neg (by omega)]
  exact getLsbD_setBit t.tsr (by omega) g m

theorem pred_setPred_same : (t.setPred n v g).pred n = v ∧ (t.setPred n v g).predGuard n = g := by
  rw [pred_of_lt _ hn, predGuard_of_lt _ hn, setPred_p t hn, setPred_tsr t hn]
  simp

theorem pred_setPred_other {q : Nat} (hq : q < 8) (h : q ≠ n) :
    (t.setPred n v g).pred q = t.pred q ∧ (t.setPred n v g).predGuard q = t.predGuard q := by
  by_cases h7 : q = 7
  · subst h7; exact ⟨rfl, rfl⟩
  · have hlt : q < 7 := by omega
    simp only [pred_of_lt _ hlt, predGuard_of_lt _ hlt, setPred_p t hn, setPred_tsr t hn, if_neg h, Nat.add_left_cancel_iff, and_self]

end

/-- A task whose one predicate is set goes on with that predicate and its guard bit changed. -/
theorem setPred_writesPred {s : State} {h : Head} {len : Nat} {x : Cur} (hc : s.cur? len = some x) (pc : Nat) {p : Nat} (hp : p < 8)
    (v g : Bool) : WritesPred s (((atChecks h s x).setTask x.c x.n (x.t.setPred p v g)).transfer x.c x.n pc) x pc p v g := by
  obtain ⟨hgoes, htask⟩ := setTask_goesOn (h := h) hc (x.t.setPred p v g) pc
  refine ⟨hgoes, ?_⟩
  simp only [htask]
  have hregs : OtherRegs x.t { x.t.setPred p v g with pc := BitVec.ofNat 64 pc } [] := fun r _ _ => by
    simp only [Task.reg, Task.regGuard, setPred_g, setPred_gg, and_self]
  by_cases h7 : p = 7
  · subst h7
    exact ⟨hregs, rfl, rfl, fun _ _ _ => ⟨rfl, rfl⟩, fun h => absurd rfl h, rfl, rfl, fun _ _ _ => rfl⟩
  · have hlt : p < 7 := by omega
    refine ⟨hregs, setPred_lm .., setPred_tid .., fun q hq hne => pred_setPred_other x.t hlt v g hq hne,
      fun _ => pred_setPred_same x.t hlt v g, rfl, rfl, fun b _ hb => ?_⟩
    rw [setPred_tsr x.t hlt, if_neg (hb.resolve_right h7)]

/-! ## Lane masks (R257) -/

section

variable (t : Task) {n : Nat} (hn : n < 8) (v : BitVec 16) (g : Bool)
include hn

theorem setMask_tsr (m : Nat) : (t.setMask n v g).tsr.getLsbD m = if m = 16 + n then g else t.tsr.getLsbD m := by
  rw [show (t.setMask n v g).tsr = setBit64 t.tsr (16 + n % 8) g from rfl, Nat.mod_eq_of_lt hn]
  exact getLsbD_setBit t.tsr (by omega) g m

theorem mask_setMask_same : (t.setMask n v g).mask n = v ∧ (t.setMask n v g).maskGuard n = g := by
  rw [Task.maskGuard, setMask_tsr t hn, Nat.mod_eq_of_lt hn]
  simp [Task.mask, Task.setMask]

theorem mask_setMask_other {q : Nat} (hq : q < 8) (h : q ≠ n) :
    (t.setMask n v g).mask q = t.mask q ∧ (t.setMask n v g).maskGuard q = t.maskGuard q := by
  rw [Task.maskGuard, setMask_tsr t hn, Nat.mod_eq_of_lt hq, if_neg (by omega), Task.maskGuard, Nat.mod_eq_of_lt hq]
  simp [Task.mask, Task.setMask, Nat.mod_eq_of_lt hn, Nat.mod_eq_of_lt hq, Ne.symm h]

end

/-- A task whose one lane mask is set goes on with that mask and its guard bit changed. -/
theorem setMask_writesMask {s : State} {h : Head} {len : Nat} {x : Cur} (hc : s.cur? len = some x) (pc : Nat) {m : Nat} (hm : m < 8)
    (v : BitVec 16) (g : Bool) :
    WritesMask s (((atChecks h s x).setTask x.c x.n (x.t.setMask m v g)).transfer x.c x.n pc) x pc m v g := by
  obtain ⟨hgoes, htask⟩ := setTask_goesOn (h := h) hc (x.t.setMask m v g) pc
  refine ⟨hgoes, ?_⟩
  simp only [htask]
  obtain ⟨hmask, hguard⟩ := mask_setMask_same x.t hm v g
  refine ⟨fun _ _ _ => ⟨rfl, rfl⟩, rfl, rfl, fun q hq hne => mask_setMask_other x.t hm v g hq hne,
    hmask, hguard, fun b _ hb => ?_⟩
  rw [setMask_tsr x.t hm, if_neg hb]

/-! ## The instructions that set a predicate or a mask -/

/-- A condition code that R258 defines is not reserved. -/
theorem compareReserved_eq_false {c : Nat} {n : Bool} (h : ¬(n = true ∧ (c ≤ 1 ∨ 6 ≤ c))) : compareReserved c n = false := by
  cases n
  · rfl
  · simp only [true_and, not_or] at h
    simp only [compareReserved, Bool.true_and, Bool.or_eq_false_iff, decide_eq_false_iff_not]
    exact h

/-- CMP, CMPI and PSET write the predicate that their page says (R258, R259). -/
theorem predSpec_writesPred {i : Instr} {r : PredSpec} {s : State} {x : Cur} (hr : predSpec i = some r) (hi : Issues s r.h 8 x)
    (hu : Unmarked r.h x r.reads) :
    ∃ t, exec i s = .next t ∧ WritesPred s t x (x.pc + 8) r.p (r.value x.t) (r.guard x.t) := by
  have ⟨hc, _, _⟩ := hi
  cases i
  all_goals simp only [predSpec, Option.ite_none_left_eq_some, Option.some.injEq, reduceCtorEq] at hr
  case cmp h f =>
    obtain ⟨hcode, rfl⟩ := hr
    refine ⟨_, (show execCmp h f s = _ from issue_next hi ((checked_eq ?_ _).trans ?_)),
      setPred_writesPred (h := h) hc _ f.p.isLt _ _⟩
    · rw [compareReserved_eq_false hcode]
      simp [readMarked_none hc hu, failIf]
    · rw [compareWords_eq]
      rfl
  case cmpi h f =>
    obtain ⟨hcode, rfl⟩ := hr
    refine ⟨_, (show execCmpi h f s = _ from issue_next hi ((checked_eq ?_ _).trans ?_)),
      setPred_writesPred (h := h) hc _ f.p.isLt _ _⟩
    · rw [compareReserved_eq_false hcode]
      simp [readMarked_none hc hu, failIf]
    · rw [compareWords_eq]
      rfl
  case pset h f =>
    subst hr
    exact ⟨_, (show execPset h f s = _ from issue_next hi rfl), setPred_writesPred (h := h) hc _ f.pd.isLt _ _⟩

/-- Settles O5: the condition of the model is that of R258, and a write of p7 is discarded. -/
theorem predicateAndMaskResults : Obligations.PredicateAndMaskResults := by
  unfold Obligations.PredicateAndMaskResults
  refine ⟨fun i r s x => predSpec_writesPred, fun h f s x hi hd hu => ?_⟩
  have ⟨hc, _, _⟩ := hi
  refine ⟨_, (show execLmw h f s = _ from issue_next hi ((checked_eq ?_ _).trans ?_)), setMask_writesMask (h := h) hc _ hd _ _⟩
  · simp [readMarked_none hc hu, failIf, hd]
  · rw [BitVec.ofNat_toNat]
    rfl

end Sys2Proof.Machine

/-! # Control transfer (O7) -/

namespace Sys2Proof.Machine

open Sys2Proof

/-! ## Transfers (R261 to R263) -/

/-- A valid target passes the checks of R261, from an offset or from a register. -/
theorem targetFault_none {cap : Capsule} {a : Nat} (ha : ValidTarget cap a) (wide : Bool) : targetFault cap wide a = none := by
  obtain ⟨halign, hlen, hwide, hbegins⟩ := ha
  rw [targetFault, if_neg (by omega), if_neg (by omega), if_neg (by omega), if_pos hbegins]

theorem branchFault_none {cap : Capsule} {a : Int} (ha : 0 ≤ a) (hv : ValidTarget cap a.toNat) : branchFault cap a = none := by
  rw [branchFault, if_neg (by omega), targetFault_none hv]

section

variable {s : State} {h : Head} {x : Cur} (hi : Issues s h 8 x)
include hi

theorem bra_keepsTask {f : FmtB} (h0 : 0 ≤ f.target x.pc) (hv : ValidTarget x.cap (f.target x.pc).toNat) :
    ∃ t, exec (.bra h f) s = .next t ∧ KeepsTask s t x (f.target x.pc).toNat := by
  have ⟨hc, _, _⟩ := hi
  have hchecks : ∀ o ∈ [branchFault x.cap (f.target x.pc)], o = none := by simp [branchFault_none h0 hv]
  exact ⟨_, show execBra h f s = _ from issue_jump hi (checked_eq hchecks _), atChecks_transfer_keepsTask hc _⟩

theorem brx_keepsTask {f : FmtA} (hv : ValidTarget x.cap (x.t.reg f.a.toNat).toNat) (hu : Unmarked h x [f.a.toNat]) :
    ∃ t, execBrx h f s = .next t ∧ KeepsTask s t x (x.t.reg f.a.toNat).toNat := by
  have ⟨hc, _, _⟩ := hi
  have hchecks : ∀ o ∈ [readMarked (curAtChecks h s x) [f.a.toNat],
      heldBy (x.guard f.a) (targetFault x.cap true (x.t.reg f.a.toNat).toNat)], o = none := by
    simp [readMarked_none hc hu, targetFault_none hv, heldBy]
  exact ⟨_, issue_jump hi (checked_eq hchecks _), atChecks_transfer_keepsTask hc _⟩

theorem call_writesReg {f : FmtB} (h0 : 0 ≤ f.target x.pc) (hv : ValidTarget x.cap (f.target x.pc).toNat)
    (hu : Unmarked h x [f.d.toNat]) :
    ∃ t, exec (.call h f) s = .next t ∧
      WritesReg s t x (f.target x.pc).toNat f.d.toNat (BitVec.ofNat 64 (x.pc + 8)) false := by
  have ⟨hc, _, _⟩ := hi
  have hchecks : ∀ o ∈ [writeMarked (curAtChecks h s x) [f.d.toNat], branchFault x.cap (f.target x.pc)], o = none := by
    simp [writeMarked_none hc hu, branchFault_none h0 hv]
  exact ⟨_, show execCall h f s = _ from issue_jump hi (checked_eq hchecks _), writesReg_of_setReg hc f.d.isLt _ _ _⟩

/-- The counter less 1; the branch is not taken where that is 0 (R263). -/
theorem loop_branches {f : FmtB} (hu : Unmarked h x [f.d.toNat]) (h1 : (x.t.reg f.d.toNat).toNat ≠ 1)
    (h0 : 0 ≤ f.target x.pc) (hv : ValidTarget x.cap (f.target x.pc).toNat) :
    ∃ t, exec (.loop h f) s = .next t ∧
      WritesReg s t x (f.target x.pc).toNat f.d.toNat (low64 ((x.t.reg f.d.toNat).toNat - 1)) (x.t.regGuard f.d.toNat) := by
  have ⟨hc, _, _⟩ := hi
  have hne : x.t.reg f.d.toNat - 1 ≠ 0 := by bv_omega
  have hchecks : ∀ o ∈ [readMarked (curAtChecks h s x) [f.d.toNat], writeMarked (curAtChecks h s x) [f.d.toNat],
      if x.t.reg f.d.toNat - 1 = 0 then none else branchFault x.cap (f.target x.pc)], o = none := by
    rw [if_neg hne]
    simp [readMarked_none hc hu, writeMarked_none hc hu, branchFault_none h0 hv]
  rw [low64_sub, low64_toNat]
  exact ⟨_, show execLoop h f s = _ from issue_jump hi ((checked_eq hchecks _).trans (if_neg hne)),
    writesReg_of_setReg hc f.d.isLt _ _ _⟩

theorem loop_falls_through {f : FmtB} (hu : Unmarked h x [f.d.toNat]) (h1 : (x.t.reg f.d.toNat).toNat = 1) :
    ∃ t, exec (.loop h f) s = .next t ∧ WritesReg s t x (x.pc + 8) f.d.toNat 0 (x.t.regGuard f.d.toNat) := by
  have ⟨hc, _, _⟩ := hi
  have heq : x.t.reg f.d.toNat - 1 = 0 := by bv_omega
  have hchecks : ∀ o ∈ [readMarked (curAtChecks h s x) [f.d.toNat], writeMarked (curAtChecks h s x) [f.d.toNat],
      if x.t.reg f.d.toNat - 1 = 0 then none else branchFault x.cap (f.target x.pc)], o = none := by
    rw [if_pos heq]
    simp [readMarked_none hc hu, writeMarked_none hc hu]
  rw [← heq]
  exact ⟨_, show execLoop h f s = _ from issue_next hi ((checked_eq hchecks _).trans (if_pos heq)),
    writesReg_of_setReg hc f.d.isLt _ _ _⟩

end

/-- Settles O7: each transfer by its own law. -/
theorem transfers : Obligations.Transfers := by
  unfold Obligations.Transfers
  intro h f e s x hi a valid
  exact ⟨fun ⟨h0, hv⟩ => ⟨bra_keepsTask hi h0 hv, call_writesReg hi h0 hv⟩,
    fun hv hu => ⟨brx_keepsTask hi hv hu, brx_keepsTask hi hv hu⟩,
    fun hu => ⟨fun h1 ⟨h0, hv⟩ => loop_branches hi hu h1 h0 hv, loop_falls_through hi hu⟩⟩

end Sys2Proof.Machine

/-! # The end of a task, and traps (O9) -/

namespace Sys2Proof.Machine

open Sys2Proof

/-! ## EXIT (R264) -/

/-- What the barriers of a core's groups do not touch: memory, accesses, results, and every slot. -/
def State.besideBarriers (s : State) : List Host.Cell × List Access × List Result × (Nat → Nat → Slot) :=
  (s.mem, s.accesses, s.results, s.slot)

theorem mapGroup_besideBarriers (s : State) (inst group : Nat) (f : Group → Group) :
    (s.mapGroup inst group f).besideBarriers = s.besideBarriers := by
  unfold State.mapGroup
  split <;> rfl

theorem combine_besideBarriers (s : State) (inst group role : Nat) :
    (s.combine inst group role).besideBarriers = s.besideBarriers := by
  unfold State.combine
  split
  · rfl
  split
  · rfl
  split
  · rfl
  split
  · split
    · exact mapGroup_besideBarriers ..
    · rfl
  · rfl

theorem afterArrival_besideBarriers (s : State) (inst group core : Nat) :
    (s.afterArrival inst group core).besideBarriers = s.besideBarriers := by
  unfold State.afterArrival
  split
  · rfl
  split
  · rfl
  split
  · split
    · exact mapGroup_besideBarriers ..
    · rfl
  · split
    · exact combine_besideBarriers ..
    · rfl

/-- A core's memberships stand beside its slots. -/
theorem setCore_besideBarriers (s : State) {c : Nat} {k : Core} (hk : k.slots = (s.core c).slots) :
    (s.setCore c k).besideBarriers = s.besideBarriers := by
  have hslot : (s.setCore c k).slot = s.slot := by
    funext d m
    by_cases hd : d = c
    · subst hd; simp only [State.slot, Core.slot, core_setCore_same, hk]
    · simp only [State.slot, core_setCore_other s k hd]
  simp only [State.besideBarriers, hslot, setCore_mem, setCore_accesses, setCore_results]

theorem abandon_besideBarriers (s : State) (c : Nat) : (s.abandon c).besideBarriers = s.besideBarriers := by
  unfold State.abandon
  split
  · rfl
  split
  · refine foldl_keeps State.besideBarriers (fun s m => ?_) _ s
    split
    · exact (afterArrival_besideBarriers ..).trans (setCore_besideBarriers s rfl)
    · rfl
  · rfl

/-- A freed slot is as at reset, and every other slot is as before. -/
theorem freeSlot_slot (s : State) (c n : Nat) :
    (s.freeSlot c n).slot c n = Slot.fresh ∧ ∀ m, m % 8 ≠ n % 8 → (s.freeSlot c n).slot c m = s.slot c m := by
  have hslot (m : Nat) : (s.freeSlot c n).slot c m = (((s.core c).clearMarks n).setSlot n Slot.fresh).slot m := by
    rw [State.freeSlot, State.slot, core_setCore_same]
    rfl
  refine ⟨(hslot n).trans (slot_setSlot_same ..), fun m hm => ?_⟩
  rw [hslot, slot_setSlot_other _ _ hm, clearMarks_slot_other _ hm]
  rfl

/-- EXIT frees its slot, whatever is outstanding, and touches no memory, access, result or other slot. -/
theorem exit_spec {s : State} {h : Head} {x : Cur} (hi : Issues s h 8 x) (f : FmtN) :
    ∃ t, exec (.exit h f) s = .next t ∧ t.slot x.c x.n = Slot.fresh ∧ SameMemory s t ∧ t.accesses = s.accesses ∧
      t.results = s.results ∧ ∀ m, m % 8 ≠ x.n % 8 → t.slot x.c m = s.slot x.c m := by
  have ⟨hc, _, _⟩ := hi
  obtain ⟨⟨-, hothers, -⟩, -⟩ := atChecks_core (h := h) hc
  obtain ⟨cores, hs⟩ := atChecks_eq h s x
  have hbeside := abandon_besideBarriers ((atChecks h s x).freeSlot x.c x.n) x.c
  simp only [State.besideBarriers, Prod.mk.injEq] at hbeside
  obtain ⟨hmem, hacc, hres, hslot⟩ := hbeside
  obtain ⟨hfresh, hkept⟩ := freeSlot_slot (atChecks h s x) x.c x.n
  refine ⟨_, show execExit h f s = _ from issue_leave hi rfl, (congrFun₂ hslot x.c x.n).trans hfresh,
    fun a => congrArg (readByte · a) (hmem.trans (by rw [hs]; rfl)), hacc.trans (by rw [hs]; rfl), hres.trans (by rw [hs]; rfl),
    fun m hm => (congrFun₂ hslot x.c m).trans ((hkept m hm).trans (hothers m hm))⟩

/-! ## Taking a fault (R399, R401, R411) -/

theorem slot_congr (s : State) (c : Nat) {m n : Nat} (h : m % 8 = n % 8) : s.slot c m = s.slot c n := by
  rw [State.slot, ← slot_mod, h, slot_mod]
  rfl

theorem slot_setSlot (s : State) (c n m : Nat) (sl : Slot) :
    (s.setSlot c n sl).slot c m = if m % 8 = n % 8 then sl else s.slot c m := by
  have hcore : (s.setSlot c n sl).core c = (s.core c).setSlot n sl := core_setCore_same ..
  split
  next h => rw [slot_congr _ c h, State.slot, hcore, slot_setSlot_same]
  next h =>
    rw [State.slot, hcore, slot_setSlot_other _ _ h]
    rfl

/-- What the sending of a core's faults does not touch: anything but packets and their numbers, the core's queue of faults, and of
the slots the record of a held task, whose information, pc and disposition stay. -/
structure OnlyFlushes (c : Nat) (s t : State) : Prop where
  rest : { t with cores := s.cores, packets := s.packets, serial := s.serial } = s
  others : ∀ d, d ≠ c → t.core d = s.core d
  core : { t.core c with slots := (s.core c).slots, faultQ := (s.core c).faultQ } = s.core c
  slot : ∀ m, { t.slot c m with hold := (s.slot c m).hold } = s.slot c m
  hold : ∀ m h, (s.slot c m).hold = some h → ∃ g, (t.slot c m).hold = some g ∧ g.record.info = h.record.info ∧
    g.record.pc = h.record.pc ∧ g.record.disp = h.record.disp ∧ g.len = h.len

namespace OnlyFlushes

theorem refl (c : Nat) (s : State) : OnlyFlushes c s s :=
  ⟨rfl, fun _ _ => rfl, rfl, fun _ => rfl, fun _ h hh => ⟨h, hh, rfl, rfl, rfl, rfl⟩⟩

theorem trans {c : Nat} {s t u : State} (h : OnlyFlushes c s t) (g : OnlyFlushes c t u) : OnlyFlushes c s u where
  rest := by rw [← h.rest, ← g.rest]
  others d hd := (g.others d hd).trans (h.others d hd)
  core := by rw [← h.core, ← g.core]
  slot m := by rw [← h.slot m, ← g.slot m]
  hold m i hi := by
    obtain ⟨j, hj, hinfo, hpc, hdisp, hlen⟩ := h.hold m i hi
    obtain ⟨k, hk, kinfo, kpc, kdisp, klen⟩ := g.hold m j hj
    exact ⟨k, hk, kinfo.trans hinfo, kpc.trans hpc, kdisp.trans hdisp, klen.trans hlen⟩

theorem setFaultQ (s : State) (c : Nat) (q : List FaultItem) : OnlyFlushes c s (s.setCore c { s.core c with faultQ := q }) := by
  have hslot (m : Nat) : (s.setCore c { s.core c with faultQ := q }).slot c m = s.slot c m := by
    rw [State.slot, core_setCore_same]
    rfl
  exact ⟨rfl, fun d hd => core_setCore_other s _ hd, by rw [core_setCore_same], fun m => by rw [hslot],
    fun m h hh => ⟨h, (hslot m).symm ▸ hh, rfl, rfl, rfl, rfl⟩⟩

theorem sendRecord (s : State) (cap : Capsule) (c : Nat) (r : FaultRec) (late : Bool) :
    OnlyFlushes c s (s.sendRecord cap c r late) :=
  ⟨rfl, fun _ _ => rfl, rfl, fun _ => rfl, fun _ h hh => ⟨h, hh, rfl, rfl, rfl, rfl⟩⟩

/-- A held task whose record changes in nothing that a fault says. -/
theorem setHold {s : State} {c n : Nat} {h g : Hold} (hh : (s.slot c n).hold = some h) (hinfo : g.record.info = h.record.info)
    (hpc : g.record.pc = h.record.pc) (hdisp : g.record.disp = h.record.disp) (hlen : g.len = h.len) :
    OnlyFlushes c s (s.setSlot c n { s.slot c n with hold := some g }) := by
  refine ⟨rfl, fun d hd => core_setCore_other s _ hd, by rw [State.setSlot, core_setCore_same]; rfl,
    fun m => ?_, fun m i hi => ?_⟩
  · rw [slot_setSlot]
    split
    next hm => rw [slot_congr s c hm]
    next => rfl
  · rw [slot_setSlot]
    split
    next hm =>
      rw [slot_congr s c hm, hh, Option.some.injEq] at hi
      subst hi
      exact ⟨g, rfl, hinfo, hpc, hdisp, hlen⟩
    next => exact ⟨i, hi, rfl, rfl, rfl, rfl⟩

/-- A fault packet that leaves with its frame: the record of the held task takes the frame and is sent. -/
theorem sendFrame {s : State} {c n : Nat} {h : Hold} (hh : (s.slot c n).hold = some h) (cap : Capsule) (late : Bool) :
    OnlyFlushes c s (s.sendFrame cap c n h late) :=
  have hheld := setHold (g := { h with record := { h.record with frame := some (s.slot c n).task }, sent := true })
    hh rfl rfl rfl rfl
  hheld.trans (sendRecord ..)

theorem flushFaults (cap : Capsule) (c : Nat) (q : List FaultItem) (s : State) :
    OnlyFlushes c s (State.flushFaults cap c q s) := by
  induction q generalizing s with
  | nil => exact setFaultQ s c []
  | cons i q ih =>
    cases i with
    | record r late => exact (sendRecord ..).trans (ih _)
    | held n late =>
      unfold State.flushFaults
      split
      · exact ih s
      next h hh =>
        split
        · exact ih s
        · split
          · exact setFaultQ ..
          · exact (sendFrame hh cap late).trans (ih _)

theorem sendHeld (s : State) (c : Nat) : OnlyFlushes c s (s.sendHeld c) := by
  unfold State.sendHeld
  split
  · split
    · exact refl c s
    · exact flushFaults ..
  · exact refl c s

end OnlyFlushes

/-- The core whose slot is held on a fault, before anything is sent. -/
def heldCore (k : Core) (n : Nat) (sl : Slot) (q : List FaultItem) : Core :=
  { (k.clearMarks n).setSlot n sl with portCount := 0, faultQ := q }

theorem heldCore_eq (k : Core) (n : Nat) (sl : Slot) (q : List FaultItem) :
    ∃ S R, heldCore k n sl q = { k with slots := S, portCount := 0, rmark := R, faultQ := q } :=
  ⟨_, _, rfl⟩

/-- TAKING A FAULT holds the task in its slot, and then sends what may be sent. -/
theorem takeFault_flushes (s : State) (c n : Nat) (i : FaultInfo) (pc len : Nat) (insn : List Byte) :
    ∃ sl q, OnlyFlushes c (s.setCore c (heldCore (s.core c) n sl q)) (s.takeFault c n i pc len insn) ∧ sl.state = .held ∧
      sl.task = { (s.slot c n).task with pc := BitVec.ofNat 64 pc } ∧
      ∃ g, sl.hold = some g ∧ g.record.info = i ∧ g.record.pc = pc ∧ g.record.disp = 0 ∧ g.len = len := by
  refine ⟨_, _, .sendHeld .., rfl, ?_, _, rfl, rfl, rfl, rfl, rfl⟩
  rw [clearMarks_slot_same]
  rfl

/-- A machine that is as `s` but for its cores, as far as a flush of its faults leaves it. -/
theorem eq_of_flush {s t : State} {cores : SMap Core}
    (h : { t with cores := cores, packets := s.packets, serial := s.serial } = { s with cores := cores }) :
    t = { s with cores := t.cores, packets := t.packets, serial := t.serial } :=
  congrArg (fun u : State => { u with cores := t.cores, packets := t.packets, serial := t.serial }) h

/-- Nothing of a held core but its slots, its marks, its count at the port and its queue of faults differs. -/
theorem core_of_heldCore {k k' l : Core} {n : Nat} {sl : Slot} {q : List FaultItem} (hk : OnlySlot k k' n)
    (hl : { l with slots := (heldCore k' n sl q).slots, faultQ := q } = heldCore k' n sl q) :
    { l with slots := k.slots, portCount := k.portCount, rmark := k.rmark, faultQ := k.faultQ } = k := by
  obtain ⟨S, P, R, rfl⟩ := onlySlot_eq hk
  obtain ⟨S', R', hheld⟩ := heldCore_eq { k with slots := S, portCount := P, rmark := R } n sl q
  rw [hheld] at hl
  exact congrArg (fun m : Core => { m with slots := k.slots, portCount := k.portCount, rmark := k.rmark, faultQ := k.faultQ }) hl

/-- A precise fault at the checks of an instruction (R399, R411). -/
theorem takeFault_faults {s : State} {h : Head} {len : Nat} {x : Cur} (hc : s.cur? len = some x) (i : FaultInfo) :
    Faults s ((atChecks h s x).takeFault x.c x.n i x.pc x.len x.insn) x i := by
  obtain ⟨hcore, hslot, -, -⟩ := atChecks_core (h := h) hc
  obtain ⟨-, hother, -⟩ := atChecks_onlyCore h s x
  obtain ⟨cores, hs⟩ := atChecks_eq h s x
  have ht : x.t = ((s.core x.c).slot x.n).task := (cur?_eq hc).2.2.2.1
  obtain ⟨sl, q, hflush, hstate, htask, g, hg, hinfo, hpc, hdisp, hlen⟩ :=
    takeFault_flushes (atChecks h s x) x.c x.n i x.pc x.len x.insn
  generalize (atChecks h s x).takeFault x.c x.n i x.pc x.len x.insn = t at hflush
  have hheld (m : Nat) : ((atChecks h s x).setCore x.c (heldCore ((atChecks h s x).core x.c) x.n sl q)).slot x.c m =
      if m % 8 = x.n % 8 then sl else s.slot x.c m := by
    rw [State.slot, core_setCore_same]
    split
    next hm =>
      rw [← slot_mod, hm, slot_mod]
      exact slot_setSlot_same ..
    next hm => exact (slot_setSlot_other _ _ hm).trans ((clearMarks_slot_other _ hm).trans (hcore.2.1 m hm))
  have heq : t = { s with cores := t.cores, packets := t.packets, serial := t.serial } := by
    have hrest := hflush.rest
    rw [hs] at hrest
    exact eq_of_flush hrest
  have hslot_t (m : Nat) := hflush.slot m
  simp only [hheld] at hslot_t
  have hown : { t.slot x.c x.n with hold := sl.hold } = sl := by simpa using hslot_t x.n
  have htask_t : (t.slot x.c x.n).task = { x.t with pc := BitVec.ofNat 64 x.pc } := by
    have hsame : (t.slot x.c x.n).task = sl.task := by rw [← hown]
    rw [hsame, htask, State.slot, hslot, ← ht]
  refine ⟨?_, ?_, ?_, ?_, ?_, ?_, ?_, ?_, ?_, ?_, ?_, ?_⟩
  · rw [heq]
  · have hcore_t := hflush.core
    rw [core_setCore_same] at hcore_t
    exact core_of_heldCore hcore hcore_t
  · intro m hm
    simpa [hm] using hslot_t m
  · exact (show (t.slot x.c x.n).state = sl.state by rw [← hown]).trans hstate
  · obtain ⟨f, hf, finfo, fpc, fdisp, flen⟩ := hflush.hold x.n g (by rw [hheld, if_pos rfl, hg])
    exact ⟨f, hf, finfo.trans hinfo, fpc.trans hpc, fdisp.trans hdisp, flen.trans hlen⟩
  · rw [htask_t]
  · rw [htask_t]; exact ⟨rfl, rfl, rfl, rfl⟩
  · rw [htask_t]; exact fun _ _ _ => ⟨rfl, rfl⟩
  · rw [heq]; exact fun _ => rfl
  · rw [heq]
  · rw [heq]
  · intro d hd
    rw [hflush.others d hd, core_setCore_other _ _ hd, hother d hd]

/-! ## TRAP and BKPT (R267, R418) -/

/-- Whether a task has results outstanding does not depend on its marks. -/
theorem outstanding_curAtChecks {s : State} {h : Head} {len : Nat} {x : Cur} (hc : s.cur? len = some x) :
    (curAtChecks h s x).k.outstanding x.n = x.k.outstanding x.n := by
  obtain ⟨hcore, hslot, -, -⟩ := atChecks_core (h := h) hc
  obtain ⟨hxc, -, hxk, -⟩ := cur?_eq hc
  obtain ⟨S, P, R, hk⟩ := onlySlot_eq hcore
  have hpend : ((curAtChecks h s x).k.slot x.n).pend = (x.k.slot x.n).pend := by
    have hown := congrArg Slot.pend hslot
    rw [hxk, ← hxc]
    exact hown
  have hrpend : (curAtChecks h s x).k.rpend = x.k.rpend := by
    have hown := congrArg Core.rpend hk
    rw [hxk, ← hxc]
    exact hown
  rw [Core.outstanding, hpend, hrpend, Core.outstanding]

section

variable {s : State} {h : Head} {x : Cur} (hi : Issues s h 8 x) (cls : Nat) (f : FmtN)
include hi

/-- A trap whose task has no result outstanding holds it with the code. -/
theorem trapBody_faults (ho : x.k.outstanding x.n = false) :
    ∃ t, issue h 8 (trapBody cls f) s = .next t ∧ Faults s t x ⟨cls, f.imm.toNat, 0, 0, false⟩ := by
  have ⟨hc, _, _⟩ := hi
  refine ⟨_, issue_raise hi ?_, takeFault_faults hc _⟩
  rw [trapBody, atSwitchPoint, show (curAtChecks h s x).n = x.n from rfl, outstanding_curAtChecks hc, ho]
  rfl

/-- A trap waits, parked before itself, for the results of its task. -/
theorem trapBody_parks (ho : x.k.outstanding x.n = true) :
    ∃ t, issue h 8 (trapBody cls f) s = .next t ∧ (t.slot x.c x.n).state = .parked ∧ (t.slot x.c x.n).task = x.t ∧
      SameMemory s t := by
  have ⟨hc, _, _⟩ := hi
  obtain ⟨-, hslot, -, -⟩ := atChecks_core (h := h) hc
  obtain ⟨cores, hs⟩ := atChecks_eq h s x
  have ht : x.t = ((s.core x.c).slot x.n).task := (cur?_eq hc).2.2.2.1
  refine ⟨(((atChecks h s x).setCore x.c ((curAtChecks h s x).k.clearMarks x.n)).endTurn x.c x.n .parked),
    issue_leave hi ?_, ?_, ?_, ?_⟩
  · rw [trapBody, atSwitchPoint, show (curAtChecks h s x).n = x.n from rfl, outstanding_curAtChecks hc, ho]
    rfl
  · rw [endTurn_slot]
  · have hown := congrArg Slot.task hslot
    rw [endTurn_slot, State.slot, core_setCore_same, clearMarks_slot_same, ht]
    exact hown
  · rw [hs]
    exact fun _ => rfl

end

/-- Settles O9: EXIT frees its slot and abandons barriers at most; a trap parks or takes its fault. -/
theorem exitAndTraps : Obligations.ExitAndTraps := by
  unfold Obligations.ExitAndTraps
  intro h f s x hi
  exact ⟨exit_spec hi f, fun ho => ⟨trapBody_faults hi 1 f ho, trapBody_faults hi 2 f ho⟩,
    fun ho => ⟨trapBody_parks hi 1 f ho, trapBody_parks hi 2 f ho⟩⟩

end Sys2Proof.Machine

/-! # Reading state registers (O10) -/

namespace Sys2Proof.Machine

open Sys2Proof

/-! ## What a state register reads at the checks of an instruction (R123) -/

/-- A task's TSR is read of its record and of the step of its entry of qm, which the checks of an instruction leave. -/
theorem tsr_curAtChecks {s : State} {h : Head} {len : Nat} {x : Cur} (hc : s.cur? len = some x) :
    (curAtChecks h s x).tsr = x.tsr := by
  obtain ⟨hcore, hslot, -, -⟩ := atChecks_core (h := h) hc
  obtain ⟨hxc, -, hxk, -⟩ := cur?_eq hc
  obtain ⟨S, P, R, hk⟩ := onlySlot_eq hcore
  have hmmat := congrArg Slot.mmat hslot
  have hqm := congrArg Core.qm hk
  rw [← hxc] at hxk
  have hmmat' : ((curAtChecks h s x).k.slot (curAtChecks h s x).n).mmat = (x.k.slot x.n).mmat := hxk ▸ hmmat
  have hqm' : (curAtChecks h s x).k.qm = x.k.qm := hxk ▸ hqm
  rw [Cur.tsr, hmmat', hqm']
  rfl

/-- The checks of an instruction leave every state register. -/
theorem readSr_atChecks {s : State} {h : Head} {len : Nat} {x : Cur} (hc : s.cur? len = some x) (n : Nat) :
    (atChecks h s x).readSr (curAtChecks h s x) n = s.readSr x n := by
  obtain ⟨hcore, -, -, -⟩ := atChecks_core (h := h) hc
  obtain ⟨hxc, -, hxk, -⟩ := cur?_eq hc
  obtain ⟨S, P, R, hk⟩ := onlySlot_eq hcore
  obtain ⟨cores, hs⟩ := atChecks_eq h s x
  have hcaps : (atChecks h s x).capsReg x.c x.cap = s.capsReg x.c x.cap := by
    rw [State.capsReg, hk, hs]
    rfl
  have hkey : (curAtChecks h s x).k = { x.k with slots := S, portCount := P, rmark := R } := by
    rw [hxk, ← hxc]
    exact hk
  unfold State.readSr
  rw [tsr_curAtChecks hc, hkey, show (curAtChecks h s x).c = x.c from rfl, show (curAtChecks h s x).cap = x.cap from rfl,
    hcaps, hs]
  rfl

/-! ## MFS (R124, R265) -/

/-- The words that MFS writes from register `d` on: one, or of a register of 128 bits the low half and the high half. -/
def srWords (n v : Nat) (g : Bool) : List (Word × Bool) :=
  (BitVec.ofNat 64 v, g) :: if srWide n then [(BitVec.ofNat 64 (v / 2 ^ 64), g)] else []

theorem setRegs_srWords (t : Task) (d n v : Nat) (g : Bool) :
    t.setRegs d (srWords n v g) =
      if srWide n then (t.setReg d (BitVec.ofNat 64 v) g).setReg (d + 1) (BitVec.ofNat 64 (v / 2 ^ 64)) g
      else t.setReg d (BitVec.ofNat 64 v) g := by
  unfold srWords
  split <;> rfl

theorem length_srWords (n v : Nat) (g : Bool) : (srWords n v g).length = 2 ^ (if srWide n then 1 else 0) := by
  unfold srWords
  split <;> rfl

/-- A free value that is drawn is counted, and touches nothing of how the task goes on. -/
theorem drawFor_transfer (s : State) (n c m pc : Nat) :
    { (s.drawFor n).transfer c m pc with freeCount := s.freeCount } = s.transfer c m pc := by
  unfold State.drawFor
  split
  · by_cases hd : ((s.core c).slot m).state = .ready ∧ s.departs c pc
    · have hdrawn : (({ s with freeCount := s.freeCount + 1 }.core c).slot m).state = .ready ∧
          { s with freeCount := s.freeCount + 1 }.departs c pc := hd
      simp only [State.transfer, if_pos hd, if_pos hdrawn]
      rfl
    · have hdrawn : ¬((({ s with freeCount := s.freeCount + 1 }.core c).slot m).state = .ready ∧
          { s with freeCount := s.freeCount + 1 }.departs c pc) := hd
      simp only [State.transfer, if_neg hd, if_neg hdrawn]
      rfl
  · obtain ⟨L, hL, -⟩ := transfer_eq s c m pc
    rw [hL]
    rfl

section

variable {s : State} {h : Head} {f : FmtS} {x : Cur} (hi : Issues s h 8 x)
  (hu : Unmarked h x (groupRegs f.d.toNat f.dw.toNat))
include hi hu

/-- A state register that is there is written to its register or its pair. -/
theorem mfs_writes {v : Nat} {g : Bool} (hread : s.readSr x f.sr.toNat = some (v, g))
    (hw : f.dw.toNat = if srWide f.sr.toNat then 1 else 0) (hd : f.d.toNat % 2 ^ f.dw.toNat = 0) :
    ∃ t, exec (.mfs h f) s = .next t ∧ GoesOn s { t with freeCount := s.freeCount } x (x.pc + 8) ∧
      (t.slot x.c x.n).task = { x.t.setRegs f.d.toNat (srWords f.sr.toNat v g) with pc := BitVec.ofNat 64 (x.pc + 8) } := by
  have ⟨hc, _, _⟩ := hi
  obtain ⟨cores, hs⟩ := atChecks_eq h s x
  have hfree : (atChecks h s x).freeCount = s.freeCount := by rw [hs]
  have hreadAt := (readSr_atChecks (h := h) hc f.sr.toNat).trans hread
  have hwrite : writeMarked (curAtChecks h s x) (groupOf f.d.toNat f.dw.toNat) = none := writeMarked_none hc hu
  obtain ⟨hgoes, htask⟩ := setTask_goesOn (h := h) hc (x.t.setRegs f.d.toNat (srWords f.sr.toNat v g)) (x.pc + 8)
  have hdraw := drawFor_transfer ((atChecks h s x).setTask x.c x.n (x.t.setRegs f.d.toNat (srWords f.sr.toNat v g)))
    f.sr.toNat x.c x.n (x.pc + 8)
  rw [← hdraw] at hgoes htask
  refine ⟨_, show execMfs h f s = _ from issue_next hi ((checked_eq ?_ _).trans ?_), ?_, htask⟩
  · simp [misaligned_none hd, ← hw, hwrite, failIf, hreadAt]
  · rw [setRegs_srWords, hreadAt]
    rfl
  · exact hfree ▸ hgoes

/-- A state register that is not there faults with 4/12 (R265). -/
theorem mfs_faults (hread : s.readSr x f.sr.toNat = none) (hw : f.dw = 0) (hn : srWide f.sr.toNat = false) :
    ∃ t, exec (.mfs h f) s = .next t ∧ Faults s t x ⟨4, 12, f.sr.toNat, 0, false⟩ := by
  have ⟨hc, _, _⟩ := hi
  have hreadAt := (readSr_atChecks (h := h) hc f.sr.toNat).trans hread
  have hwrite : writeMarked (curAtChecks h s x) (groupOf f.d.toNat 0) = none := writeMarked_none hc (by rwa [hw] at hu)
  have hnone : failIf ((atChecks h s x).readSr (curAtChecks h s x) f.sr.toNat).isNone 4 12 f.sr.toNat =
      some ⟨4, 12, f.sr.toNat, 0, false⟩ := by
    rw [hreadAt]
    rfl
  have hchecks : ∀ o ∈ [misaligned f.d.toNat f.dw.toNat,
      writeMarked (curAtChecks h s x) (groupOf f.d.toNat (if srWide f.sr.toNat then 1 else 0)),
      failIf (f.dw.toNat ≠ if srWide f.sr.toNat then 1 else 0) 4 6 f.dw.toNat], o = none := by
    simp [hw, hn, hwrite, misaligned, failIf, Nat.mod_one]
  exact ⟨_, show execMfs h f s = _ from issue_raise hi (checked_raise hchecks hnone _), takeFault_faults hc _⟩

end

/-- Settles O10: MFS reads what the machine shows at the checks, which is what it shows before them. -/
theorem stateRegisterRead : Obligations.StateRegisterRead := by
  unfold Obligations.StateRegisterRead
  intro h f s x hi hu
  refine ⟨fun v g hread hw hd => ?_, mfs_faults hi hu⟩
  obtain ⟨t, hexec, hgoes, htask⟩ := mfs_writes hi hu hread hw hd
  have hlen : (srWords f.sr.toNat v g).length = 2 ^ f.dw.toNat := by rw [length_srWords, hw]
  have hend : f.d.toNat + (srWords f.sr.toNat v g).length ≤ 16 := hlen ▸ aligned_group_le hd
  refine ⟨t, hexec, hgoes, ?_, ?_, ?_⟩
  all_goals rw [htask]
  · exact setRegs_sameStatus ..
  · intro r hr hout
    exact setRegs_other x.t hend hr (hlen ▸ not_mem_groupRegs hout)
  · obtain ⟨hreg, hguard⟩ := setRegs_at x.t (i := 0) hend (Nat.succ_pos _)
    refine ⟨hreg, hguard, fun hwide => ?_⟩
    have hwords : srWords f.sr.toNat v g = [(BitVec.ofNat 64 v, g), (BitVec.ofNat 64 (v / 2 ^ 64), g)] := by
      rw [srWords, if_pos hwide]
    rw [hwords] at hend ⊢
    exact setRegs_at x.t (i := 1) hend (Nat.lt_succ_self 1)

end Sys2Proof.Machine

/-! # Writing state registers (O11) -/

namespace Sys2Proof.Machine

open Sys2Proof

/-! ## MTS (R124 to R127, R134, R266) -/

/-- A rung of the table of R123. -/
theorem isSome_ite {α : Type} {p : Prop} [Decidable p] {a : α} {o : Option α} (h : ¬p → o.isSome) :
    (if p then some a else o).isSome := by
  split
  next => rfl
  next hp => exact h hp

/-- A register whose number R123 names, outside the privileged view, is there. -/
theorem readSr_isSome (s : State) (x : Cur) {n : Nat}
    (hn : n ≤ 9 ∨ (0x0C ≤ n ∧ n ≤ 0x0E) ∨ (0x10 ≤ n ∧ n ≤ 0x13) ∨ (0x20 ≤ n ∧ n ≤ 0x40)) :
    (s.readSr x n).isSome := by
  unfold State.readSr
  repeat refine isSome_ite fun _ => ?_
  omega

/-- The selectors of the privileged view are there in a system capsule. -/
theorem readSr_isSome_of_isSystem {s : State} {x : Cur} {n : Nat} (hsys : s.isSystem x.cap = true)
    (hn : n = 0x80 ∨ n = 0x82 ∨ n = 0x84) : (s.readSr x n).isSome := by
  unfold State.readSr
  repeat refine isSome_ite fun _ => ?_
  rw [if_pos hsys]
  repeat refine isSome_ite fun _ => ?_
  omega

theorem hdl_setMask (k : Core) (c : Nat) (m g : Bool) {q : Nat} (hq : q < 16) :
    (k.setMask c m g).hdl[q] = if q = c % 16 then { k.hdl[q] with mask := m, maskGuard := g } else k.hdl[q] := by
  rw [Core.setMask, Vector.getElem_set]
  by_cases h : q = c % 16
  · subst h
    rw [if_pos rfl, if_pos rfl, Core.handler]
  · rw [if_neg h, if_neg (Ne.symm h)]

/-- The handlers with the MASK bits of the first `m` classes set from the bits of a word. -/
def maskHandlers (hs : Vector Handler 16) (v : Word) (g : Bool) (m : Nat) : Vector Handler 16 :=
  (List.range m).foldl (fun hs c => hs.set (c % 16) { hs[c % 16] with mask := v.getLsbD c, maskGuard := g }) hs

theorem maskHandlers_succ (hs : Vector Handler 16) (v : Word) (g : Bool) (m : Nat) :
    maskHandlers hs v g (m + 1) = (maskHandlers hs v g m).set (m % 16)
      { (maskHandlers hs v g m)[m % 16] with mask := v.getLsbD m, maskGuard := g } := by
  rw [maskHandlers, List.range_succ, List.foldl_append]
  rfl

theorem getElem_maskHandlers (hs : Vector Handler 16) (v : Word) (g : Bool) {m q : Nat} (hm : m ≤ 16) (hq : q < 16) :
    (maskHandlers hs v g m)[q] = if q < m then { hs[q] with mask := v.getLsbD q, maskGuard := g } else hs[q] := by
  induction m with
  | zero => rfl
  | succ m ih =>
    have hmod : m % 16 = m := Nat.mod_eq_of_lt hm
    rw [maskHandlers_succ, Vector.getElem_set, ih (by omega)]
    by_cases h : q = m
    · subst h
      simp only [hmod, ih (Nat.le_of_lt hm), Nat.lt_irrefl, Nat.lt_succ_self, if_true, if_false]
    · rw [if_neg (by omega)]
      exact if_congr (by omega) rfl rfl

/-- A write of CLASSM sets the masks of its handlers, and nothing else. -/
theorem foldl_setMask (k : Core) (v : Word) (g : Bool) (m : Nat) :
    (List.range m).foldl (fun k c => k.setMask c (v.getLsbD c) g) k = { k with hdl := maskHandlers k.hdl v g m } := by
  induction m with
  | zero => rfl
  | succ m ih =>
    rw [List.range_succ, List.foldl_append, ih, maskHandlers_succ]
    rfl

/-- A core with other slots, another count at its port and other marks of register space. -/
def Core.withSlots (k : Core) (S : Vector Slot 8) (P : Nat) (R : SMap GranMark) : Core :=
  { k with slots := S, portCount := P, rmark := R }

/-- A write of a state register neither reads nor changes what `withSlots` replaces. -/
theorem writeSr_withSlots (k : Core) (n : Nat) (v : Word) (g : Bool) (S : Vector Slot 8) (P : Nat) (R : SMap GranMark) :
    (k.withSlots S P R).writeSr n v g = (k.writeSr n v g).withSlots S P R := by
  unfold Core.writeSr
  rw [foldl_setMask, foldl_setMask]
  simp only [apply_ite (Core.withSlots · S P R)]
  rfl

theorem writeSr_barto (k : Core) {n : Nat} (v : Word) (g : Bool) (hn : n = 0x07) :
    k.writeSr n v g = { k with barto := v.truncate 32, bartoGuard := g } := by
  rw [Core.writeSr, if_pos hn]

theorem writeSr_classm (k : Core) {n : Nat} (v : Word) (g : Bool) (hn : n = 0x08) :
    k.writeSr n v g = { k with hdl := maskHandlers k.hdl v g 16 } := by
  rw [Core.writeSr, if_neg (by omega), if_pos hn, foldl_setMask]

theorem writeSr_fmt (k : Core) {n : Nat} (v : Word) (g : Bool) (hn : 0x10 ≤ n ∧ n ≤ 0x13) :
    k.writeSr n v g = { k with
      fmt := k.fmt.set (n % 4) (fdKept (v.truncate 32)) (Nat.mod_lt _ (by decide))
      fmtGuard := setBit4 k.fmtGuard (n % 4) g } := by
  rw [Core.writeSr, if_neg (by omega), if_neg (by omega), if_pos hn]

theorem writeSr_handler (k : Core) {n : Nat} (v : Word) (g : Bool) (hn : 0x20 ≤ n ∧ n ≤ 0x2F) :
    k.writeSr n v g = k.setMask n (v.getLsbD 33) g := by
  rw [Core.writeSr, if_neg (by omega), if_neg (by omega), if_neg (by omega), if_pos hn]

theorem writeSr_cfgsel (k : Core) {n : Nat} (v : Word) (g : Bool) (hn : n = 0x80) :
    k.writeSr n v g = { k with cfgsel := v.truncate 32, selGuard := setBit3 k.selGuard 0 g } := by
  simp [Core.writeSr, hn]

theorem writeSr_frsel (k : Core) {n : Nat} (v : Word) (g : Bool) (hn : n = 0x82) :
    k.writeSr n v g = { k with frsel := v.truncate 32, selGuard := setBit3 k.selGuard 1 g } := by
  simp [Core.writeSr, hn]

theorem writeSr_baysel (k : Core) {n : Nat} (v : Word) (g : Bool) (hn : n = 0x84) :
    k.writeSr n v g = { k with baysel := v.truncate 32, selGuard := setBit3 k.selGuard 2 g } := by
  simp [Core.writeSr, hn]

/-- The reserved bits [8:0] of a format are not kept (R126). -/
theorem getLsbD_fdKept (v : BitVec 32) {b : Nat} (hb : b < 32) : (fdKept v).getLsbD b = (decide (9 ≤ b) && v.getLsbD b) := by
  have hmask : 0xFFFFFE00#32 = BitVec.allOnes 32 <<< 9 := by decide
  have hbit : (0xFFFFFE00#32).getLsbD b = decide (9 ≤ b) := by
    rw [hmask, BitVec.getLsbD_shiftLeft, BitVec.getLsbD_allOnes]
    by_cases h : b < 9
    · simp [h]
    · simp [h, hb, show b - 9 < 32 by omega]
      omega
  rw [fdKept, BitVec.getLsbD_and, hbit, Bool.and_comm]

/-- A write of a number that is not one of R124 to R127 or a selector changes nothing. -/
theorem writeSr_other (k : Core) {n : Nat} (v : Word) (g : Bool) (h7 : n ≠ 0x07) (h8 : n ≠ 0x08)
    (hfmt : ¬(0x10 ≤ n ∧ n ≤ 0x13)) (hhdl : ¬(0x20 ≤ n ∧ n ≤ 0x2F))
    (hsel : n ≠ 0x80 ∧ n ≠ 0x82 ∧ n ≠ 0x84) :
    k.writeSr n v g = k := by
  obtain ⟨h80, h82, h84⟩ := hsel
  rw [Core.writeSr, if_neg h7, if_neg h8, if_neg hfmt, if_neg hhdl, if_neg h80, if_neg h82, if_neg h84]

theorem writePriv_other (s : State) (k : Core) {n : Nat} (v : Word) (g : Bool) (hn : n ≠ 0x81 ∧ n ≠ 0x83 ∧ n ≠ 0x85) :
    s.writePriv k n v g = s := by
  obtain ⟨h81, h83, h85⟩ := hn
  rw [State.writePriv, if_neg h81, if_neg h83, if_neg h85]

/-- A task whose core takes another value beside its slots, its marks and its count at the port goes on, and nothing
else changes. -/
theorem withSlots_transfer {s : State} {h : Head} {len : Nat} {x : Cur} (hc : s.cur? len = some x) {S : Vector Slot 8} {P : Nat}
    {R : SMap GranMark} (hat : (atChecks h s x).core x.c = (s.core x.c).withSlots S P R) {k : Core}
    (hown : k.withSlots (s.core x.c).slots (s.core x.c).portCount (s.core x.c).rmark = k) {back : Core → Core}
    (hback : back k = s.core x.c) (pc : Nat) :
    let t := ((atChecks h s x).setCore x.c (k.withSlots S P R)).transfer x.c x.n pc
    TaskKept s t x pc ∧ OnlyCoreBut s t x back ∧
      (t.core x.c).withSlots (s.core x.c).slots (s.core x.c).portCount (s.core x.c).rmark = k := by
  obtain ⟨⟨-, hslots, -⟩, hslot, -, -⟩ := atChecks_core (h := h) hc
  obtain ⟨hrest, hother, hmem⟩ := atChecks_onlyCore h s x
  have ht : x.t = ((s.core x.c).slot x.n).task := (cur?_eq hc).2.2.2.1
  rw [hat] at hslots hslot
  obtain ⟨L, hL, ⟨hLrest, hLother, -⟩, st, dep, mk, hLslot, -⟩ :=
    transfer_eq ((atChecks h s x).setCore x.c (k.withSlots S P R)) x.c x.n pc
  rw [core_setCore_same] at hLrest hLother hLslot
  have hLk : L.withSlots (s.core x.c).slots (s.core x.c).portCount (s.core x.c).rmark = k :=
    (congrArg (Core.withSlots · (s.core x.c).slots (s.core x.c).portCount (s.core x.c).rmark) hLrest).trans hown
  have htask : L.slot x.n = { (s.core x.c).slot x.n with
      state := st, depart := dep, mark := mk, task := { x.t with pc := BitVec.ofNat 64 pc } } := by
    rw [hLslot, show (k.withSlots S P R).slot x.n = ((s.core x.c).withSlots S P R).slot x.n from rfl, hslot, ht]
  rw [hL]
  refine ⟨?_, ⟨⟨hrest, fun d hd => ?_, hmem⟩, fun m hm => ?_, ?_⟩, ?_⟩
  · rw [TaskKept, State.slot, core_setCore_same, htask]
    exact ⟨⟨rfl, rfl, rfl, rfl⟩, fun _ _ _ => ⟨rfl, rfl⟩, rfl, rfl⟩
  · rw [core_setCore_other _ _ hd, core_setCore_other _ _ hd, hother d hd]
  · rw [State.slot, core_setCore_same]
    exact (hLother m hm).trans (hslots m hm)
  · rw [core_setCore_same]
    exact (congrArg back hLk).trans hback
  · rw [core_setCore_same]
    exact hLk

section

variable {s : State} {h : Head} {f : FmtS} {x : Cur} (hi : Issues s h 8 x) (hu : Unmarked h x [f.d.toNat])
include hi hu

/-- MTS to a register that is there, and is not a data register of the privileged view, writes the core and goes on. -/
theorem mts_next (hread : (s.readSr x f.sr.toNat).isSome)
    (hn : f.sr.toNat ≠ 0x81 ∧ f.sr.toNat ≠ 0x83 ∧ f.sr.toNat ≠ 0x85) :
    exec (.mts h f) s = .next (((atChecks h s x).setCore x.c (((atChecks h s x).core x.c).writeSr f.sr.toNat
      (x.t.reg f.d.toNat) (x.t.regGuard f.d.toNat))).transfer x.c x.n (x.pc + 8)) := by
  have ⟨hc, _, _⟩ := hi
  have hsome : ((atChecks h s x).readSr (curAtChecks h s x) f.sr.toNat).isNone = false := by
    rw [readSr_atChecks hc, Option.isNone_eq_false_iff]
    exact hread
  refine show execMts h f s = _ from issue_next hi ((checked_eq ?_ _).trans ?_)
  · simp [readMarked_none hc hu, hsome, failIf]
  · rw [writePriv_other _ _ _ _ hn]
    rfl

/-- A state register that is not there faults with 4/12 (R266). -/
theorem mts_faults (hread : s.readSr x f.sr.toNat = none) :
    ∃ t, exec (.mts h f) s = .next t ∧ Faults s t x ⟨4, 12, f.sr.toNat, 0, false⟩ := by
  have ⟨hc, _, _⟩ := hi
  have hnone : failIf ((atChecks h s x).readSr (curAtChecks h s x) f.sr.toNat).isNone 4 12 f.sr.toNat =
      some ⟨4, 12, f.sr.toNat, 0, false⟩ := by
    rw [readSr_atChecks hc, hread]
    rfl
  have hchecks : ∀ o ∈ [readMarked (curAtChecks h s x) [f.d.toNat]], o = none := by simp [readMarked_none hc hu]
  exact ⟨_, show execMts h f s = _ from issue_raise hi (checked_raise hchecks hnone _), takeFault_faults hc _⟩

/-- A register that MTS does not write is left, and the task goes on. -/
theorem mts_keepsTask (hread : (s.readSr x f.sr.toNat).isSome)
    (hn : f.sr.toNat ≠ 0x81 ∧ f.sr.toNat ≠ 0x83 ∧ f.sr.toNat ≠ 0x85)
    (hw : ∀ k : Core, k.writeSr f.sr.toNat (x.t.reg f.d.toNat) (x.t.regGuard f.d.toNat) = k) :
    ∃ t, exec (.mts h f) s = .next t ∧ KeepsTask s t x (x.pc + 8) := by
  have ⟨hc, _, _⟩ := hi
  have hexec := mts_next hi hu hread hn
  rw [hw] at hexec
  obtain ⟨hcore, hslot, -, -⟩ := atChecks_core (h := h) hc
  obtain ⟨hrest, hother, hmem⟩ := atChecks_onlyCore h s x
  have ht : x.t = ((s.core x.c).slot x.n).task := (cur?_eq hc).2.2.2.1
  have htask : (((atChecks h s x).core x.c).slot x.n).task = x.t := by rw [hslot, ht]
  obtain ⟨hgoes, hafter⟩ := transfer_goesOn (s' := (atChecks h s x).setCore x.c ((atChecks h s x).core x.c)) hc (x.pc + 8)
    ⟨hrest, fun d hd => (core_setCore_other _ _ hd).trans (hother d hd), hmem⟩
    (by rw [core_setCore_same]; exact hcore) (by rw [core_setCore_same, htask, ht]; exact hslot)
  rw [core_setCore_same, htask] at hafter
  refine ⟨_, hexec, hgoes, ?_, ?_⟩
  all_goals rw [hafter]
  · exact ⟨rfl, rfl, rfl, rfl⟩
  · exact fun _ _ _ => ⟨rfl, rfl⟩

/-- MTS WRITES the core of the task as `writeSr` says and touches nothing else; `back` undoes what it wrote. -/
theorem mts_writes (back : Core → Core) (hread : (s.readSr x f.sr.toNat).isSome)
    (hn : f.sr.toNat ≠ 0x81 ∧ f.sr.toNat ≠ 0x83 ∧ f.sr.toNat ≠ 0x85) {k : Core}
    (hk : (s.core x.c).writeSr f.sr.toNat (x.t.reg f.d.toNat) (x.t.regGuard f.d.toNat) = k) (hback : back k = s.core x.c) :
    ∃ t, (exec (.mts h f) s = .next t ∧ TaskKept s t x (x.pc + 8) ∧ OnlyCoreBut s t x back) ∧
      (t.core x.c).withSlots (s.core x.c).slots (s.core x.c).portCount (s.core x.c).rmark = k := by
  have ⟨hc, _, _⟩ := hi
  obtain ⟨S, P, R, hat⟩ := onlySlot_eq (atChecks_core (h := h) hc).1
  have hwrite : ((atChecks h s x).core x.c).writeSr f.sr.toNat (x.t.reg f.d.toNat) (x.t.regGuard f.d.toNat) =
      k.withSlots S P R := by
    rw [hat, ← hk]
    exact writeSr_withSlots ..
  have hown : k.withSlots (s.core x.c).slots (s.core x.c).portCount (s.core x.c).rmark = k := by
    rw [← hk]
    exact (writeSr_withSlots (s.core x.c) ..).symm
  have hexec := mts_next hi hu hread hn
  rw [hwrite] at hexec
  obtain ⟨hkept, honly, hcore⟩ := withSlots_transfer hc hat hown hback (x.pc + 8)
  exact ⟨_, ⟨hexec, hkept, honly⟩, hcore⟩

theorem mts_barto (hn : f.sr.toNat = 0x07) :
    ∃ t, (exec (.mts h f) s = .next t ∧ TaskKept s t x (x.pc + 8) ∧
        OnlyCoreBut s t x fun l => { l with barto := (s.core x.c).barto, bartoGuard := (s.core x.c).bartoGuard }) ∧
      (t.core x.c).barto.toNat = (x.t.reg f.d.toNat).toNat % 2 ^ 32 ∧ (t.core x.c).bartoGuard = x.t.regGuard f.d.toNat := by
  obtain ⟨t, hwrites, hk⟩ := mts_writes hi hu
    (fun l => { l with barto := (s.core x.c).barto, bartoGuard := (s.core x.c).bartoGuard })
    (readSr_isSome s x (by omega)) (by omega) (writeSr_barto _ _ _ hn) rfl
  have hbarto : (t.core x.c).barto = (x.t.reg f.d.toNat).truncate 32 := congrArg Core.barto hk
  exact ⟨t, hwrites, by rw [hbarto, BitVec.truncate_eq_setWidth, BitVec.toNat_setWidth], congrArg Core.bartoGuard hk⟩

/-- CLASSM takes a MASK bit to each of the sixteen handlers (R125). -/
theorem mts_classm (hn : f.sr.toNat = 0x08) :
    ∃ t, (exec (.mts h f) s = .next t ∧ TaskKept s t x (x.pc + 8) ∧
        OnlyCoreBut s t x fun l => { l with hdl := (s.core x.c).hdl }) ∧
      ∀ q (_ : q < 16), (t.core x.c).hdl[q] =
        { (s.core x.c).hdl[q] with mask := (x.t.reg f.d.toNat).getLsbD q, maskGuard := x.t.regGuard f.d.toNat } := by
  obtain ⟨t, hwrites, hk⟩ := mts_writes hi hu (fun l => { l with hdl := (s.core x.c).hdl })
    (readSr_isSome s x (by omega)) (by omega) (writeSr_classm _ _ _ hn) rfl
  have hhdl := congrArg Core.hdl hk
  simp only [Core.withSlots] at hhdl
  refine ⟨t, hwrites, fun q hq => ?_⟩
  simp only [hhdl, getElem_maskHandlers _ _ _ (Nat.le_refl 16) hq, if_pos hq]

/-- FMTn takes its bits above the reserved ones, and its guard bit (R126). -/
theorem mts_fmt (hn : 0x10 ≤ f.sr.toNat ∧ f.sr.toNat ≤ 0x13) :
    ∃ t, (exec (.mts h f) s = .next t ∧ TaskKept s t x (x.pc + 8) ∧
        OnlyCoreBut s t x fun l => { l with fmt := (s.core x.c).fmt, fmtGuard := (s.core x.c).fmtGuard }) ∧
      ∀ q (_ : q < 4), if q = f.sr.toNat % 4
        then (∀ b, b < 32 → ((t.core x.c).fmt[q]).getLsbD b = (decide (9 ≤ b) && (x.t.reg f.d.toNat).getLsbD b)) ∧
          (t.core x.c).fmtGuard.getLsbD q = x.t.regGuard f.d.toNat
        else (t.core x.c).fmt[q] = (s.core x.c).fmt[q] ∧
          (t.core x.c).fmtGuard.getLsbD q = (s.core x.c).fmtGuard.getLsbD q := by
  obtain ⟨t, hwrites, hk⟩ := mts_writes hi hu (fun l => { l with fmt := (s.core x.c).fmt, fmtGuard := (s.core x.c).fmtGuard })
    (readSr_isSome s x (by omega)) (by omega) (writeSr_fmt _ _ _ hn) rfl
  have hfmt := congrArg Core.fmt hk
  have hguard := congrArg Core.fmtGuard hk
  simp only [Core.withSlots] at hfmt hguard
  have hlt : f.sr.toNat % 4 < 4 := Nat.mod_lt _ (by decide)
  refine ⟨t, hwrites, fun q hq => ?_⟩
  simp only [hfmt, hguard, setBit4, getLsbD_setBit _ hlt, Vector.getElem_set]
  split
  next h =>
    refine ⟨fun b hb => ?_, rfl⟩
    rw [if_pos h.symm, getLsbD_fdKept _ hb]
    simp [hb]
  next h => exact ⟨if_neg (Ne.symm h), rfl⟩

/-- HDLn takes the MASK bit of its class (R125). -/
theorem mts_handler (hn : 0x20 ≤ f.sr.toNat ∧ f.sr.toNat ≤ 0x2F) :
    ∃ t, (exec (.mts h f) s = .next t ∧ TaskKept s t x (x.pc + 8) ∧
        OnlyCoreBut s t x fun l => { l with hdl := (s.core x.c).hdl }) ∧
      ∀ q (_ : q < 16), (t.core x.c).hdl[q] = if q = f.sr.toNat % 16
        then { (s.core x.c).hdl[q] with mask := (x.t.reg f.d.toNat).getLsbD 33, maskGuard := x.t.regGuard f.d.toNat }
        else (s.core x.c).hdl[q] := by
  obtain ⟨t, hwrites, hk⟩ := mts_writes hi hu (fun l => { l with hdl := (s.core x.c).hdl })
    (readSr_isSome s x (by omega)) (by omega) (writeSr_handler _ _ _ hn) rfl
  have hhdl := congrArg Core.hdl hk
  simp only [Core.withSlots] at hhdl
  refine ⟨t, hwrites, fun q hq => ?_⟩
  simp only [hhdl, hdl_setMask _ _ _ _ hq]

/-- A selector of the privileged view takes the low word and its guard bit in a system capsule (R134). -/
theorem mts_selector (hsys : s.isSystem x.cap = true) (hn : f.sr.toNat = 0x80 ∨ f.sr.toNat = 0x82 ∨ f.sr.toNat = 0x84)
    (sel : Core → BitVec 32) (hbeside : ∀ k S P R, sel (Core.withSlots k S P R) = sel k) (back : Core → Core) {i : Nat}
    (hi3 : i < 3) {k : Core}
    (hk : (s.core x.c).writeSr f.sr.toNat (x.t.reg f.d.toNat) (x.t.regGuard f.d.toNat) = k)
    (hback : back k = s.core x.c) (hsel : sel k = (x.t.reg f.d.toNat).truncate 32)
    (hguard : k.selGuard = setBit3 (s.core x.c).selGuard i (x.t.regGuard f.d.toNat)) :
    ∃ t, (exec (.mts h f) s = .next t ∧ TaskKept s t x (x.pc + 8) ∧ OnlyCoreBut s t x back) ∧
      (sel (t.core x.c)).toNat = (x.t.reg f.d.toNat).toNat % 2 ^ 32 ∧
      (t.core x.c).selGuard.getLsbD i = x.t.regGuard f.d.toNat := by
  obtain ⟨t, hwrites, ht⟩ := mts_writes hi hu back (readSr_isSome_of_isSystem hsys hn) (by omega) hk hback
  have hsel_t : sel (t.core x.c) = (x.t.reg f.d.toNat).truncate 32 := by
    rw [← hbeside, ht, hsel]
  have hguard_t : (t.core x.c).selGuard = setBit3 (s.core x.c).selGuard i (x.t.regGuard f.d.toNat) :=
    (congrArg Core.selGuard ht).trans hguard
  refine ⟨t, hwrites, by rw [hsel_t, BitVec.truncate_eq_setWidth, BitVec.toNat_setWidth], ?_⟩
  rw [hguard_t, setBit3, getLsbD_setBit _ hi3, if_pos rfl]

end

/-- Settles O11: each register of R123 by what `writeSr` makes of the core. -/
theorem stateRegisterWrite : Obligations.StateRegisterWrite := by
  unfold Obligations.StateRegisterWrite
  intro h f s x hi hu
  refine ⟨mts_barto hi hu, mts_classm hi hu, mts_fmt hi hu, mts_handler hi hu,
    fun hsys => ⟨fun hn => ?_, fun hn => ?_, fun hn => ?_⟩, fun hn => ?_, mts_faults hi hu⟩
  · exact mts_selector hi hu hsys (.inl hn) Core.cfgsel (fun _ _ _ _ => rfl) _ (by decide)
      (writeSr_cfgsel _ _ _ hn) rfl rfl rfl
  · exact mts_selector hi hu hsys (.inr (.inl hn)) Core.frsel (fun _ _ _ _ => rfl) _ (by decide)
      (writeSr_frsel _ _ _ hn) rfl rfl rfl
  · exact mts_selector hi hu hsys (.inr (.inr hn)) Core.baysel (fun _ _ _ _ => rfl) _ (by decide)
      (writeSr_baysel _ _ _ hn) rfl rfl rfl
  · exact mts_keepsTask hi hu (readSr_isSome s x (by omega)) (by omega) fun k =>
      writeSr_other k _ _ (by omega) (by omega) (by omega) (by omega) (by omega)

end Sys2Proof.Machine

/-! # What a FENCE waits for (O15) -/

namespace Sys2Proof.Machine

open Sys2Proof

/-! ## Lists of ranges, and what a mask of kinds and ranges take in (R170, R171) -/

/-- A list of defined tensors passes its check. -/
theorem listFault_none {k : Core} {l : BitVec 39} (h : ListDefined k l) : listFault k l = none := by
  rw [listFault, List.findSome?_eq_none_iff]
  intro item hitem
  obtain ⟨i, hi, rfl⟩ := List.mem_map.1 hitem
  refine if_neg fun ⟨htensor, hundefined⟩ => ?_
  rw [h i (List.mem_range.1 hi) htensor] at hundefined
  cases hundefined

/-- The ranges of a list come from the trackers and the tensors of the core. -/
theorem core_listRanges_withSlots (k : Core) (S : Vector Slot 8) (P : Nat) (R : SMap GranMark) (n v : Nat) :
    (k.withSlots S P R).listRanges n v = k.listRanges n v := by
  induction n generalizing v with
  | zero => rfl
  | succ n ih =>
    rw [Core.listRanges, Core.listRanges, ih]
    rfl

theorem mem_coveredAccesses {s : State} {c n : Nat} {mask : Kind → Bool} {l : Option (List (Nat × Nat))} :
    n ∈ s.coveredAccesses c mask l ↔ ∃ b ∈ s.accesses, b.id = n ∧ s.ofCore c b = true ∧ b.isLsu = true ∧ b.op.isPref = false ∧
      mask b.kind = true ∧ inRanges l b.runs = true := by
  simp only [State.coveredAccesses, List.mem_map, List.mem_filter, Bool.and_eq_true, Bool.not_eq_true', and_assoc]
  exact exists_congr fun b => and_congr_right fun _ => by tauto

theorem mem_coveredEntries {s : State} {c n : Nat} {mask : Kind → Bool} {l : Option (List (Nat × Nat))} :
    n ∈ s.coveredEntries c mask l ↔
      (∃ e ∈ (s.core c).copies, e.id = n ∧
        ((mask .cr = true ∧ inRanges l e.crRuns = true) ∨ (mask .cw = true ∧ inRanges l e.boxRuns = true))) ∨
      ∃ e ∈ (s.core c).qm, e.id = n ∧ ((mask .mr = true ∧ e.mrRuns ≠ [] ∧ inRanges l e.mrRuns = true) ∨
        (mask .mw = true ∧ e.mwRuns ≠ [] ∧ inRanges l e.mwRuns = true)) := by
  simp only [State.coveredEntries, List.mem_append, List.mem_map, List.mem_filter, Bool.and_eq_true, Bool.or_eq_true,
    Bool.not_eq_true', List.isEmpty_eq_false_iff, and_assoc]
  exact or_congr (exists_congr fun _ => and_congr_right fun _ => and_comm) (exists_congr fun _ => and_congr_right fun _ => and_comm)

/-! ## What stands at the checks of an instruction -/

theorem atChecks_serial (h : Head) (s : State) (x : Cur) : (atChecks h s x).serial = s.serial := by
  obtain ⟨_, hs⟩ := atChecks_eq h s x
  rw [hs]

theorem atChecks_fences (h : Head) (s : State) (x : Cur) : (atChecks h s x).fences = s.fences := by
  obtain ⟨_, hs⟩ := atChecks_eq h s x
  rw [hs]

theorem atChecks_accesses (h : Head) (s : State) (x : Cur) : (atChecks h s x).accesses = s.accesses := by
  obtain ⟨_, hs⟩ := atChecks_eq h s x
  rw [hs]

section

variable {s : State} {h : Head} {len : Nat} {x : Cur} (hc : s.cur? len = some x)
include hc

theorem cur?_core : x.k = s.core x.c := by
  obtain ⟨hactor, -, hk, -⟩ := cur?_eq hc
  rw [hk, hactor]

theorem atChecks_withSlots : ∃ S P R, (atChecks h s x).core x.c = (s.core x.c).withSlots S P R :=
  onlySlot_eq (atChecks_core (h := h) hc).1

theorem tensors_curAtChecks : (curAtChecks h s x).k.tensors = x.k.tensors := by
  obtain ⟨S, P, R, hat⟩ := atChecks_withSlots (h := h) hc
  rw [curAtChecks, hat, cur?_core hc]
  rfl

theorem listRanges_curAtChecks (l : BitVec 39) : listRanges (curAtChecks h s x).k l = listRanges x.k l := by
  obtain ⟨S, P, R, hat⟩ := atChecks_withSlots (h := h) hc
  simp only [listRanges, curAtChecks, hat, core_listRanges_withSlots, cur?_core hc]

theorem listFault_curAtChecks {l : BitVec 39} (hl : ListDefined x.k l) : listFault (curAtChecks h s x).k l = none :=
  listFault_none fun i hi htensor => by rw [tensors_curAtChecks hc]; exact hl i hi htensor

theorem coveredAccesses_atChecks (mask : Kind → Bool) (l : Option (List (Nat × Nat))) :
    (atChecks h s x).coveredAccesses x.c mask l = s.coveredAccesses x.c mask l := by
  obtain ⟨S, P, R, hat⟩ := atChecks_withSlots (h := h) hc
  simp only [State.coveredAccesses, State.ofCore, hat, atChecks_accesses]
  rfl

theorem coveredEntries_atChecks (mask : Kind → Bool) (l : Option (List (Nat × Nat))) :
    (atChecks h s x).coveredEntries x.c mask l = s.coveredEntries x.c mask l := by
  obtain ⟨S, P, R, hat⟩ := atChecks_withSlots (h := h) hc
  simp only [State.coveredEntries, hat]
  rfl

end

/-! ## A task that goes on beside new fences and numbers -/

/-- How a task goes on neither reads nor changes the fences and the next number. -/
theorem transfer_fences (s : State) (fs : List Fence) (m c n pc : Nat) :
    ({ s with fences := fs, serial := m } : State).transfer c n pc = { s.transfer c n pc with fences := fs, serial := m } := by
  by_cases hd : ((s.core c).slot n).state = .ready ∧ s.departs c pc
  · simp only [State.transfer, if_pos hd]
    exact if_pos hd
  · simp only [State.transfer, if_neg hd]
    exact if_neg hd

theorem onlyCore_fences {s t : State} {c : Nat} (h : OnlyCore s t c) :
    ({ t with fences := s.fences, serial := s.serial } : State) = t := by
  obtain ⟨h, -, -⟩ := h
  rw [← h]

/-- A task that goes on with nothing changed beside its slot. -/
theorem keepsTask_taskKept {s t : State} {x : Cur} {pc : Nat} (h : KeepsTask s t x pc) :
    TaskKept s t x pc ∧ OnlyCoreBut s t x id := by
  obtain ⟨⟨hcore, ⟨hrest, hslots, -⟩, hpc, hpend, -⟩, hstatus, hregs⟩ := h
  exact ⟨⟨hstatus, hregs, hpc, hpend⟩, hcore, hslots, hrest⟩

/-! ## FENCE (R175, R284) -/

/-- The fence that a FENCE opens. -/
def Cur.fenceOf (x : Cur) (s : State) (f : FmtF) : Fence :=
  { id := s.serial, inst := x.cap.inst, core := x.c, slot := x.n, slotSerial := (x.k.slot x.n).serial, isLda := false,
    scope := f.sc.toNat, succ := f.sm, ranges := none,
    waits := s.coveredAccesses x.c (fun kind => f.pm.getLsbD kind.bit) (listRanges x.k f.list),
    entries := s.coveredEntries x.c (fun kind => f.pm.getLsbD kind.bit) (listRanges x.k f.list) }

theorem fenceOf_atChecks {s : State} {h : Head} {len : Nat} {x : Cur} (hc : s.cur? len = some x) (f : FmtF) :
    (curAtChecks h s x).fenceOf (atChecks h s x) f = x.fenceOf s f := by
  obtain ⟨-, hslot, -, -⟩ := atChecks_core (h := h) hc
  have hslotSerial : ((curAtChecks h s x).k.slot (curAtChecks h s x).n).serial = (x.k.slot x.n).serial := by
    rw [cur?_core hc]
    exact (congrArg Slot.serial hslot :)
  rw [Cur.fenceOf, atChecks_serial, hslotSerial, listRanges_curAtChecks hc, show (curAtChecks h s x).c = x.c from rfl,
    coveredAccesses_atChecks hc, coveredEntries_atChecks hc]
  rfl

/-- FENCE opens its fence, and the task goes on. -/
theorem fence_next {s : State} {h : Head} {f : FmtF} {x : Cur} (hi : Issues s h 12 x) (hl : ListDefined x.k f.list) :
    exec (.fence h f) s = .next { (atChecks h s x).transfer x.c x.n (x.pc + 12) with
      fences := s.fences ++ [x.fenceOf s f], serial := s.serial + 1 } := by
  have ⟨hc, _, _⟩ := hi
  rw [← fenceOf_atChecks (h := h) hc, ← atChecks_fences h s x, ← atChecks_serial h s x, ← transfer_fences]
  exact show execFence h f s = _ from issue_next hi (checked_eq (List.forall_mem_singleton.2 (listFault_curAtChecks hc hl)) _)

/-- Settles O15: the numbers that the fence waits for are those of the covered accesses and entries. -/
theorem fenceIssue : Obligations.FenceIssue := by
  unfold Obligations.FenceIssue
  intro h f s x hi hl l p
  have ⟨hc, _, _⟩ := hi
  obtain ⟨hkept, honly⟩ := keepsTask_taskKept (atChecks_transfer_keepsTask (h := h) hc (x.pc + 12))
  refine ⟨_, _, fence_next hi hl, hkept, ?_, rfl, rfl, rfl, rfl, rfl, rfl, fun n => ?_, fun n => ?_⟩
  · rw [onlyCore_fences honly.1]
    exact honly
  · exact mem_coveredAccesses (mask := fun kind => f.pm.getLsbD kind.bit)
  · rw [cur?_core hc]
    exact mem_coveredEntries (mask := fun kind => f.pm.getLsbD kind.bit)

end Sys2Proof.Machine

/-! # Trackers and joining entries (O16) -/

namespace Sys2Proof.Machine

open Sys2Proof

/-- An instruction whose effect is on its core beside slots, marks and the count at the port, and on the next number: the task goes on
and nothing else changes. -/
theorem coreWrite_spec {i : Instr} {s : State} {h : Head} {x : Cur} {body : Cur → State → Verdict} (hi : Issues s h 8 x)
    (hexec : exec i s = issue h 8 body s) {g back : Core → Core} {m : Nat}
    (hg : ∀ k S P R, g (Core.withSlots k S P R) = (g k).withSlots S P R) (hback : back (g (s.core x.c)) = s.core x.c)
    (hbody : body (curAtChecks h s x) (atChecks h s x) =
      .next { (atChecks h s x).setCore x.c (g ((atChecks h s x).core x.c)) with serial := m }) :
    ∃ t, exec i s = .next t ∧ TaskKept s t x (x.pc + 8) ∧ OnlyCoreBut s { t with serial := s.serial } x back ∧ t.serial = m ∧
      (t.core x.c).withSlots (s.core x.c).slots (s.core x.c).portCount (s.core x.c).rmark = g (s.core x.c) := by
  have ⟨hc, _, _⟩ := hi
  obtain ⟨S, P, R, hat⟩ := atChecks_withSlots (h := h) hc
  obtain ⟨hkept, honly, hcore⟩ := withSlots_transfer hc hat (hg (s.core x.c) ..).symm hback (x.pc + 8)
  rw [← hg, ← hat] at hkept honly hcore
  have hnext := transfer_fences ((atChecks h s x).setCore x.c (g ((atChecks h s x).core x.c))) (atChecks h s x).fences m
    x.c x.n (x.pc + 8)
  refine ⟨_, (hexec.trans (issue_next hi hbody)).trans (congrArg Host.Outcome.next hnext), hkept, ?_, rfl, hcore⟩
  rw [atChecks_fences]
  exact (onlyCore_fences honly.1).symm ▸ honly

/-! ## TRACK, TRACKT and UNTRACK (R171, R285) -/

theorem tracker_setTracker_same (k : Core) (n : Nat) (v : Tracker) : (k.setTracker n v).tracker n = v := by
  simp [Core.tracker, Core.setTracker]

theorem tracker_setTracker_other (k : Core) {n m : Nat} (v : Tracker) (hn : n < 16) (hm : m < 16) (h : m ≠ n) :
    (k.setTracker n v).tracker m = k.tracker m := by
  have hne : n % 16 ≠ m % 16 := by omega
  simp [Core.tracker, Core.setTracker, hne]

/-- Of the machine only one tracker of the core differs, and the executing slot, whose task goes on. -/
def OtherTrackers (s t : State) (x : Cur) (n : Nat) : Prop :=
  TaskKept s t x (x.pc + 8) ∧ OnlyCoreBut s t x (fun l => { l with trackers := (s.core x.c).trackers }) ∧
    ∀ m, m < 16 → m ≠ n → (t.core x.c).tracker m = x.k.tracker m

/-- An instruction whose effect is the write of a tracker writes that one alone. -/
theorem setTracker_spec {i : Instr} {s : State} {h : Head} {x : Cur} {body : Cur → State → Verdict} (hi : Issues s h 8 x)
    (hexec : exec i s = issue h 8 body s) (n : BitVec 4) (v : Tracker)
    (hbody : body (curAtChecks h s x) (atChecks h s x) =
      .next ((atChecks h s x).setCore x.c (((atChecks h s x).core x.c).setTracker n.toNat v))) :
    ∃ t, exec i s = .next t ∧ OtherTrackers s t x n.toNat ∧ (t.core x.c).tracker n.toNat = v := by
  have ⟨hc, _, _⟩ := hi
  obtain ⟨t, ht, hkept, honly, hserial, hcore⟩ := coreWrite_spec hi hexec (g := fun k => k.setTracker n.toNat v)
    (back := fun l => { l with trackers := (s.core x.c).trackers }) (m := (atChecks h s x).serial) (fun _ _ _ _ => rfl) rfl hbody
  rw [← atChecks_serial h s x, ← hserial] at honly
  have htracker (m : Nat) : (t.core x.c).tracker m = ((s.core x.c).setTracker n.toNat v).tracker m :=
    (congrArg (Core.tracker · m) hcore :)
  refine ⟨t, ht, ⟨hkept, honly, fun m hm hne => ?_⟩, ?_⟩
  · rw [htracker, cur?_core hc]
    exact tracker_setTracker_other _ v n.isLt hm hne
  · rw [htracker]
    exact tracker_setTracker_same ..

section

variable {s : State} {h : Head} {f : FmtA} {x : Cur} (hi : Issues s h 8 x)
include hi

theorem track_spec (hu : Unmarked h x [f.a.toNat, f.b.toNat]) :
    ∃ t, exec (.track h f) s = .next t ∧ OtherTrackers s t x f.d.toNat ∧ (t.core x.c).tracker f.d.toNat =
      ⟨true, false, 0, (x.t.reg f.a.toNat).toNat % 2 ^ 48, (x.t.reg f.b.toNat).toNat % 2 ^ 48⟩ := by
  have ⟨hc, _, _⟩ := hi
  refine setTracker_spec (i := .track h f) hi (show execTrack h f s = _ from rfl) f.d _ ((checked_eq ?_ _).trans ?_)
  · exact List.forall_mem_singleton.2 (readMarked_none hc hu)
  · simp only [bits, pow_zero, Nat.div_one]
    rfl

theorem trackt_spec (hdefined : tDefined (SMap.get 0 x.k.tensors f.fn.toNat) = true) :
    ∃ t, exec (.trackt h f) s = .next t ∧ OtherTrackers s t x f.d.toNat ∧ (t.core x.c).tracker f.d.toNat =
      ⟨true, true, f.fn.toNat, (footprint (SMap.get 0 x.k.tensors f.fn.toNat)).1,
        (footprint (SMap.get 0 x.k.tensors f.fn.toNat)).2⟩ := by
  have ⟨hc, _, _⟩ := hi
  refine setTracker_spec (i := .trackt h f) hi (show execTrackt h f s = _ from rfl) f.d _ ((checked_eq ?_ _).trans ?_)
  · rw [tensors_curAtChecks hc, hdefined]
    exact List.forall_mem_singleton.2 rfl
  · rw [tensors_curAtChecks hc]
    rfl

theorem untrack_spec :
    ∃ t, exec (.untrack h f) s = .next t ∧ OtherTrackers s t x f.d.toNat ∧
      (t.core x.c).tracker f.d.toNat = ⟨false, false, 0, 0, 0⟩ :=
  setTracker_spec (i := .untrack h f) hi (show execUntrack h f s = _ from rfl) f.d _ rfl

end

/-! ## QFENCE (R174, R286) -/

/-- A core with one more joining entry in its queues. -/
def Core.addJoin (k : Core) (e : Nat × BitVec 4) : Core := { k with joins := k.joins ++ [e] }

theorem qfence_spec {s : State} {h : Head} {f : FmtN} {x : Cur} (hi : Issues s h 8 x)
    (hnamed : 2 ≤ ((List.range 4).filter fun i => f.imm.getLsbD i).length) :
    ∃ t, exec (.qfence h f) s = .next t ∧ TaskKept s t x (x.pc + 8) ∧
      OnlyCoreBut s { t with serial := s.serial } x (fun l => { l with joins := (s.core x.c).joins }) ∧
      (t.core x.c).joins = x.k.joins ++ [(s.serial, f.imm.extractLsb' 0 4)] := by
  have ⟨hc, _, _⟩ := hi
  have hcheck : failIf (decide (((List.range 4).filter fun i => f.imm.getLsbD i).length < 2)) 4 6 f.imm.toNat = none := by
    rw [decide_eq_false (Nat.not_lt.2 hnamed)]
    rfl
  obtain ⟨t, ht, hkept, honly, -, hcore⟩ := coreWrite_spec (i := .qfence h f) hi (show execQfence h f s = _ from rfl)
    (g := fun k => k.addJoin ((atChecks h s x).serial, f.imm.extractLsb' 0 4))
    (back := fun l => { l with joins := (s.core x.c).joins }) (fun _ _ _ _ => rfl) rfl
    (checked_eq (List.forall_mem_singleton.2 hcheck) _)
  refine ⟨t, ht, hkept, honly, ?_⟩
  rw [cur?_core hc, ← atChecks_serial h s x]
  exact congrArg Core.joins hcore

/-- Settles O16: each of the four instructions writes one field of its core. -/
theorem trackersAndQueueFence : Obligations.TrackersAndQueueFence := by
  unfold Obligations.TrackersAndQueueFence
  refine ⟨fun h f s x hi => ⟨track_spec hi, trackt_spec hi, ?_⟩, fun h f s x hi hnamed => qfence_spec hi hnamed⟩
  obtain ⟨t, ht, hothers, htracker⟩ := untrack_spec (f := f) hi
  exact ⟨t, ht, hothers, congrArg Tracker.bound htracker⟩

end Sys2Proof.Machine

/-! # Lines of a first-level cache in error (O12, O13, O14, O17, O18) -/

namespace Sys2Proof.LineInError

open Sys2Proof Sys2Proof.Machine Sys2Proof.Execution Sys2Proof.Scatter

/-! ## An instruction behind which a line is in error no longer (R437) -/

/-- The instruction issues and changes which lines are in error. -/
def Mends (i : Instr) (s : State) : Prop := ∃ t, exec i s = .next t ∧ t.bad ≠ s.bad

/-- What an instruction that leaves results pending may change does not take in the errors of lines. -/
theorem bad_of_leavesPending {s t : State} {x : Cur} {pc : Nat} {ds : List Nat} (h : LeavesPending s t x pc ds) : t.bad = s.bad :=
  (congrArg State.bad h.1.1 :)

theorem Mends.not_leavesPending {i : Instr} {s t : State} (h : Mends i s) (ht : exec i s = .next t) {x : Cur} {pc : Nat}
    {ds : List Nat} : ¬ LeavesPending s t x pc ds := by
  obtain ⟨u, hu, hbad⟩ := h
  obtain rfl : u = t := Host.Outcome.next.inj (hu.symm.trans ht)
  exact fun hleaves => hbad (bad_of_leavesPending hleaves)

/-- Fixed fields of an unguarded instruction without the switch marker. -/
def unguarded : Head := ⟨false, 7, false⟩

/-- A core of the capsule whose first-level cache holds one line of the extent, and the machine with that core, where the line is in
error (level code 3, R409). -/
def caching (line : Nat) (k : Core) : Core := { k with l1 := [⟨line, List.replicate 64 0, false⟩] }
def cachedInError (line : Nat) (k : Core) : State := { oneCore denseCapsule (caching line k) with bad := [(line, 3)] }

/-- The executing task of that machine: slot 0, at offset 0. -/
def taskOf (line : Nat) (k : Core) (len : Nat) : Cur :=
  ⟨0, 0, caching line k, ((caching line k).slot 0).task, denseCapsule, 0, len⟩

/-! ## A load that hits the line (R150, R437) -/

/-- The line of capsule address 0, whose device address is 0x100000. -/
def firstLine : Nat := 0x100000 / 64
def hit : State := cachedInError firstLine portCore
def hitTask (len : Nat) : Cur := taskOf firstLine portCore len

/-- LD.d g4, [g2] and LDA.d.sys g4, [g2], from address 0. -/
def load : Instr := .ld unguarded ⟨4, 0, 2, 0, 0, 3, 0, 0, 0⟩
def acquire : FmtML := ⟨4, 0, 2, 0, 0, 3, 8, 0, 0, 0⟩

theorem load_mends : Mends load hit := ⟨_, rfl, by decide +kernel⟩
theorem acquire_mends : Mends (.lda unguarded acquire) hit := ⟨_, rfl, by decide +kernel⟩

theorem hit_issues (len : Nat) : Issues hit unguarded len (hitTask len) := ⟨rfl, nofun, rfl⟩
theorem hit_numbered : Numbered hit := by
  unfold Numbered
  decide
theorem hit_hasPlace (len : Nat) : HasPlace hit (hitTask len) 1 :=
  have h : HasPlace hit (hitTask 0) 1 := .inr (by decide +kernel)
  h

/-- Refutes O12: a load that meets a line of the first-level cache in error drops the line, which is logged and is in error no longer,
so that more of the machine changes than the statement allows. -/
theorem not_loadStoreIssue : ¬ Obligations.LoadStoreIssue := by
  unfold Obligations.LoadStoreIssue
  intro h
  obtain ⟨hplace, -⟩ := h load _ hit (hitTask 8) _ (.inl rfl) (hit_issues 8) (.inr (by decide))
    ⟨by decide, by decide, by decide⟩ hit_numbered rfl
  obtain ⟨t, ht, hleaves, -⟩ := hplace (hit_hasPlace 8)
  exact load_mends.not_leavesPending ht hleaves

theorem acquire_listDefined (k : Core) : ListDefined k acquire.list := fun _ hi => absurd hi (Nat.not_lt_zero _)

/-- Refutes O14: the load of an LDA meets the line in error in the same way. -/
theorem not_acquireReleaseIssue : ¬ Obligations.AcquireReleaseIssue := by
  unfold Obligations.AcquireReleaseIssue
  intro h
  obtain ⟨hload, -⟩ := h unguarded acquire hit (hitTask 16) _ (hit_issues 16) rfl (acquire_listDefined _) (.inr (by decide))
    hit_numbered (hit_hasPlace 16)
  obtain ⟨t, a, fe, ht, hleaves, -⟩ := hload rfl
  exact acquire_mends.not_leavesPending ht hleaves

/-! ## An earlier store that the next issue sends (R169, R173, R352) -/

/-- A scatter to pages at 0x800, 0x900 and 0xA00 of the extent: before it begins, and after it has read its three indexes, all 0. -/
def scatterAhead : CopyEntry := { scatter with box := [256, 3, 1, 1, 1, 1, 1, 1], begun := false, indexes := [], done := [] }
def scatterBegun : CopyEntry := { scatterAhead with begun := true, indexes := [0, 0, 0] }

/-- ST.d to 0xA00, held at the LSU behind the scatter. -/
def store : Access :=
  { id := 1, core := 0, slot := 0, slotSerial := 1, inst := 1, member := 0, pc := 0, insn := [], kind := .w, op := .store, ca := 0xA00
    addr := 0x100A00, size := 8, span := [], data := List.replicate 8 0, mask := BitVec.allOnes 64, guard := false, ext := some 0
    extGuard := true, msa := false, lane := 0, cls := 0, stl := none, result := none, entry := none, state := .held, order := 0
    perf := 0, word := 0x100A00 / 8, fill := false, line := [], reply := [], replyGuard := false }

/-- The line of the store is in the core's first-level cache, in error. -/
def storeLine : Nat := 0x100A00 / 64
def scatterCore (e : CopyEntry) : Core := { portCore with q0 := [e], maps := [(0, 0)] }
def storeHeld (e : CopyEntry) : State := { cachedInError storeLine (scatterCore e) with accesses := [store], serial := 2 }

/-- Page 2 may be named until the scatter begins, and so the store waits. -/
theorem store_waits : (storeHeld scatterAhead).canSend store = false := by decide +kernel

/-- The state behind an outcome. -/
def stateOf? : Host.Outcome State Fault Refusal → Option State
  | .next s => some s
  | _ => none

/-- The scatter begins and names page 0 alone: the store may go, and is still held until the LSU next sends. -/
theorem store_freed :
    (stateOf? (exec (.engineEntryBegin 0 0) (storeHeld scatterAhead))).map
      (fun t => (t.core 0, t.accesses, t.bad, t.canSend store)) =
    some (caching storeLine (scatterCore scatterBegun), [store], [(storeLine, 3)], true) := by
  decide +kernel

/-- The machine with the scatter begun. -/
def freed : State := storeHeld scatterBegun
def freedTask : Cur := taskOf storeLine (scatterCore scatterBegun) 8

/-- AMO.add.d g4, g3, [g2], PUT g8, G0[0], [g2] on class 4, and PREF [g2]. -/
def atomicAdd : Instr := .amo unguarded ⟨4, 0, 2, 3, 0, 3, 0, 0, 0⟩
def put : FmtT := ⟨8, 0, 2, 0, 0, 0, 0, 0, 4, 0⟩
def prefetch : FmtM := ⟨0, 0, 2, 0, 0, 0, 0, 0, 0⟩

theorem atomicAdd_mends : Mends atomicAdd freed := ⟨_, rfl, by decide +kernel⟩
theorem put_mends : Mends (.put unguarded put) freed := ⟨_, rfl, by decide +kernel⟩
theorem prefetch_mends : Mends (.pref unguarded prefetch) freed := ⟨_, rfl, by decide +kernel⟩

theorem freed_issues : Issues freed unguarded 8 freedTask := ⟨rfl, nofun, rfl⟩
theorem freed_numbered : Numbered freed := by
  unfold Numbered
  decide
theorem freed_hasPlace : HasPlace freed freedTask 1 := .inr (by decide +kernel)

/-- Refutes O13: with its own access an atomic has the LSU send an earlier store that nothing holds any more, and that store meets its
line of the first-level cache in error, which is so no longer. -/
theorem not_atomicIssue : ¬ Obligations.AtomicIssue := by
  unfold Obligations.AtomicIssue
  intro h
  obtain ⟨hplace, -⟩ := h atomicAdd _ freed freedTask _ rfl freed_issues (.inr (by decide)) ⟨⟨rfl, by decide, rfl⟩, by decide, rfl⟩
    freed_numbered rfl
  obtain ⟨t, ht, hleaves, -⟩ := hplace freed_hasPlace
  exact atomicAdd_mends.not_leavesPending ht hleaves

/-- Refutes O17: with its own access a PUT has the LSU send the earlier store, which meets its line in error. -/
theorem not_putIssue : ¬ Obligations.PutIssue := by
  unfold Obligations.PutIssue
  intro h
  obtain ⟨hplace, -⟩ := h unguarded put freed freedTask 0 freed_issues rfl (.inr (by decide)) (by decide) (by decide) (by decide) rfl
    freed_numbered
  obtain ⟨t, a, ht, hleaves, -⟩ := hplace freed_hasPlace
  exact put_mends.not_leavesPending ht hleaves

/-- Refutes O18: with its own fetch a PREF has the LSU send the earlier store, which meets its line in error. -/
theorem not_prefetchIssue : ¬ Obligations.PrefetchIssue := by
  unfold Obligations.PrefetchIssue
  intro h
  obtain ⟨hfetch, -⟩ := h unguarded prefetch freed freedTask freed_issues (.inr (by decide)) (by decide) freed_numbered
  obtain ⟨t, a, ht, hleaves, -⟩ := hfetch _ rfl (by decide +kernel)
  exact prefetch_mends.not_leavesPending ht hleaves

end Sys2Proof.LineInError
